-- ==== Sys2Proof/Word.lean ====
section
/-!
DEFINITION. The word types of the EVS-1650 model: bytes, 32-bit register words and 64-bit words.
Bit 0 is the least significant bit (R16); byte order helpers stand in Machine/Bytes.lean.
-/
namespace Sys2Proof

/-- One byte of memory, of a frame or of a record. -/
abbrev Byte := BitVec 8

/-- One 32-bit word: a register of the register window (R870), a g or f register, a stored sample. -/
abbrev W32 := BitVec 32

/-- One 64-bit word. -/
abbrev W64 := BitVec 64

end Sys2Proof
end

