-- ==== Sys2Proof/Syntax.lean ====
section
/-!
DEFINITION. The commands of the EVS-1650 as syntax: one constructor of `Instr` for each row of
spec/opcode_table.json, with the operands the specification gives the operation or event. A time operand `t` is the
device's own monotone time in ns (notes/assumptions/3.md).
-/
namespace Sys2Proof

/-- A VLAN tag in the clear: TPID and TCI (R79). -/
structure Tag where
  tpid : Nat
  tci : Nat
deriving DecidableEq, Repr

/-- What MACsec finds of a frame's SecTAG (R82, R123): whether its SCI and AN are known on the port, the feeder serial the
CAK of the SCI is paired to, the 64-bit packet number it recovers, and whether the ICV verifies. -/
structure SecTag where
  known : Bool
  serial : Nat
  pn : Nat
  icvOk : Bool
deriving DecidableEq, Repr

/-- An Ethernet frame as it arrives: length from destination to FCS, FCS result, the bytes from the destination address to
the one before the ICV or FCS with a protected part in the clear, what MACsec finds of a SecTAG where the bytes hold one, and
RS-FEC codewords corrected and uncorrectable in it. -/
structure EthFrame where
  length : Nat
  fcsOk : Bool
  bytes : List Byte
  found : SecTag
  fecCorrected : Nat
  fecUncorr : Nat
deriving DecidableEq, Repr

/-- A stream entry of a Sheet hello (R95): DIRECTION 1 input, 2 drive. -/
structure StreamEntry where
  id : Nat
  dir : Nat
  format : Nat
  first : Nat
  channels : Nat
  rate : Nat
deriving DecidableEq, Repr

/-- The body of a Sheet hello (R95). `bodyLen` is its length in bytes; `key` the public key of a pair request (R114). -/
structure Hello where
  step : Nat
  reason : Nat
  handle : Nat
  serial : Nat
  caps : Nat
  streams : Nat
  entries : List StreamEntry
  bodyLen : Nat
  key : List Byte
deriving DecidableEq, Repr

/-- An organisation-specific LLDP TLV (R90): company identifier, subtype, information. -/
structure LldpTlv where
  oui : Nat
  subtype : Nat
  info : List Byte
deriving DecidableEq, Repr

/-- A PCI Express memory request through a BAR (R56): the BAR, the offset in it, the length of a read, or the bytes of a
posted write. -/
structure BarReq where
  bar : Nat
  off : Nat
  len : Nat
  data : Option (List Byte)
deriving DecidableEq, Repr

/-- What a Colophon firmware image carries (R730, R735 step 3): the signer's public key, whether its signature verifies under
it, TARGET_REV, the rollback value and the version. The image's layout is not in the specification. -/
structure FwHead where
  key : List Byte
  verifies : Bool
  rev : Nat
  rollback : Nat
  version : Nat
deriving DecidableEq, Repr

/-- What the boot ROM reads in firmware slots A and B (R735 step 3). -/
structure BootSlots where
  a : FwHead
  b : FwHead
deriving DecidableEq, Repr

/-- A patch slot of the boot flash (R398): its bytes, the public key of Adkigan's its signature is under, whether the GCM tag
verifies, and the plaintext of the body. -/
structure PatchSlot where
  image : Option (List Byte)
  key : List Byte
  tagged : Bool
  body : List Byte
deriving DecidableEq, Repr

namespace Machine

/-- A region register (R530). -/
structure Region where
  base : Nat
  size : Nat
  r : Bool
  w : Bool
  whole : Bool
deriving DecidableEq, Repr

/-- A request to Reel memory that waits for a retrain window to close (R545): master, address, length of a read, or the
bytes of a write. -/
structure ReelReq where
  master : Nat
  addr : Nat
  len : Nat
  data : Option (List Byte)
deriving DecidableEq, Repr

/-- A guaranteed flow (R596). -/
structure Flow where
  src : Nat
  dst : Nat
  valid : Bool
  slots : Nat
deriving DecidableEq, Repr

end Machine

/-- An upset of the two copies of an event source's configuration: the bits it flips in copies A and B, the word of EVT_SRC_COAL
above that of EVT_SRC_CFG (R629). -/
structure SrcHit where
  source : Nat
  flipsA : BitVec 64
  flipsB : BitVec 64
deriving DecidableEq, Repr

/-- A command that the block takes: one constructor for each row of spec/opcode_table.json, in its order. Common operands: `m`
the master that writes (R529), `v` the word written, `p` a feeder port or a page, `k` a core, a stack, a source or an index,
`w` a web, `n` a ring, `t` the device's own time in ns. -/
inductive Instr where
  -- Device resets and make-ready
  /-- POR_N_ASSERT (R33). -/
  | porNAssert
  /-- POR_N_RELEASE (R734). -/
  | porNRelease (mode : Nat) (test : Bool) (b : BootSlots)
  /-- SYS_RST_N_ASSERT (R909). -/
  | sysRstNAssert
  /-- SYS_RST_N_RELEASE (R735). -/
  | sysRstNRelease (b : BootSlots)
  /-- BROWNOUT_TRIP (R905). -/
  | brownoutTrip
  /-- BROWNOUT_RELEASE (R905). -/
  | brownoutRelease (mode : Nat) (b : BootSlots)
  /-- THERMAL_RESET (R907). -/
  | thermalReset
  /-- UNIT_PROOF_DONE (R736). -/
  | unitProofDone (cls inst : Nat) (pass : Bool)
  /-- PATCH_LOAD (R399). -/
  | patchLoad (a b : PatchSlot)
  /-- MAKE_READY_DONE (R735). -/
  | makeReadyDone (failed words entries : List (Nat × Nat))
  /-- WAKE_N_ASSERT (R854). -/
  | wakeNAssert (t : Nat)
  /-- PERST_ASSERT (R773). -/
  | perstAssert
  /-- PERST_RELEASE (R911). -/
  | perstRelease
  /-- FUNCTION_LEVEL_RESET (R773). -/
  | functionLevelReset
  /-- LOG_PERST_RELEASE (R913). -/
  | logPerstRelease (k : Nat) (formatOk : Bool)
  -- Register accesses
  /-- REGISTER_WRITE (R882). -/
  | registerWrite (m p off : Nat) (data : List Byte) (t : Nat)
  /-- COUNTER_READ (R28). -/
  | counterRead (m p off : Nat)
  /-- LO_CAPTURE_READ (R31). -/
  | loCaptureRead (m p off : Nat)
  /-- QUOIN_SET (R32). -/
  | quoinSet (m p : Nat) (v : W32)
  /-- SOFT_RESET (R886). -/
  | softReset (m p : Nat) (v : W32)
  /-- SOFT_RESET_DONE (R887). -/
  | softResetDone (p : Nat)
  /-- PROBE_CLEAR (R614). -/
  | probeClear (m p : Nat) (v : W32)
  /-- PROBE_WRAP (R613). -/
  | probeWrap (p t : Nat)
  -- The host endpoint
  /-- HOST_BAR_REQUEST (R56). -/
  | hostBarRequest (q : BarReq) (t : Nat)
  /-- HOST_BAR4_BASE_WRITE (R61). -/
  | hostBar4BaseWrite (m : Nat) (v : W32)
  /-- HOST_REQUEST_ERROR (R774). -/
  | hostRequestError (n : Nat)
  /-- MSIX_UNMASK (R647). -/
  | msixUnmask (vector : Option Nat)
  /-- HOST_LINK_CHANGE (R807). -/
  | hostLinkChange (up : Bool) (speed width t : Nat)
  /-- HOST_LINK_L1_ENTRY (R861). -/
  | hostLinkL1Entry (t : Nat)
  -- Feeder ports
  /-- FEED_FRAME_RECEIVE (R81). -/
  | feedFrameReceive (p : Nat) (f : EthFrame) (t : Nat)
  /-- FEED_ENABLE_WRITE (R86). -/
  | feedEnableWrite (m p : Nat) (v : Bool) (t : Nat)
  /-- FEED_PAIRING_OPEN (R114). -/
  | feedPairingOpen (m p : Nat)
  /-- BLOCK_LOCK_GAIN (R83). -/
  | blockLockGain (p : Nat) (t : Nat)
  /-- BLOCK_LOCK_LOSS (R83). -/
  | blockLockLoss (p : Nat) (inFrame : Bool) (t : Nat)
  /-- SPEED_WINDOW_EXPIRY (R83). -/
  | speedWindowExpiry (p : Nat)
  /-- LOCK_HOLD_EXPIRY (R83). -/
  | lockHoldExpiry (p : Nat)
  -- LLDP, the Sheet hello, pairing and MKA
  /-- LLDP_TRANSMIT (R89). -/
  | lldpTransmit (p : Nat)
  /-- LLDP_RECEIVE (R91). -/
  | lldpReceive (p : Nat) (pdu : List Byte)
  /-- HELLO_OFFER (R107). -/
  | helloOffer (p : Nat) (f : EthFrame) (t : Nat)
  /-- HELLO_CONFIRM (R96). -/
  | helloConfirm (p : Nat) (f : EthFrame) (t : Nat)
  /-- HELLO_LEAVE (R100). -/
  | helloLeave (p : Nat) (f : EthFrame) (t : Nat)
  /-- HELLO_KEEPALIVE (R105). -/
  | helloKeepalive (p : Nat) (f : EthFrame) (t : Nat)
  /-- HELLO_PAIR_REQUEST (R114). -/
  | helloPairRequest (p : Nat) (f : EthFrame) (t : Nat)
  /-- HELLO_BAD_STEP (R95). -/
  | helloBadStep (p : Nat) (f : EthFrame)
  /-- CONFIRM_TIMEOUT (R97). -/
  | confirmTimeout (i : Nat)
  /-- FEEDER_LIVE_EXPIRY (R105). -/
  | feederLiveExpiry (i t : Nat)
  /-- STALE_HOLD_EXPIRY (R106). -/
  | staleHoldExpiry (i t : Nat)
  /-- FT_INDEX_CAPTURE (R112). -/
  | ftIndexCapture (m i t : Nat)
  /-- FT_EVICT (R113). -/
  | ftEvict (m i t : Nat)
  /-- PAIR_CONFIRM_WRITE (R115). -/
  | pairConfirmWrite (m p code : Nat)
  /-- PAIRING_TIMEOUT (R115). -/
  | pairingTimeout (p : Nat)
  /-- EAPOL_RECEIVE (R119). -/
  | eapolReceive (p serial : Nat) (authentic live : Bool) (t : Nat)
  /-- MKA_HELLO_TRANSMIT (R121). -/
  | mkaHelloTransmit (p : Nat)
  /-- MKA_LIFE_EXPIRY (R121). -/
  | mkaLifeExpiry (p t : Nat)
  -- PTP and device time
  /-- PTP_FRAME_RECEIVE (R129). -/
  | ptpFrameReceive (p : Nat) (f : EthFrame) (sync : Option Int) (t : Nat)
  /-- PTP_MESSAGE_SEND (R130). -/
  | ptpMessageSend (p : Nat) (body : List Byte) (t : Nat)
  /-- PTP_ADJ_FREQ_WRITE (R127). -/
  | ptpAdjFreqWrite (m : Nat) (v : W32) (t : Nat)
  /-- PTP_ADJ_STEP (R128). -/
  | ptpAdjStep (m : Nat) (v : W32) (t : Nat)
  /-- PTP_TIME_CAPTURE_READ (R126). -/
  | ptpTimeCaptureRead (m : Nat) (t : Nat)
  /-- PPS_IN_EDGE (R132). -/
  | ppsInEdge (t : Nat)
  /-- PPS_TIMEOUT (R133). -/
  | ppsTimeout (t : Nat)
  /-- PTP_MASTER_LOST (R134). -/
  | ptpMasterLost (t : Nat)
  /-- DEVICE_SECOND (R621). -/
  | deviceSecond (t : Nat)
  -- Sheet data, the tick, imposition
  /-- SHEET_DATA_FRAME (R144). -/
  | sheetDataFrame (p : Nat) (f : EthFrame) (t : Nat)
  /-- STONE_DATA_READY (R171). -/
  | stoneDataReady
  /-- IMPRESSION_TICK (R796). -/
  | impressionTick (t : Nat)
  /-- REEL_CAL_SLOT (R546). -/
  | reelCalSlot (t : Nat)
  /-- HALF_PRESS_EXCEEDED (R802). -/
  | halfPressExceeded (t : Nat)
  /-- IMPOSE_COMMIT (R154). -/
  | imposeCommit (m : Nat)
  /-- IMPOSE_VALIDATION_DONE (R155). -/
  | imposeValidationDone
  /-- IMPOSE_TABLE_SCRUB (R160). -/
  | imposeTableScrub (hits : List (Nat × Bool × Bool))
  /-- SLOT_INDEX_CAPTURE (R164). -/
  | slotIndexCapture (m k : Nat)
  -- Drive and fade
  /-- DRIVE_COMMIT (R183). -/
  | driveCommit (m : Nat)
  /-- DRIVE_VALIDATION_DONE (R183). -/
  | driveValidationDone
  /-- FADE_REQ_WRITE (R196). -/
  | fadeReqWrite (m : Nat) (v : W32) (t : Nat)
  /-- FADE_FRAME_REPEAT (R198). -/
  | fadeFrameRepeat (t : Nat)
  /-- FADE_DONE (R205). -/
  | fadeDone (t : Nat)
  /-- FADE_CLEAR (R202). -/
  | fadeClear (m : Nat) (v : W32) (t : Nat)
  -- Forme instructions
  /-- FM_NOP (R313). -/
  | fmNop
  /-- FM_MOV (R313). -/
  | fmMov
  /-- FM_MOVH (R313). -/
  | fmMovh
  /-- FM_SETI (R313). -/
  | fmSeti
  /-- FM_GETF (R313). -/
  | fmGetf
  /-- FM_ADD (R314). -/
  | fmAdd
  /-- FM_ADDC (R314). -/
  | fmAddc
  /-- FM_SUB (R314). -/
  | fmSub
  /-- FM_SUBC (R314). -/
  | fmSubc
  /-- FM_NEG (R314). -/
  | fmNeg
  /-- FM_ABS (R316). -/
  | fmAbs
  /-- FM_ADDS (R315). -/
  | fmAdds
  /-- FM_SUBS (R315). -/
  | fmSubs
  /-- FM_MUL (R317). -/
  | fmMul
  /-- FM_MAC (R317). -/
  | fmMac
  /-- FM_AND (R318). -/
  | fmAnd
  /-- FM_OR (R318). -/
  | fmOr
  /-- FM_XOR (R318). -/
  | fmXor
  /-- FM_ANDN (R318). -/
  | fmAndn
  /-- FM_NOT (R318). -/
  | fmNot
  /-- FM_BOOL (R318). -/
  | fmBool
  /-- FM_CMP (R319). -/
  | fmCmp
  /-- FM_TST (R319). -/
  | fmTst
  /-- FM_FLAG (R320). -/
  | fmFlag
  /-- FM_SEL (R319). -/
  | fmSel
  /-- FM_MAX (R319). -/
  | fmMax
  /-- FM_MIN (R319). -/
  | fmMin
  /-- FM_NEWS (R323). -/
  | fmNews
  /-- FM_PLOR (R326). -/
  | fmPlor
  /-- FM_PLAND (R326). -/
  | fmPland
  /-- FM_PLABT (R326). -/
  | fmPlabt
  /-- FM_PLCNT (R326). -/
  | fmPlcnt
  /-- FM_PLFST (R326). -/
  | fmPlfst
  /-- FM_LDG (R332). -/
  | fmLdg
  /-- FM_STG (R332). -/
  | fmStg
  /-- FM_WAIT (R340). -/
  | fmWait
  /-- FM_WAIT_END (R342). -/
  | fmWaitEnd (n : Nat)
  /-- CUSTOMER_ROUTINE (R312). -/
  | customerRoutine (n : Nat)
  -- Platen, galley I/O, sequencer, Forme debug and migration
  /-- PLATEN_RESULT (R264). -/
  | platenResult (t : Nat)
  /-- GALLEY_IO_DONE (R280). -/
  | galleyIoDone
  /-- WAIT_TIMEOUT (R379). -/
  | waitTimeout
  /-- ROUTINE_BUDGET_EXPIRY (R387). -/
  | routineBudgetExpiry
  /-- ROUTINE_BOUNDARY (R393). -/
  | routineBoundary
  /-- CASE_SCRUB_DUE (R231). -/
  | caseScrubDue
  /-- E_CLEAR_WRITE (R284). -/
  | eClearWrite (m : Nat) (v : W32)
  /-- MIGRATION_DONE (R256). -/
  | migrationDone
  /-- DBG_ADDR_WRITE (R283). -/
  | dbgAddrWrite (r m : Nat) (v : W32)
  /-- DBG_DATA_WRITE (R283). -/
  | dbgDataWrite (r m : Nat) (v : W32)
  /-- DBG_DONE (R289). -/
  | dbgDone (r : Nat)
  -- The Compositor
  /-- IMP_END_WRITE (R356). -/
  | impEndWrite (m : Nat) (v : W32)
  /-- EXECUTION_END (R357). -/
  | executionEnd (t : Nat)
  /-- XCHECK_PASS (R350). -/
  | xcheckPass
  /-- SPARE_CORE_PROOF (R349). -/
  | spareCoreProof (passes : Option Bool)
  /-- SEQ_REARM (R392). -/
  | seqRearm (m : Nat) (v : W32)
  /-- SEQ_FLUSH (R412). -/
  | seqFlush (m : Nat) (v : W32)
  /-- SEQ_ENABLE_WRITE (R412). -/
  | seqEnableWrite (m : Nat) (v : W32)
  -- The control store
  /-- CSTORE_WINDOW_WRITE (R403). -/
  | cstoreWindowWrite (m addr : Nat) (data : List Byte)
  /-- DISPATCH_ENTRY_WRITE (R405). -/
  | dispatchEntryWrite (m : Nat) (v : W32)
  /-- CSTORE_MATCH_WRITE (R397). -/
  | cstoreMatchWrite (m : Nat) (v : W32)
  -- Quire integer instructions
  /-- Q_ADD (R442). -/
  | qAdd (k : Nat)
  /-- Q_SUB (R442). -/
  | qSub (k : Nat)
  /-- Q_AND (R442). -/
  | qAnd (k : Nat)
  /-- Q_OR (R442). -/
  | qOr (k : Nat)
  /-- Q_XOR (R442). -/
  | qXor (k : Nat)
  /-- Q_ANDN (R442). -/
  | qAndn (k : Nat)
  /-- Q_SLL (R442). -/
  | qSll (k : Nat)
  /-- Q_SRL (R442). -/
  | qSrl (k : Nat)
  /-- Q_SRA (R442). -/
  | qSra (k : Nat)
  /-- Q_SLLI (R442). -/
  | qSlli (k : Nat)
  /-- Q_SRLI (R442). -/
  | qSrli (k : Nat)
  /-- Q_SRAI (R442). -/
  | qSrai (k : Nat)
  /-- Q_CMPEQ (R442). -/
  | qCmpeq (k : Nat)
  /-- Q_CMPLT (R442). -/
  | qCmplt (k : Nat)
  /-- Q_CMPLTU (R442). -/
  | qCmpltu (k : Nat)
  /-- Q_SEL (R442). -/
  | qSel (k : Nat)
  /-- Q_ADDX (R443). -/
  | qAddx (k : Nat)
  /-- Q_CARX (R443). -/
  | qCarx (k : Nat)
  /-- Q_SUBX (R443). -/
  | qSubx (k : Nat)
  /-- Q_BORX (R443). -/
  | qBorx (k : Nat)
  /-- Q_MUL (R442). -/
  | qMul (k : Nat)
  /-- Q_MULH (R442). -/
  | qMulh (k : Nat)
  /-- Q_MULHU (R442). -/
  | qMulhu (k : Nat)
  /-- Q_MULW (R442). -/
  | qMulw (k : Nat)
  /-- Q_MULWU (R442). -/
  | qMulwu (k : Nat)
  /-- Q_DIV (R455). -/
  | qDiv (k : Nat)
  /-- Q_DIVU (R455). -/
  | qDivu (k : Nat)
  /-- Q_REM (R455). -/
  | qRem (k : Nat)
  /-- Q_REMU (R455). -/
  | qRemu (k : Nat)
  /-- Q_DIVW (R455). -/
  | qDivw (k : Nat)
  /-- Q_DIVWU (R455). -/
  | qDivwu (k : Nat)
  /-- Q_CLZ (R442). -/
  | qClz (k : Nat)
  /-- Q_CTZ (R442). -/
  | qCtz (k : Nat)
  /-- Q_POPC (R442). -/
  | qPopc (k : Nat)
  /-- Q_BSWAP (R442). -/
  | qBswap (k : Nat)
  -- Quire immediates and memory
  /-- Q_ADDI (R444). -/
  | qAddi (k : Nat)
  /-- Q_ANDI (R444). -/
  | qAndi (k : Nat)
  /-- Q_ORI (R444). -/
  | qOri (k : Nat)
  /-- Q_XORI (R444). -/
  | qXori (k : Nat)
  /-- Q_LDHI (R444). -/
  | qLdhi (k : Nat)
  /-- Q_CMPEQI (R444). -/
  | qCmpeqi (k : Nat)
  /-- Q_CMPLTI (R444). -/
  | qCmplti (k : Nat)
  /-- Q_CMPLTUI (R444). -/
  | qCmpltui (k : Nat)
  /-- Q_LDB (R445). -/
  | qLdb (k : Nat)
  /-- Q_LDBU (R445). -/
  | qLdbu (k : Nat)
  /-- Q_LDH (R445). -/
  | qLdh (k : Nat)
  /-- Q_LDHU (R445). -/
  | qLdhu (k : Nat)
  /-- Q_LDW (R445). -/
  | qLdw (k : Nat)
  /-- Q_STB (R445). -/
  | qStb (k : Nat)
  /-- Q_STH (R445). -/
  | qSth (k : Nat)
  /-- Q_STW (R445). -/
  | qStw (k : Nat)
  /-- Q_FLD (R445). -/
  | qFld (k : Nat)
  /-- Q_FST (R445). -/
  | qFst (k : Nat)
  /-- Q_VLD (R464). -/
  | qVld (k : Nat)
  /-- Q_VST (R465). -/
  | qVst (k : Nat)
  /-- Q_LDWX (R445). -/
  | qLdwx (k : Nat)
  /-- Q_STWX (R445). -/
  | qStwx (k : Nat)
  /-- Q_LDBUX (R445). -/
  | qLdbux (k : Nat)
  /-- Q_STBX (R445). -/
  | qStbx (k : Nat)
  /-- Q_VLDS (R445). -/
  | qVlds (k : Nat)
  /-- Q_VSTS (R445). -/
  | qVsts (k : Nat)
  /-- QUIRE_LOAD_DATA (R432). -/
  | quireLoadData (k : Nat)
  /-- STORE_DRAIN (R433). -/
  | storeDrain (k : Nat)
  -- Quire branches
  /-- Q_BEZ (R446). -/
  | qBez (k : Nat)
  /-- Q_BNZ (R446). -/
  | qBnz (k : Nat)
  /-- Q_J (R446). -/
  | qJ (k : Nat)
  /-- Q_JL (R446). -/
  | qJl (k : Nat)
  /-- Q_JR (R446). -/
  | qJr (k : Nat)
  /-- Q_JLR (R446). -/
  | qJlr (k : Nat)
  -- Quire floating point
  /-- Q_FADD (R447). -/
  | qFadd (k : Nat)
  /-- Q_FSUB (R447). -/
  | qFsub (k : Nat)
  /-- Q_FMUL (R447). -/
  | qFmul (k : Nat)
  /-- Q_FDIV (R447). -/
  | qFdiv (k : Nat)
  /-- Q_FSQRT (R447). -/
  | qFsqrt (k : Nat)
  /-- Q_FMIN (R447). -/
  | qFmin (k : Nat)
  /-- Q_FMAX (R447). -/
  | qFmax (k : Nat)
  /-- Q_FABS (R447). -/
  | qFabs (k : Nat)
  /-- Q_FNEG (R447). -/
  | qFneg (k : Nat)
  /-- Q_FMOV (R447). -/
  | qFmov (k : Nat)
  /-- Q_FEQ (R447). -/
  | qFeq (k : Nat)
  /-- Q_FLT (R447). -/
  | qFlt (k : Nat)
  /-- Q_FLE (R447). -/
  | qFle (k : Nat)
  /-- Q_FCVTWS (R447). -/
  | qFcvtws (k : Nat)
  /-- Q_FCVTWUS (R447). -/
  | qFcvtwus (k : Nat)
  /-- Q_FCVTWSZ (R447). -/
  | qFcvtwsz (k : Nat)
  /-- Q_FCVTSW (R447). -/
  | qFcvtsw (k : Nat)
  /-- Q_FCVTSWU (R447). -/
  | qFcvtswu (k : Nat)
  /-- Q_FMVGF (R447). -/
  | qFmvgf (k : Nat)
  /-- Q_FMVFG (R447). -/
  | qFmvfg (k : Nat)
  /-- Q_FMADD (R447). -/
  | qFmadd (k : Nat)
  /-- Q_FMSUB (R447). -/
  | qFmsub (k : Nat)
  /-- Q_FNMSUB (R447). -/
  | qFnmsub (k : Nat)
  /-- Q_FNMADD (R447). -/
  | qFnmadd (k : Nat)
  -- Quire vectors
  /-- Q_VADD (R448). -/
  | qVadd (k : Nat)
  /-- Q_VSUB (R448). -/
  | qVsub (k : Nat)
  /-- Q_VMUL (R448). -/
  | qVmul (k : Nat)
  /-- Q_VFMA (R448). -/
  | qVfma (k : Nat)
  /-- Q_VMIN (R448). -/
  | qVmin (k : Nat)
  /-- Q_VMAX (R448). -/
  | qVmax (k : Nat)
  /-- Q_VABS (R448). -/
  | qVabs (k : Nat)
  /-- Q_VNEG (R448). -/
  | qVneg (k : Nat)
  /-- Q_VCMPLT (R448). -/
  | qVcmplt (k : Nat)
  /-- Q_VCMPEQ (R448). -/
  | qVcmpeq (k : Nat)
  /-- Q_VAND (R448). -/
  | qVand (k : Nat)
  /-- Q_VOR (R448). -/
  | qVor (k : Nat)
  /-- Q_VXOR (R448). -/
  | qVxor (k : Nat)
  /-- Q_VANDN (R448). -/
  | qVandn (k : Nat)
  /-- Q_VBCAST (R448). -/
  | qVbcast (k : Nat)
  /-- Q_VSUM (R448). -/
  | qVsum (k : Nat)
  /-- Q_VCVTSW (R448). -/
  | qVcvtsw (k : Nat)
  /-- Q_VCVTWS (R448). -/
  | qVcvtws (k : Nat)
  /-- Q_VMOV (R448). -/
  | qVmov (k : Nat)
  -- Quire system instructions and interrupts
  /-- Q_TRAP (R450). -/
  | qTrap (k : Nat)
  /-- Q_BRK (R450). -/
  | qBrk (k : Nat)
  /-- Q_RFE (R471). -/
  | qRfe (k : Nat)
  /-- Q_RFF (R471). -/
  | qRff (k : Nat)
  /-- Q_MFC (R423). -/
  | qMfc (k cycle : Nat)
  /-- Q_MTC (R423). -/
  | qMtc (k : Nat)
  /-- Q_FENCE (R436). -/
  | qFence (k : Nat)
  /-- Q_WAIT (R450). -/
  | qWait (k : Nat)
  /-- WAIT_RELEASE (R450). -/
  | waitRelease (k : Nat)
  /-- Q_SEGLD (R427). -/
  | qSegld (k : Nat)
  /-- Q_SEGST (R451). -/
  | qSegst (k : Nat)
  /-- Q_ENQ (R452). -/
  | qEnq (k : Nat)
  /-- Q_ENQV (R452). -/
  | qEnqv (k : Nat)
  /-- Q_ILLEGAL (R440). -/
  | qIllegal (k : Nat)
  /-- INTERRUPT_ENTRY_NORMAL (R469). -/
  | interruptEntryNormal (k : Nat)
  /-- INTERRUPT_ENTRY_FAST (R470). -/
  | interruptEntryFast (k : Nat)
  -- Web engines
  /-- WEB_SUBMIT (R494). -/
  | webSubmit (w m : Nat) (v : W32)
  /-- JOB_CHAIN_SUBMIT (R494). -/
  | jobChainSubmit (w : Nat)
  /-- CHAIN_START (R501). -/
  | chainStart (w : Nat)
  /-- CHAIN_DISCARD (R508). -/
  | chainDiscard (w i cause addr : Nat)
  /-- CHAIN_END (R507). -/
  | chainEnd (w i cycles : Nat)
  /-- WEB_FLUSH (R511). -/
  | webFlush (w m : Nat) (v : W32)
  /-- WEB_ENABLE_WRITE (R516). -/
  | webEnableWrite (w m : Nat) (v : W32)
  -- Stone, Reel and the ledger
  /-- STONE_ACCESS (R526). -/
  | stoneAccess (b : Nat) (claims : List Machine.ReelReq) (t : Nat)
  /-- STONE_CORRECTION_REWRITE (R521). -/
  | stoneCorrectionRewrite (w : Nat)
  /-- STONE_SCRUB_DUE (R551). -/
  | stoneScrubDue (t : Nat)
  /-- STONE_SCRUB_OVERDUE (R551). -/
  | stoneScrubOverdue (b : Nat)
  /-- REEL_ACCESS (R538). -/
  | reelAccess (claims : List Machine.ReelReq) (t : Nat)
  /-- REEL_CORRECTION_REWRITE (R540). -/
  | reelCorrectionRewrite (w : Nat)
  /-- REEL_REFRESH (R542). -/
  | reelRefresh (k : Nat)
  /-- REEL_TEMP_READING (R543). -/
  | reelTempReading (k : Nat) (temp : BitVec 8)
  /-- REEL_RETRAIN_DUE (R545). -/
  | reelRetrainDue (k t : Nat)
  /-- REEL_RETRAIN_END (R545). -/
  | reelRetrainEnd (k t : Nat)
  /-- REEL_PATROL_SCRUB (R548). -/
  | reelPatrolScrub (k a t : Nat)
  /-- REEL_STACK_LOST (R564). -/
  | reelStackLost (k : Nat)
  /-- REGION_RIGHTS_WRITE (R567). -/
  | regionRightsWrite (m : Nat) (v : W32)
  /-- REGION_SELECT (R567). -/
  | regionSelect (m : Nat) (v : W32)
  /-- LEDGER_COMMIT (R558). -/
  | ledgerCommit (m : Nat)
  /-- LEDGER_CHECK_DONE (R559). -/
  | ledgerCheckDone
  -- The on-chip network
  /-- LINK_UNIT_RECEIVE (R578). -/
  | linkUnitReceive (r p : Nat) (errors : List Nat) (nc : Nat)
  /-- PACKET_HOP (R584). -/
  | packetHop (r out nc : Nat) (inject : Option (Nat × List Nat))
  /-- PACKET_EJECT (R583). -/
  | packetEject (r p vn vc nc : Nat)
  /-- CREDIT_RETURN (R590). -/
  | creditReturn (r p vn vc : Nat)
  /-- RESP_TIMEOUT (R602). -/
  | respTimeout (ep tag t : Nat)
  /-- FLOW_COMMIT (R598). -/
  | flowCommit (m : Nat)
  /-- FLOW_CHECK_DONE (R599). -/
  | flowCheckDone
  /-- FLOW_PLACEMENT_APPLY (R598). -/
  | flowPlacementApply
  -- The Event Controller
  /-- EVENT_RAISE (R625). -/
  | eventRaise (k t : Nat)
  /-- COALESCE_TIMEOUT (R625). -/
  | coalesceTimeout (k t : Nat)
  /-- EVT_LINE_CHANGE (R630). -/
  | evtLineChange (n : Nat) (level : Bool) (t : Nat)
  /-- EVT_FILTER_SETTLE (R631). -/
  | evtFilterSettle (n t : Nat)
  /-- SOFT_RAISE (R634). -/
  | softRaise (m idx t : Nat)
  /-- EVT_ACCEPTANCE (R636). -/
  | evtAcceptance (proc : Nat) (fast : Bool)
  /-- EOI_WRITE (R638). -/
  | eoiWrite (m proc level : Nat)
  /-- STACK_RESET (R644). -/
  | stackReset (m proc : Nat)
  /-- EVT_CONFIG_SCRUB (R629). -/
  | evtConfigScrub (hits : List SrcHit)
  -- Fault Collector, ALIVE and the heartbeat
  /-- FAULT_MESSAGE (R659). -/
  | faultMessage (n t : Nat)
  /-- LOCAL_FAULT_MESSAGE (R660). -/
  | localFaultMessage (t : Nat)
  /-- FAULT_LOG_WRITE_DONE (R676). -/
  | faultLogWriteDone
  /-- FAULT_SEV_SCRUB (R670). -/
  | faultSevScrub (hits : List (Nat × W32 × W32))
  /-- FIRST_CLEAR (R673). -/
  | firstClear (m : Nat) (v : W32)
  /-- FAULT_LOG_CAPTURE (R677). -/
  | faultLogCapture (m : Nat) (v : W32)
  /-- TALLY_WINDOW_EXPIRY (R678). -/
  | tallyWindowExpiry (unit k t : Nat)
  /-- ALIVE_TOGGLE (R690). -/
  | aliveToggle (t : Nat)
  /-- ALIVE_ENABLE_WRITE (R693). -/
  | aliveEnableWrite (m : Nat) (v : W32) (t : Nat)
  /-- HEARTBEAT_KICK (R691). -/
  | heartbeatKick (m : Nat) (v : W32) (t : Nat)
  /-- HB_TIMEOUT_WRITE (R691). -/
  | hbTimeoutWrite (m : Nat) (v : W32) (t : Nat)
  /-- HEARTBEAT_DEADLINE (R692). -/
  | heartbeatDeadline (t : Nat)
  -- The Colophon and its mailboxes
  /-- SENSOR_SAMPLE (R724). -/
  | sensorSample (k : Nat) (value : W32) (t : Nat)
  /-- PMBUS_POLL (R725). -/
  | pmbusPoll (words : List W32) (t : Nat)
  /-- DRBG_HEALTH_FAIL (R767). -/
  | drbgHealthFail
  /-- MB_GET_CERT (R739). -/
  | mbGetCert (box : Nat)
  /-- MB_ATTEST (R741). -/
  | mbAttest (box : Nat)
  /-- MB_REGION_SET (R740). -/
  | mbRegionSet (box m r : Nat) (g : Machine.Region)
  /-- MB_FLOW_SET (R739). -/
  | mbFlowSet (box k : Nat) (f : Machine.Flow)
  /-- MB_ENROL (R744). -/
  | mbEnrol (box : Nat) (key sig owner ownerSig : List Byte)
  /-- MB_RELEASE (R745). -/
  | mbRelease (box : Nat) (owner sig : List Byte)
  /-- MB_LOAD_IMAGE (R747). -/
  | mbLoadImage (box : Nat) (more : List Byte) (words entries : List (Nat × Nat))
  /-- FRISKET_LOAD_DONE (R828). -/
  | frisketLoadDone (ok : Bool)
  /-- MB_UPDATE_BEGIN (R762). -/
  | mbUpdateBegin (box : Nat)
  /-- MB_UPDATE_DATA (R762). -/
  | mbUpdateData (box : Nat)
  /-- MB_UPDATE_SWITCH (R762). -/
  | mbUpdateSwitch (box : Nat) (h : FwHead) (t : Nat)
  /-- MB_UPDATE_CONFIRM (R763). -/
  | mbUpdateConfirm (box : Nat)
  /-- MB_RECORD_OPEN (R749). -/
  | mbRecordOpen (box t : Nat)
  /-- MB_RECORD_CLOSE (R751). -/
  | mbRecordClose (box t : Nat)
  /-- MB_READ_LOG (R758). -/
  | mbReadLog (box k what first count dst : Nat) (data : List Byte)
  /-- MB_READ_JOURNAL (R739). -/
  | mbReadJournal (box first count : Nat)
  /-- MB_BAD_OPCODE (R739). -/
  | mbBadOpcode (box : Nat)
  -- The signed record and the journal
  /-- RECORD_BLOCK_CLOSE (R749). -/
  | recordBlockClose (t : Nat)
  /-- SIGNATURE_TIMER (R751). -/
  | signatureTimer (t : Nat)
  /-- NVME_COMPLETION (R757). -/
  | nvmeCompletion (k id status t : Nat)
  /-- NVME_TIMEOUT (R757). -/
  | nvmeTimeout (k id t : Nat)
  /-- LOG_RELEASE_WRITE (R768). -/
  | logReleaseWrite (k m : Nat) (v : W32)
  /-- JOURNAL_PROGRAM_DONE (R760). -/
  | journalProgramDone
  /-- JOURNAL_ERASE_DONE (R760). -/
  | journalEraseDone
  -- Job tickets and the standing program
  /-- JOBS_TAIL_DOORBELL (R777). -/
  | jobsTailDoorbell (n m : Nat) (v : W32)
  /-- JOBS_HEAD_WRITE (R777). -/
  | jobsHeadWrite (n m : Nat) (v : W32)
  /-- RING_ENABLE_WRITE (R780). -/
  | ringEnableWrite (n m : Nat) (v : W32)
  /-- TICKET_FETCH (R776). -/
  | ticketFetch (host : Option (List Byte))
  /-- TICKET_NOP (R781). -/
  | ticketNop (n : Nat)
  /-- TICKET_COPY (R783). -/
  | ticketCopy (n size : Nat) (host : Option (List Byte))
  /-- TICKET_CHAIN (R782). -/
  | ticketChain (n : Nat)
  /-- TICKET_CALL (R788). -/
  | ticketCall (n : Nat)
  /-- TICKET_BAD_KIND (R785). -/
  | ticketBadKind (n : Nat)
  /-- TICKET_COMPLETE (R779). -/
  | ticketComplete (n : Nat)
  /-- CALL_DONE_WRITE (R789). -/
  | callDoneWrite (m : Nat) (v : W32)
  /-- SP_START (R794). -/
  | spStart (m : Nat) (v : W32) (t : Nat)
  /-- SP_STOP (R800). -/
  | spStop (m : Nat) (v : W32)
  -- The Frisket fabric
  /-- FRISKET_EVENT_LINE (R823). -/
  | frisketEventLine (i : Nat) (t : Nat)
  /-- FRISKET_FADE_REQUEST (R824). -/
  | frisketFadeRequest (t : Nat)
  /-- FRISKET_RESET1 (R820). -/
  | frisketReset1 (m : Nat)
  /-- FRISKET_CONFIG_SCRUB (R832). -/
  | frisketConfigScrub (n : Nat) (uncorrectable : Bool) (t : Nat)
  /-- FRISKET_WAKE_RELEASE (R834). -/
  | frisketWakeRelease
  /-- GPIO_INPUT_CHANGE (R821). -/
  | gpioInputChange (n : Nat) (level : Bool) (t : Nat)
  -- Power and clocks
  /-- POWER_RUN_REQUEST (R854). -/
  | powerRunRequest (m t : Nat)
  /-- POWER_NAP_REQUEST (R849). -/
  | powerNapRequest (m : Nat) (wake : Option Nat) (t : Nat)
  /-- POWER_HOLD_REQUEST (R849). -/
  | powerHoldRequest (m : Nat) (wake : Option Nat) (t : Nat)
  /-- POWER_ENTRY_STEP (R850). -/
  | powerEntryStep (d t : Nat)
  /-- DOMAIN_WAKE_COMPLETE (R843). -/
  | domainWakeComplete (d t : Nat)
  /-- IDLE_ENTRY (R847). -/
  | idleEntry (d quiet : Nat)
  /-- HOLD_ALL (R859). -/
  | holdAll (m : Nat) (v : W32) (t : Nat)
  /-- COLO_READY (R860). -/
  | coloReady (m : Nat) (v : W32) (t : Nat)
  /-- COLO_READY_TIMEOUT (R860). -/
  | coloReadyTimeout (t : Nat)
  /-- HOLD_L1_TIMEOUT (R861). -/
  | holdL1Timeout (t : Nat)
  /-- WAKE_ALL (R854). -/
  | wakeAll (m : Nat) (v : W32) (t : Nat)
  /-- POWER_ALARM_FIRE (R854). -/
  | powerAlarmFire (t : Nat)
  /-- SIGNAL_DETECT (R858). -/
  | signalDetect (p t : Nat)
  /-- PLL_LOCK_LOSS (R840). -/
  | pllLockLoss (k : Nat)
  /-- REF_CLOCK_LOSS (R867). -/
  | refClockLoss (k : Nat)
  -- Further events
  /-- THERMAL_RESET_RELEASE (R907). -/
  | thermalResetRelease (mode : Nat) (b : BootSlots)
  /-- HOST_LINK_L1_EXIT (R854). -/
  | hostLinkL1Exit (t : Nat)
  /-- COLOPHON_CROSS_CHECK (R702). -/
  | colophonCrossCheck
  /-- FLAG_COPY_MISMATCH (R216). -/
  | flagCopyMismatch (row p q r : Nat)
  /-- EVT_STACK_UPSET (R643). -/
  | evtStackUpset (proc : Nat)
  /-- REFERENCE_CLOCK_RETURN (R866). -/
  | referenceClockReturn (k : Nat)
  /-- UART_RECEIVE (R734). -/
  | uartReceive (data : List Byte)
  /-- JTAG_TAP_INSTRUCTION (R728). -/
  | jtagTapInstruction (code : Nat) (mandatory : Bool)
  /-- HOST_CONFIG_REQUEST (R911). -/
  | hostConfigRequest
  /-- FLR_COMPLETE (R772). -/
  | flrComplete
deriving DecidableEq, Repr

end Sys2Proof
end

