-- ==== Sys2Proof/Decode.lean ====
section
/-!
DEFINITION. Words and commands. spec/opcode_table.json gives no row any bits: its commands are operations and events, not
encoded words, so no word spells one.
-/
namespace Sys2Proof

/-- The command that a word spells by the table's bits: the table gives none of its rows bits. -/
def decodeTableWord (_nbits _w : Nat) : Option Instr := none

end Sys2Proof
end

