-- ==== Sys2Proof/Config.lean ====
section
/-!
DEFINITION. What the specification leaves open or leaves to an implementation: free values. None has a body: no
proof can see what one is, so a statement that holds of the model holds whatever they are (R10; notes/assumptions).
-/
namespace Sys2Proof

/-- Where a signal of the Frisket fabric comes from: the output of a cell, a wire past its first j register places, GPIO input
n, Platen tap k or trigger tap j (R812, R815, and the boundary of chapter 16). -/
inductive FabSrc where
  | cell (n : Nat) | wire (w j : Nat) | gpio (n : Nat) | tap (k : Nat) | trig (j : Nat)
deriving DecidableEq, Repr, Inhabited

/-- A signal that leaves the fabric: the value or the output enable of pin n, event line i, the fade request. -/
inductive FabPort where
  | value (n : Nat) | enable (n : Nat) | line (i : Nat) | fade
deriving DecidableEq, Repr, Inhabited

/-- What the configuration bits of a cell say (R812, R814): the 64 bits of its lookup table, the tree of its flip-flop, its
reset (0 none, 1 GR0, 2 GR1) with the reset value, and whether the flip-flop is the cell's output. -/
structure CellCfg where
  lut : Nat
  tree : Nat
  reset : Nat
  resetValue : Bool
  registered : Bool
deriving DecidableEq, Repr, Inhabited

namespace Config

/-- A byte the specification calls undefined, by the number of the free value taken (R10, R509, R783). -/
opaque freeByte : Nat → Byte

/-- A 32-bit value the specification leaves open, by the number of the free value taken. -/
opaque freeWord : Nat → W32

/-- The 384-bit identity seed programmed at manufacture, 48 bytes (R726): no master reads it. -/
opaque identitySeed : List Byte

/-- DEVICE_SERIAL, programmed at manufacture (R726). -/
opaque deviceSerial : Nat

/-- The DER-encoded identity certificate that Adkigan puts in flash at manufacture (R729, R731). -/
opaque identityCert : List Byte

/-- The firmware image that a slot (0 A, 1 B) of the boot flash holds as shipped (R731). -/
opaque factoryImage : Nat → List Byte

/-- The SHA-384 hash of Adkigan public key index k, 0 to 7, which the boot ROM holds (R730). -/
opaque adkKeyHash : Nat → List Byte

/-- A 384-bit number the device draws for an ephemeral key or a signature, by the number of the free value (R114, R722). -/
opaque freeScalar : Nat → BitVec 384

/-- The secure association key the key server draws (R120), by its number. -/
opaque freshSak : Nat → List Byte

/-- The first microaddress of the ROM routine of an opcode, which the device shows and the specification does not list
(R369). -/
opaque romEntry : Nat → W32

/-- Whether the ROM routine of an opcode fetches a ROM microaddress: the placement of ROM microwords is not published (R369). -/
opaque romFetches : (op uaddr : Nat) → Bool

/-- The ROM microaddress at which the routine of an opcode stands when it is looked at, by the number of the look: the placement
of ROM microwords is not published (R369). -/
opaque romUaddr : (op look : Nat) → W32

/-- A byte of the boot ROM image that a mailbox or a proof reads, or of the control store's foundry ROM, by its address:
which bytes, the specification does not list (R54). -/
opaque romByte : Nat → Byte

/-- The nominal voltage in mV of the rail a voltage sensor watches, by sensor number less 32 (R723): the specification does
not tie a sensor to a rail. -/
opaque railNominal : Nat → Nat

/-- The bytes of the service map that lists these units (class, instance, STICKY): its layout is not stated (R733). -/
opaque serviceMap : List (Nat × Nat × Bool) → List Byte

/-- What the 160 bytes of a cell record say of its cell: the bit assignment is the Frisket data file's (R826). -/
opaque cellCfg : List Byte → CellCfg

/-- What drives an input of a cell under these cell records: inputs 0 to 5, and 6 the flip-flop's enable; none where no wire
drives it. The wiring is the Frisket data file's (R826). -/
opaque cellInput : (cells : List Byte) → (cell input : Nat) → Option FabSrc

/-- What drives a wire under these cell records (R815). -/
opaque wireDriver : (cells : List Byte) → (wire : Nat) → Option FabSrc

/-- Whether the configuration uses the register at place j of a wire, every 8 cells along it (R815). -/
opaque wireUsed : (cells : List Byte) → (wire j : Nat) → Bool

/-- How many wires the fabric has: the specification does not say. -/
opaque wireCount : Nat

/-- The tree of a used register of a wire that no cell drives, which R815 does not give. -/
opaque wireTree : (cells : List Byte) → (wire : Nat) → Nat

/-- The cell port that drives a signal out of the fabric: the port assignments are the Frisket data file's. -/
opaque fabPort : (cells : List Byte) → FabPort → Option FabSrc

/-- Whether a path that ends at a flip-flop (its cell) or a wire register (16,384 + 16 × wire + place) breaks the limit of R816
under these cell records and tree sources: the places of the wires are the Frisket data file's. -/
opaque pathBroken : (cells : List Byte) → (trees node : Nat) → Bool

/-- The value of a flip-flop, a wire register or a loop of lookup tables that the specification leaves undefined (R817, R834),
by the edge it is taken at and its node. -/
opaque fabricBit : (edge node : Nat) → Bool

end Config
end Sys2Proof
end

