-- ==== Sys2Proof/Machine/Bytes.lean ====
section
/-!
DEFINITION. Byte order (R18: little-endian), sign extension and bit-field helpers on numbers and words.
-/
namespace Sys2Proof.Machine

/-- The n low bytes of a number, least significant first (R18). -/
def bytesLE : Nat → Nat → List Byte
  | 0, _ => []
  | n + 1, v => BitVec.ofNat 8 v :: bytesLE n (v / 256)

/-- The number a little-endian byte string stands for (R18). -/
def ofLE : List Byte → Nat
  | [] => 0
  | b :: bs => b.toNat + 256 * ofLE bs

/-- The number a big-endian byte string stands for (R19, published standards). -/
def ofBE (bs : List Byte) : Nat := ofLE bs.reverse

/-- The n low bytes of a number, most significant first. -/
def bytesBE (n v : Nat) : List Byte := (bytesLE n v).reverse

/-- `n` bytes of a byte string from offset `off`, zero past its end. -/
def slice (bs : List Byte) (off n : Nat) : List Byte :=
  let part := (bs.drop off).take n
  part ++ List.replicate (n - part.length) 0

/-- A little-endian field of a byte string. -/
def fieldLE (bs : List Byte) (off n : Nat) : Nat := ofLE (slice bs off n)

/-- Bits [hi:lo] of a number (R16, R17). -/
def bits (v hi lo : Nat) : Nat := v / 2 ^ lo % 2 ^ (hi - lo + 1)

/-- Bit k of a number. -/
def bit (v k : Nat) : Bool := v / 2 ^ k % 2 == 1

/-- A number with bits [hi:lo] replaced by the low bits of x. -/
def setBits (v hi lo x : Nat) : Nat :=
  v - bits v hi lo * 2 ^ lo + (x % 2 ^ (hi - lo + 1)) * 2 ^ lo

/-- A number with bit k set to b. -/
def setBit (v k : Nat) (b : Bool) : Nat := setBits v k k (if b then 1 else 0)

/-- The number of a Bool. -/
def b2n (b : Bool) : Nat := if b then 1 else 0

/-- The two's complement value of the low n bits of v. -/
def signed (n v : Nat) : Int :=
  let u := v % 2 ^ n
  if 2 ^ (n - 1) ≤ u then (u : Int) - (2 ^ n : Nat) else u

/-- The low n bits of an integer. -/
def wrap (n : Nat) (x : Int) : Nat := (x % (2 ^ n : Nat)).toNat

/-- How many of the low n bits of v are 1. -/
def popBits : Nat → Nat → Nat
  | 0, _ => 0
  | n + 1, v => v % 2 + popBits n (v / 2)

/-- The numbers k < n whose bit of v is 1, rising. -/
def bitList (n v : Nat) : List Nat := (List.range n).filter (bit v ·)

/-- The number whose set bits are those k < n that p holds of. -/
def maskOf : Nat → (Nat → Bool) → Nat
  | 0, _ => 0
  | n + 1, p => maskOf n p + (if p n then 2 ^ n else 0)

/-- The ceiling of a quotient. -/
def ceilDiv (a b : Nat) : Nat := (a + b - 1) / b

/-- CRC-32 with the IEEE 802.3 polynomial (reflected 0xEDB88320, initial and final complement; R160, R675). -/
def crcBit (c : BitVec 32) : BitVec 32 := if c.getLsbD 0 then (c >>> 1) ^^^ 0xEDB88320#32 else c >>> 1

/-- One byte into the CRC register. -/
def crcByte (c : BitVec 32) (b : Byte) : BitVec 32 :=
  let c := c ^^^ b.zeroExtend 32
  crcBit (crcBit (crcBit (crcBit (crcBit (crcBit (crcBit (crcBit c)))))))

/-- CRC-32 of a byte string. -/
def crc32 (bs : List Byte) : Nat := (~~~ (bs.foldl crcByte 0xFFFFFFFF#32)).toNat

/-- One bit into the CRC-16 of a network link, polynomial x^16 + x^12 + x^5 + 1 (R577). -/
def crc16Bit (c : Nat) (b : Bool) : Nat :=
  if (bit c 15) != b then ((2 * c) % 65536) ^^^ 0x1021 else (2 * c) % 65536

/-- The CRC-16 of the low n bits of a number, bit 0 first, from 0xFFFF (R577). -/
def crc16 (n v : Nat) : Nat := (List.range n).foldl (fun c k => crc16Bit c (bit v k)) 0xFFFF

/-- The ASCII bytes of a string. -/
def ascii (s : String) : List Byte := s.toList.map fun c => BitVec.ofNat 8 c.toNat

end Sys2Proof.Machine
end

