-- ==== Sys2Proof/Machine/Frames.lean ====
section
/-!
DEFINITION. Ethernet frames as bytes: the header, VLAN tags, SecTAG and EtherType in the order of their standards (R19, R20,
R79), LLDP TLVs, the Sheet header and the Sheet hello body, little-endian (R18, R95, R137).
-/
namespace Sys2Proof

open Machine (bytesLE bytesBE ofLE ofBE slice fieldLE)

/-! ## Reading a frame -/

/-- The EtherType of a SecTAG, and the VLAN TPIDs (R79, R144). -/
def Machine.etSecTag : Nat := 0x88E5
def Machine.vlanTpids : List Nat := [0x8100, 0x88A8]

/-- A 16-bit field of a published standard at an offset: most significant byte first (R19, R20). -/
def beAt (b : List Byte) (o : Nat) : Nat := ofBE (slice b o 2)

/-- At most n VLAN tags from an offset on. -/
def tagsAt (b : List Byte) : Nat → Nat → List Tag
  | 0, _ => []
  | n + 1, o =>
    if beAt b o ∈ Machine.vlanTpids then { tpid := beAt b o, tci := beAt b (o + 2) } :: tagsAt b n (o + 4) else []

/-- The destination address, first octet in the low bits as FEED_MAC_LO orders it (R86). -/
def EthFrame.dst (f : EthFrame) : Nat := fieldLE f.bytes 0 6

/-- The source address, in the same order. -/
def EthFrame.src (f : EthFrame) : Nat := fieldLE f.bytes 6 6

/-- The VLAN tags in the clear, the third of a nesting too deep among them (R79, R82). -/
def EthFrame.tags (f : EthFrame) : List Tag := tagsAt f.bytes 3 12

/-- Where the EtherType after the tags in the clear stands. -/
def EthFrame.afterTags (f : EthFrame) : Nat := 12 + 4 * f.tags.length

/-- What MACsec finds where a SecTAG follows at most two tags; none where no SecTAG stands there (R82). -/
def EthFrame.sec (f : EthFrame) : Option SecTag :=
  if f.tags.length ≤ 2 ∧ beAt f.bytes f.afterTags = Machine.etSecTag then some f.found else none

/-- Where the EtherType after the tags and the 16 bytes of any SecTAG stands (R79). -/
def EthFrame.typeAt (f : EthFrame) : Nat := f.afterTags + (if f.sec.isSome then 16 else 0)

/-- The EtherType after the tags and any SecTAG. -/
def EthFrame.etherType (f : EthFrame) : Nat := beAt f.bytes f.typeAt

/-- The bytes between that EtherType and the ICV or FCS. -/
def EthFrame.body (f : EthFrame) : List Byte := f.bytes.drop (f.typeAt + 2)

namespace Machine

/-! ## Writing a frame -/

/-- A VLAN tag: TPID, then TCI. -/
def tagBytes (x : Tag) : List Byte := bytesBE 2 x.tpid ++ bytesBE 2 x.tci

/-- The 16 bytes of a SecTAG with SCI (R79; IEEE 802.1AE, notes/assumptions/50.md): its EtherType, TCI (SC, E and C set) with
AN, the short length (0 from 48 bytes on), the low 32 bits of the packet number, and the SCI, which is a port's MAC address
and port identifier 1. -/
def secTagBytes (an pn mac len : Nat) : List Byte :=
  bytesBE 2 etSecTag ++ bytesLE 1 (0x2C + an % 4) ++ bytesLE 1 (if len < 48 then len else 0) ++ bytesBE 4 pn ++ bytesLE 6 mac ++
  bytesBE 2 1

/-- A frame from its destination address to the byte before the ICV or FCS: addresses with the first octet first, the tags,
any SecTAG, the EtherType most significant byte first, and the body (R19, R20). A protected part stands in the clear: what
MACsec makes of it the model does not form. -/
def ethBytes (dst src : Nat) (tags : List Tag) (sec : List Byte) (et : Nat) (body : List Byte) : List Byte :=
  bytesLE 6 dst ++ bytesLE 6 src ++ tags.flatMap tagBytes ++ sec ++ bytesBE 2 et ++ body

/-! ## LLDP (IEEE 802.1AB, R19, R90 to R92) -/

/-- A TLV of an LLDP frame: type in 7 bits, length in 9, most significant byte first. -/
def lldpTlv (t : Nat) (info : List Byte) : List Byte := bytesBE 2 (t * 512 + info.length) ++ info

/-- An organisation-specific TLV under Adkigan's identifier (R90). -/
def lldpOrg (subtype : Nat) (info : List Byte) : List Byte :=
  lldpTlv 127 (bytesBE 3 0x6AD416 ++ [BitVec.ofNat 8 subtype] ++ info)

/-- The organisation-specific TLVs of an LLDP PDU, up to the End of LLDPDU TLV, at most n TLVs in all. -/
def lldpTlvs : Nat → List Byte → List LldpTlv
  | 0, _ => []
  | n + 1, b =>
    if b.length < 2 ∨ beAt b 0 / 512 = 0 then []
    else
      let info := (b.drop 2).take (beAt b 0 % 512)
      let rest := lldpTlvs n (b.drop (2 + beAt b 0 % 512))
      if beAt b 0 / 512 = 127 ∧ 4 ≤ info.length then
        { oui := ofBE (info.take 3), subtype := fieldLE info 3 1, info := info.drop 4 } :: rest
      else rest

/-! ## The Sheet header (R137) -/

/-- The fields of a Sheet header. -/
structure SheetHdr where
  version : Nat
  kind : Nat
  flags : Nat
  handle : Nat
  stream : Nat
  format : Nat
  seq : Nat
  first : Nat
  samples : Nat
  channels : Nat
  len : Nat
  chOff : Nat
  ts : Nat
deriving DecidableEq, Repr

/-- The header read from the bytes after the Sheet EtherType. -/
def sheetHdrOf (b : List Byte) : SheetHdr :=
  { version := fieldLE b 0 1 / 16, kind := fieldLE b 0 1 % 16, flags := fieldLE b 1 1, handle := fieldLE b 2 2,
    stream := fieldLE b 4 1, format := fieldLE b 5 1, seq := fieldLE b 6 2, first := fieldLE b 8 8,
    samples := fieldLE b 16 2, channels := fieldLE b 18 2, len := fieldLE b 20 2, chOff := fieldLE b 22 2,
    ts := fieldLE b 24 8 }

/-- The 32 bytes of a header. -/
def sheetHdrBytes (h : SheetHdr) : List Byte :=
  bytesLE 1 (h.version * 16 + h.kind) ++ bytesLE 1 h.flags ++ bytesLE 2 h.handle ++ bytesLE 1 h.stream ++
  bytesLE 1 h.format ++ bytesLE 2 h.seq ++ bytesLE 8 h.first ++ bytesLE 2 h.samples ++ bytesLE 2 h.channels ++
  bytesLE 2 h.len ++ bytesLE 2 h.chOff ++ bytesLE 8 h.ts

/-! ## The Sheet hello body (R95), which follows the 32 bytes of the header -/

/-- A stream entry read from its 16 bytes. -/
def streamEntryOf (b : List Byte) : StreamEntry :=
  { id := fieldLE b 0 1, dir := fieldLE b 1 1, format := fieldLE b 2 1, first := fieldLE b 4 2, channels := fieldLE b 6 2,
    rate := fieldLE b 8 4 }

/-- The 16 bytes of a stream entry. -/
def streamEntryBytes (e : StreamEntry) : List Byte :=
  bytesLE 1 e.id ++ bytesLE 1 e.dir ++ bytesLE 1 e.format ++ [0#8] ++ bytesLE 2 e.first ++ bytesLE 2 e.channels ++
  bytesLE 4 e.rate ++ List.replicate 4 0#8

/-- The hello read from the bytes after the Sheet EtherType. Stream entries stand in an offer alone, and in a pair request or
reply a public key of 97 bytes stands in their place (R114). -/
def helloOf (b : List Byte) : Hello :=
  let step := fieldLE b 32 1
  { step := step, reason := fieldLE b 33 1, handle := fieldLE b 34 2, serial := fieldLE b 36 8, caps := fieldLE b 44 4,
    streams := fieldLE b 48 1
    entries := if step = 1 then (List.range (fieldLE b 48 1)).map fun k => streamEntryOf (slice b (64 + 16 * k) 16) else []
    bodyLen := b.length - 32
    key := if step = 7 ∨ step = 8 then slice b 64 97 else [] }

/-- The body of a hello. -/
def helloBytes (h : Hello) : List Byte :=
  bytesLE 1 h.step ++ bytesLE 1 h.reason ++ bytesLE 2 h.handle ++ bytesLE 8 h.serial ++ bytesLE 4 h.caps ++ bytesLE 1 h.streams ++
  List.replicate 15 0#8 ++ h.entries.flatMap streamEntryBytes ++ h.key

/-- The header of a hello that the device sends: VERSION 1, KIND 3, no flag, its HANDLE and PAYLOAD_LEN. The bytes of the
fields to which R137 gives a meaning in the other kinds alone are free values, from number n on. -/
def helloHeader (n handle len : Nat) : List Byte :=
  bytesLE 1 0x13 ++ bytesLE 1 0 ++ bytesLE 2 handle ++ (List.range 16).map (fun k => Config.freeByte (n + k)) ++ bytesLE 2 len ++
  (List.range 10).map (fun k => Config.freeByte (n + 16 + k))

/-- The capabilities of CAPS (R95): which PTP mechanisms a feeder has, whether it is drive capable, and which multicast
kinds it accepts. -/
structure Caps where
  endToEnd : Bool
  peerDelay : Bool
  oneStep : Bool
  drive : Bool
  time : Bool
  fade : Bool
deriving DecidableEq, Repr

/-- The meaning of a CAPS word. -/
def capsOf (v : Nat) : Caps :=
  { endToEnd := bit v 0, peerDelay := bit v 1, oneStep := bit v 2, drive := bit v 3, time := bit v 4, fade := bit v 5 }

end Machine
end Sys2Proof
end

