-- ==== Sys2Proof/Machine/Maps.lean ====
section
/-!
DEFINITION. Sparse tables: a list of (key, value) pairs, keys strictly rising, no entry equal to what an unlisted
key reads as. Registers, memory bytes, feeder entries, slots and queues of the device are held in this one form.
-/
namespace Sys2Proof.Machine

/-- A sparse table over Nat keys. -/
abbrev SMap (α : Type) := List (Nat × α)

namespace SMap
variable {α : Type}

/-- What a key reads as: its entry, or `d` where it has none. -/
def get (d : α) : SMap α → Nat → α
  | [], _ => d
  | (k, v) :: m, x => if x = k then v else get d m x

/-- The table without a key. -/
def erase (m : SMap α) (x : Nat) : SMap α := m.filter fun e => e.1 != x

/-- An entry put in its place among rising keys. -/
def ins : SMap α → Nat → α → SMap α
  | [], x, w => [(x, w)]
  | (k, v) :: m, x, w => if x < k then (x, w) :: (k, v) :: m else (k, v) :: ins m x w

/-- The table with one key set; a value equal to the default leaves no entry. -/
def set [DecidableEq α] (d : α) (m : SMap α) (x : Nat) (w : α) : SMap α :=
  if w = d then erase m x else ins (erase m x) x w

/-- The canonical form: keys strictly rising, no default entry (the default may depend on the key). -/
def wf [DecidableEq α] (d : Nat → α) : SMap α → Bool
  | [] => true
  | [(k, v)] => decide (v ≠ d k)
  | (k, v) :: (k', v') :: m => decide (v ≠ d k) && decide (k < k') && wf d ((k', v') :: m)

/-- Every listed value passed through a function; entries that become the default are dropped. -/
def mapVals [DecidableEq α] (d : α) (f : Nat → α → α) : SMap α → SMap α
  | [] => []
  | (k, v) :: m => if f k v = d then mapVals d f m else (k, f k v) :: mapVals d f m

/-- The listed keys. -/
def keys (m : SMap α) : List Nat := m.map (·.1)

/-- The keys that either of two tables lists, rising. -/
def keysOf (a b : SMap α) : List Nat :=
  keys (b.foldl (fun (m : SMap Unit) x => ins (erase m x.1) x.1 ()) (a.map fun x => (x.1, ())))

end SMap

/-- The first number below n that p holds of. -/
def firstBelow (n : Nat) (p : Nat → Bool) : Option Nat := (List.range n).find? p

/-- Bytes by address as runs of consecutive addresses. -/
def runsOf : SMap (Option Byte) → List (Nat × List Byte)
  | [] => []
  | (a, v) :: m => match runsOf m with
    | (b, bs) :: rest => if b = a + 1 then (a, v.getD 0 :: bs) :: rest else (a, [v.getD 0]) :: (b, bs) :: rest
    | [] => [(a, [v.getD 0])]

end Sys2Proof.Machine
end

