-- ==== Sys2Proof/Machine/RegTable.lean ====
section
/-!
DEFINITION. The register map: every field of every register page, with its offset, bits, access code and
reset value, as the register tables of spec/02 to spec/18 give them (R27, R876, R888 and the chapters' tables).
A field with a count and a stride stands for an array of registers of one layout.
-/
namespace Sys2Proof.Machine

/-- The access codes of R27. -/
inductive Access where
  | rw | ro | wo | rc | rwl
deriving DecidableEq, Repr

/-- One field of a register: byte offset in its page, bits [hi:lo], access, reset value; `cnt` registers of this
layout stand `stride` bytes apart when `cnt` is above 1. -/
structure Fld where
  off : Nat
  hi : Nat
  lo : Nat
  acc : Access
  rst : Nat
  cnt : Nat := 1
  stride : Nat := 0
deriving DecidableEq, Repr

/-- The field of the n-th register of an array. -/
def Fld.at (f : Fld) (n : Nat) : Fld := { f with off := f.off + n * f.stride }

/-- How many bits a field has. -/
def Fld.width (f : Fld) : Nat := f.hi - f.lo + 1

/-! ## The common header (R876 to R880) -/

def PAGE_ID_TYPE : Fld := ⟨0x000, 31, 16, .ro, 0, 1, 0⟩
def PAGE_ID_INSTANCE : Fld := ⟨0x000, 15, 8, .ro, 0, 1, 0⟩
def PAGE_ID_VERSION : Fld := ⟨0x000, 7, 0, .ro, 0xB0, 1, 0⟩
def PAGE_CAPS_SOFT_RESET : Fld := ⟨0x004, 9, 9, .ro, 0, 1, 0⟩
def PAGE_CAPS_LOCKABLE : Fld := ⟨0x004, 8, 8, .ro, 0, 1, 0⟩
def PAGE_CAPS_EVENT_BITS : Fld := ⟨0x004, 5, 0, .ro, 0, 1, 0⟩
def PAGE_CTRL_SOFT_RESET : Fld := ⟨0x008, 2, 2, .wo, 0, 1, 0⟩
def PAGE_CTRL_QUOIN : Fld := ⟨0x008, 1, 1, .rw, 0, 1, 0⟩
def PAGE_CTRL_ENABLE : Fld := ⟨0x008, 0, 0, .rw, 1, 1, 0⟩
def PAGE_STATUS_RESETTING : Fld := ⟨0x00C, 2, 2, .ro, 0, 1, 0⟩
def PAGE_STATUS_QUOINED : Fld := ⟨0x00C, 1, 1, .ro, 0, 1, 0⟩
def PAGE_STATUS_IN_SERVICE : Fld := ⟨0x00C, 0, 0, .ro, 0, 1, 0⟩
def EVT_PEND : Fld := ⟨0x010, 31, 0, .rw, 0, 1, 0⟩
def EVT_ENABLE : Fld := ⟨0x014, 31, 0, .rw, 0, 1, 0⟩
def FAULT_SUMMARY_COUNT : Fld := ⟨0x018, 31, 16, .rc, 0, 1, 0⟩
def FAULT_SUMMARY_LAST_KIND : Fld := ⟨0x018, 5, 0, .ro, 0, 1, 0⟩
def IGNORED_CAUSE_COUNT : Fld := ⟨0x01C, 31, 24, .rc, 0, 1, 0⟩
def IGNORED_CAUSE_REASON : Fld := ⟨0x01C, 23, 16, .ro, 0, 1, 0⟩
def IGNORED_CAUSE_OFFSET : Fld := ⟨0x01C, 15, 0, .ro, 0, 1, 0⟩
def PROBE_SEL_OVF : Fld := ⟨0x020, 31, 31, .ro, 0, 1, 0⟩
def PROBE_SEL_CLEAR : Fld := ⟨0x020, 30, 30, .wo, 0, 1, 0⟩
def PROBE_SEL_EVENT : Fld := ⟨0x020, 2, 0, .rw, 0, 1, 0⟩
def PROBE_FILTER_MASTER_EN : Fld := ⟨0x024, 5, 5, .rw, 0, 1, 0⟩
def PROBE_FILTER_MASTER : Fld := ⟨0x024, 4, 0, .rw, 0, 1, 0⟩
def PROBE_CNT_LO : Fld := ⟨0x028, 31, 0, .ro, 0, 1, 0⟩
def PROBE_CNT_HI : Fld := ⟨0x02C, 15, 0, .ro, 0, 1, 0⟩

/-- The header fields every assigned page shares. -/
def headerFields : List Fld :=
  [PAGE_CTRL_SOFT_RESET, PAGE_CTRL_QUOIN, PAGE_CTRL_ENABLE, PAGE_STATUS_RESETTING, PAGE_STATUS_QUOINED,
   PAGE_STATUS_IN_SERVICE, EVT_PEND, EVT_ENABLE, FAULT_SUMMARY_COUNT, FAULT_SUMMARY_LAST_KIND,
   IGNORED_CAUSE_COUNT, IGNORED_CAUSE_REASON, IGNORED_CAUSE_OFFSET]

/-- The probe registers of a page that is not a ROUTER page (R880). -/
def probeFields : List Fld :=
  [PROBE_SEL_OVF, PROBE_SEL_CLEAR, PROBE_SEL_EVENT, PROBE_FILTER_MASTER_EN, PROBE_FILTER_MASTER,
   PROBE_CNT_LO, PROBE_CNT_HI]

/-! ## Block registers -/

def DEVICE_SERVICE_LEVEL : Fld := ⟨0x040, 27, 24, .ro, 0, 1, 0⟩
def DEVICE_SERVICE_GENERATION : Fld := ⟨0x040, 23, 16, .ro, 0, 1, 0⟩
def DEVICE_SERVICE_NO_DRIVE_PATH : Fld := ⟨0x040, 6, 6, .ro, 0, 1, 0⟩
def DEVICE_SERVICE_NO_GALLEY_ROW : Fld := ⟨0x040, 5, 5, .ro, 0, 1, 0⟩
def DEVICE_SERVICE_NO_REEL : Fld := ⟨0x040, 4, 4, .ro, 0, 1, 0⟩
def DEVICE_SERVICE_NO_STONE_OWNER : Fld := ⟨0x040, 3, 3, .ro, 0, 1, 0⟩
def DEVICE_SERVICE_NO_FEED_PATH : Fld := ⟨0x040, 2, 2, .ro, 0, 1, 0⟩
def DEVICE_SERVICE_NO_PAIR : Fld := ⟨0x040, 1, 1, .ro, 0, 1, 0⟩
def DEVICE_SERVICE_NO_CONSOLE : Fld := ⟨0x040, 0, 0, .ro, 0, 1, 0⟩
def DEVICE_UNITS_GALLEY_ROWS : Fld := ⟨0x044, 31, 27, .ro, 0, 1, 0⟩
def DEVICE_UNITS_REEL_STACKS : Fld := ⟨0x044, 26, 24, .ro, 0, 1, 0⟩
def DEVICE_UNITS_FEED_PORTS : Fld := ⟨0x044, 23, 19, .ro, 0, 1, 0⟩
def DEVICE_UNITS_WEBS : Fld := ⟨0x044, 18, 15, .ro, 0, 1, 0⟩
def DEVICE_UNITS_COMP_CORES : Fld := ⟨0x044, 14, 13, .ro, 0, 1, 0⟩
def DEVICE_UNITS_STONE_BANKS : Fld := ⟨0x044, 12, 7, .ro, 0, 1, 0⟩
def DEVICE_UNITS_ROUTERS : Fld := ⟨0x044, 6, 0, .ro, 0, 1, 0⟩
def DEVICE_CAPACITY_SLOTS_K : Fld := ⟨0x048, 31, 24, .ro, 0, 1, 0⟩
def DEVICE_CAPACITY_RESERVABLE_GBS : Fld := ⟨0x048, 23, 12, .ro, 0, 1, 0⟩
def DEVICE_CAPACITY_RATE_MSAS : Fld := ⟨0x048, 11, 0, .ro, 0, 1, 0⟩

def COLOPHON_STATUS_FW_VERSION : Fld := ⟨0x040, 31, 16, .ro, 0, 1, 0⟩
def COLOPHON_STATUS_BOOT_MODE : Fld := ⟨0x040, 5, 4, .ro, 0, 1, 0⟩
def COLOPHON_STATUS_RECOVERY : Fld := ⟨0x040, 3, 3, .ro, 0, 1, 0⟩
def COLOPHON_STATUS_TRIAL : Fld := ⟨0x040, 2, 2, .ro, 0, 1, 0⟩
def COLOPHON_STATUS_SLOT : Fld := ⟨0x040, 1, 1, .ro, 0, 1, 0⟩
def COLOPHON_STATUS_READY : Fld := ⟨0x040, 0, 0, .ro, 0, 1, 0⟩
def COLOPHON_PAIR_CONFIRM_PORT : Fld := ⟨0x044, 27, 24, .wo, 0, 1, 0⟩
def COLOPHON_PAIR_CONFIRM_CODE : Fld := ⟨0x044, 19, 0, .wo, 0, 1, 0⟩
def COLOPHON_SENSOR_INDEX_INDEX : Fld := ⟨0x048, 6, 0, .rw, 0, 1, 0⟩
def COLOPHON_SENSOR_VALUE : Fld := ⟨0x04C, 31, 0, .ro, 0, 1, 0⟩
def COLOPHON_SENSOR_LOWER : Fld := ⟨0x050, 31, 0, .rwl, 0, 1, 0⟩
def COLOPHON_SENSOR_UPPER : Fld := ⟨0x054, 31, 0, .rwl, 0, 1, 0⟩
def COLOPHON_JOURNAL_SEQ_LO : Fld := ⟨0x058, 31, 0, .ro, 0, 1, 0⟩
def COLOPHON_JOURNAL_SEQ_HI : Fld := ⟨0x05C, 31, 0, .ro, 0, 1, 0⟩
def COLOPHON_JOURNAL_DROPS : Fld := ⟨0x060, 31, 0, .rc, 0, 1, 0⟩
def COLOPHON_MB_BUSY_RINGS : Fld := ⟨0x064, 31, 0, .rc, 0, 1, 0⟩

def CRYPTO_STATUS_OWNER_SLOT : Fld := ⟨0x040, 7, 4, .ro, 15, 1, 0⟩
def CRYPTO_STATUS_DEBUG_LOCKED : Fld := ⟨0x040, 3, 3, .ro, 0, 1, 0⟩
def CRYPTO_STATUS_DRBG_FAULT : Fld := ⟨0x040, 2, 2, .ro, 0, 1, 0⟩
def CRYPTO_STATUS_OWNED : Fld := ⟨0x040, 1, 1, .ro, 0, 1, 0⟩
def CRYPTO_STATUS_IDENTITY_READY : Fld := ⟨0x040, 0, 0, .ro, 0, 1, 0⟩
def CRYPTO_SERIAL_LO : Fld := ⟨0x044, 31, 0, .ro, 0, 1, 0⟩
def CRYPTO_SERIAL_HI : Fld := ⟨0x048, 31, 0, .ro, 0, 1, 0⟩
def CRYPTO_SIG_COUNTER_LO : Fld := ⟨0x04C, 31, 0, .ro, 0, 1, 0⟩
def CRYPTO_SIG_COUNTER_HI : Fld := ⟨0x050, 31, 0, .ro, 0, 1, 0⟩
def CRYPTO_ROLLBACK_OWNER : Fld := ⟨0x054, 31, 24, .ro, 0, 1, 0⟩
def CRYPTO_ROLLBACK_FRISKET : Fld := ⟨0x054, 23, 16, .ro, 0, 1, 0⟩
def CRYPTO_ROLLBACK_PATCH : Fld := ⟨0x054, 15, 8, .ro, 0, 1, 0⟩
def CRYPTO_ROLLBACK_FW : Fld := ⟨0x054, 7, 0, .ro, 0, 1, 0⟩

def FEED_CTRL_LLDP_INTERVAL : Fld := ⟨0x040, 15, 8, .rw, 1, 1, 0⟩
def FEED_CTRL_PAIRING : Fld := ⟨0x040, 7, 7, .rw, 0, 1, 0⟩
def FEED_CTRL_PTP_ONE_STEP : Fld := ⟨0x040, 6, 6, .rwl, 0, 1, 0⟩
def FEED_CTRL_PTP_PDELAY : Fld := ⟨0x040, 5, 5, .rwl, 0, 1, 0⟩
def FEED_CTRL_PTP_UNCONTROLLED : Fld := ⟨0x040, 4, 4, .rwl, 0, 1, 0⟩
def FEED_CTRL_RS_FEC : Fld := ⟨0x040, 3, 3, .rwl, 1, 1, 0⟩
def FEED_CTRL_SPEED : Fld := ⟨0x040, 2, 1, .rwl, 0, 1, 0⟩
def FEED_CTRL_ENABLE : Fld := ⟨0x040, 0, 0, .rw, 0, 1, 0⟩
def FEED_STATUS_FEEDERS : Fld := ⟨0x044, 16, 8, .ro, 0, 1, 0⟩
def FEED_STATUS_PAIRING_ACTIVE : Fld := ⟨0x044, 4, 4, .ro, 0, 1, 0⟩
def FEED_STATUS_SECURED : Fld := ⟨0x044, 3, 3, .ro, 0, 1, 0⟩
def FEED_STATUS_FEC_ACTIVE : Fld := ⟨0x044, 2, 2, .ro, 0, 1, 0⟩
def FEED_STATUS_SPEED_ACTIVE : Fld := ⟨0x044, 1, 1, .ro, 0, 1, 0⟩
def FEED_STATUS_LINK : Fld := ⟨0x044, 0, 0, .ro, 0, 1, 0⟩
def FEED_RX_FRAMES_LO : Fld := ⟨0x050, 31, 0, .rc, 0, 1, 0⟩
def FEED_RX_FRAMES_HI : Fld := ⟨0x054, 31, 0, .rc, 0, 1, 0⟩
def FEED_TX_FRAMES_LO : Fld := ⟨0x058, 31, 0, .rc, 0, 1, 0⟩
def FEED_TX_FRAMES_HI : Fld := ⟨0x05C, 31, 0, .rc, 0, 1, 0⟩
def FEED_RX_RUNT : Fld := ⟨0x060, 31, 0, .rc, 0, 1, 0⟩
def FEED_RX_OVERSIZE : Fld := ⟨0x064, 31, 0, .rc, 0, 1, 0⟩
def FEED_RX_FCS_ERR : Fld := ⟨0x068, 31, 0, .rc, 0, 1, 0⟩
def FEED_RX_PAUSE : Fld := ⟨0x06C, 31, 0, .rc, 0, 1, 0⟩
def FEED_RX_OTHER : Fld := ⟨0x070, 31, 0, .rc, 0, 1, 0⟩
def FEED_RX_UNSECURED : Fld := ⟨0x074, 31, 0, .rc, 0, 1, 0⟩
def FEED_MACSEC_BAD_ICV : Fld := ⟨0x078, 31, 0, .rc, 0, 1, 0⟩
def FEED_MACSEC_LATE : Fld := ⟨0x07C, 31, 0, .rc, 0, 1, 0⟩
def FEED_FEC_CORRECTED : Fld := ⟨0x080, 31, 0, .rc, 0, 1, 0⟩
def FEED_FEC_UNCORR : Fld := ⟨0x084, 31, 0, .rc, 0, 1, 0⟩
def FEED_LINK_LOSSES : Fld := ⟨0x088, 31, 0, .rc, 0, 1, 0⟩
def FEED_MAC_LO : Fld := ⟨0x048, 31, 0, .ro, 0, 1, 0⟩
def FEED_MAC_HI : Fld := ⟨0x04C, 15, 0, .ro, 0, 1, 0⟩
def FEED_LLDP_SERIAL_LO : Fld := ⟨0x08C, 31, 0, .ro, 0, 1, 0⟩
def FEED_LLDP_SERIAL_HI : Fld := ⟨0x090, 31, 0, .ro, 0, 1, 0⟩
def FEED_REPLAY_WINDOW : Fld := ⟨0x094, 31, 0, .rwl, 64, 1, 0⟩

def SHEET_FT_CTRL_HOLD_S : Fld := ⟨0x040, 31, 16, .rwl, 60, 1, 0⟩
def SHEET_FT_CTRL_LIVE_MS : Fld := ⟨0x040, 15, 0, .rwl, 3000, 1, 0⟩
def SHEET_FT_INDEX_EVICT : Fld := ⟨0x044, 8, 8, .wo, 0, 1, 0⟩
def SHEET_FT_INDEX_INDEX : Fld := ⟨0x044, 7, 0, .rw, 0, 1, 0⟩
def SHEET_FT_ENTRY_HANDLE : Fld := ⟨0x048, 31, 16, .ro, 0, 1, 0⟩
def SHEET_FT_ENTRY_STREAMS : Fld := ⟨0x048, 15, 9, .ro, 0, 1, 0⟩
def SHEET_FT_ENTRY_PORT : Fld := ⟨0x048, 7, 4, .ro, 0, 1, 0⟩
def SHEET_FT_ENTRY_STATE : Fld := ⟨0x048, 1, 0, .ro, 0, 1, 0⟩
def SHEET_ETHERTYPE_ETHERTYPE : Fld := ⟨0x060, 15, 0, .rwl, 34997, 1, 0⟩
def SHEET_TS_TOL_TOL_NS : Fld := ⟨0x064, 31, 0, .rw, 1000, 1, 0⟩
def SHEET_EXCQ_STATUS_DEPTH : Fld := ⟨0x068, 4, 0, .ro, 0, 1, 0⟩
def SHEET_BAD_VERSION : Fld := ⟨0x070, 31, 0, .rc, 0, 1, 0⟩
def SHEET_BAD_KIND : Fld := ⟨0x074, 31, 0, .rc, 0, 1, 0⟩
def SHEET_BAD_HANDLE : Fld := ⟨0x078, 31, 0, .rc, 0, 1, 0⟩
def SHEET_BAD_STREAM : Fld := ⟨0x07C, 31, 0, .rc, 0, 1, 0⟩
def SHEET_BAD_FORMAT : Fld := ⟨0x080, 31, 0, .rc, 0, 1, 0⟩
def SHEET_BAD_SHAPE : Fld := ⟨0x084, 31, 0, .rc, 0, 1, 0⟩
def SHEET_DEEP_NEST : Fld := ⟨0x088, 31, 0, .rc, 0, 1, 0⟩
def SHEET_EXCQ_DROPS : Fld := ⟨0x08C, 31, 0, .rc, 0, 1, 0⟩
def SHEET_SEQ_GAPS : Fld := ⟨0x090, 31, 0, .rc, 0, 1, 0⟩
def SHEET_SEQ_OLD : Fld := ⟨0x094, 31, 0, .rc, 0, 1, 0⟩
def SHEET_TS_SKEW : Fld := ⟨0x098, 31, 0, .rc, 0, 1, 0⟩
def SHEET_FEEDER_UNLOCKED : Fld := ⟨0x09C, 31, 0, .rc, 0, 1, 0⟩
def SHEET_LATE_SAMPLES_LO : Fld := ⟨0x0A0, 31, 0, .rc, 0, 1, 0⟩
def SHEET_LATE_SAMPLES_HI : Fld := ⟨0x0A4, 31, 0, .rc, 0, 1, 0⟩
def SHEET_EARLY_SAMPLES_LO : Fld := ⟨0x0A8, 31, 0, .rc, 0, 1, 0⟩
def SHEET_EARLY_SAMPLES_HI : Fld := ⟨0x0AC, 31, 0, .rc, 0, 1, 0⟩
def SHEET_UNBOUND_SAMPLES_LO : Fld := ⟨0x0B0, 31, 0, .rc, 0, 1, 0⟩
def SHEET_UNBOUND_SAMPLES_HI : Fld := ⟨0x0B4, 31, 0, .rc, 0, 1, 0⟩
def SHEET_MARKER_CLASH : Fld := ⟨0x0B8, 31, 0, .rc, 0, 1, 0⟩
def SHEET_FT_SERIAL_LO : Fld := ⟨0x04C, 31, 0, .ro, 0, 1, 0⟩
def SHEET_FT_SERIAL_HI : Fld := ⟨0x050, 31, 0, .ro, 0, 1, 0⟩
def SHEET_FT_AGE_MS : Fld := ⟨0x054, 31, 0, .ro, 0, 1, 0⟩
def SHEET_HELLO_BAD : Fld := ⟨0x058, 31, 0, .rc, 0, 1, 0⟩
def SHEET_HELLO_REFUSED : Fld := ⟨0x05C, 31, 0, .rc, 0, 1, 0⟩
def SHEET_PORT_DISCARDS : Fld := ⟨0x0C0, 31, 0, .rc, 0, 16, 4⟩

def IMPOSE_IMAGE_SLOTS_SLOTS : Fld := ⟨0x048, 16, 0, .rw, 0, 1, 0⟩
def IMPOSE_COMMIT_GO : Fld := ⟨0x04C, 0, 0, .wo, 0, 1, 0⟩
def IMPOSE_STATUS_ERROR : Fld := ⟨0x050, 31, 24, .ro, 0, 1, 0⟩
def IMPOSE_STATUS_ERR_SLOT : Fld := ⟨0x050, 23, 8, .ro, 0, 1, 0⟩
def IMPOSE_STATUS_WAITING : Fld := ⟨0x050, 1, 1, .ro, 0, 1, 0⟩
def IMPOSE_STATUS_VALIDATING : Fld := ⟨0x050, 0, 0, .ro, 0, 1, 0⟩
def IMPOSE_GENERATION_GENERATION : Fld := ⟨0x054, 15, 0, .ro, 0, 1, 0⟩
def IMPOSE_SLOT_INDEX_INDEX : Fld := ⟨0x060, 15, 0, .rw, 0, 1, 0⟩
def IMPOSE_SLOT_STATE_OVR : Fld := ⟨0x064, 3, 3, .ro, 0, 1, 0⟩
def IMPOSE_SLOT_STATE_STATE : Fld := ⟨0x064, 2, 0, .ro, 0, 1, 0⟩
def IMPOSE_SLOT_EXPECTED_LO : Fld := ⟨0x068, 31, 0, .ro, 0, 1, 0⟩
def IMPOSE_SLOT_EXPECTED_HI : Fld := ⟨0x06C, 31, 0, .ro, 0, 1, 0⟩
def IMPOSE_SLOT_RECEIVED_LO : Fld := ⟨0x070, 31, 0, .ro, 0, 1, 0⟩
def IMPOSE_SLOT_RECEIVED_HI : Fld := ⟨0x074, 31, 0, .ro, 0, 1, 0⟩
def IMPOSE_SLOT_GAPFILL_LO : Fld := ⟨0x078, 31, 0, .ro, 0, 1, 0⟩
def IMPOSE_SLOT_GAPFILL_HI : Fld := ⟨0x07C, 31, 0, .ro, 0, 1, 0⟩
def IMPOSE_SLOT_NEXT_LO : Fld := ⟨0x080, 31, 0, .ro, 0, 1, 0⟩
def IMPOSE_SLOT_NEXT_HI : Fld := ⟨0x084, 31, 0, .ro, 0, 1, 0⟩
def IMPOSE_IMAGE_LO : Fld := ⟨0x040, 31, 0, .rw, 0, 1, 0⟩
def IMPOSE_IMAGE_HI : Fld := ⟨0x044, 15, 0, .rw, 0, 1, 0⟩
def IMPOSE_APPLIED_BLOCK_LO : Fld := ⟨0x058, 31, 0, .ro, 0, 1, 0⟩
def IMPOSE_APPLIED_BLOCK_HI : Fld := ⟨0x05C, 31, 0, .ro, 0, 1, 0⟩

def DRIVE_CTRL_FADE_CLEAR : Fld := ⟨0x040, 2, 2, .wo, 0, 1, 0⟩
def DRIVE_CTRL_FADE_REQ : Fld := ⟨0x040, 1, 1, .wo, 0, 1, 0⟩
def DRIVE_CTRL_ENABLE : Fld := ⟨0x040, 0, 0, .rw, 0, 1, 0⟩
def DRIVE_FADE_MS_RAMP_MS : Fld := ⟨0x044, 9, 0, .rwl, 100, 1, 0⟩
def DRIVE_FADE_STATUS_CAUSES : Fld := ⟨0x048, 8, 4, .ro, 0, 1, 0⟩
def DRIVE_FADE_STATUS_STATE : Fld := ⟨0x048, 1, 0, .ro, 0, 1, 0⟩
def DRIVE_LEAD_BLOCKS : Fld := ⟨0x04C, 3, 0, .rwl, 3, 1, 0⟩
def DRIVE_GRP_INDEX_INDEX : Fld := ⟨0x080, 5, 0, .rw, 0, 1, 0⟩
def DRIVE_GRP_CFG_PORTS : Fld := ⟨0x08C, 31, 16, .rw, 0, 1, 0⟩
def DRIVE_GRP_CFG_FADE : Fld := ⟨0x08C, 2, 2, .rw, 0, 1, 0⟩
def DRIVE_GRP_CFG_TIME : Fld := ⟨0x08C, 1, 1, .rw, 0, 1, 0⟩
def DRIVE_GRP_CFG_VALID : Fld := ⟨0x08C, 0, 0, .rw, 0, 1, 0⟩
def DRIVE_TIME_EVERY_EVERY : Fld := ⟨0x094, 15, 0, .rw, 1, 1, 0⟩
def DRIVE_UNDELIVERED : Fld := ⟨0x070, 31, 0, .rc, 0, 1, 0⟩
def DRIVE_SATURATED : Fld := ⟨0x074, 31, 0, .rc, 0, 1, 0⟩
def DRIVE_NAN : Fld := ⟨0x078, 31, 0, .rc, 0, 1, 0⟩
def DRIVE_REPEATS : Fld := ⟨0x07C, 31, 0, .rc, 0, 1, 0⟩
def DRIVE_AREA_LO : Fld := ⟨0x050, 31, 0, .rwl, 0, 1, 0⟩
def DRIVE_AREA_HI : Fld := ⟨0x054, 15, 0, .rwl, 0, 1, 0⟩
def DRIVE_BUF_WORDS : Fld := ⟨0x058, 31, 0, .rwl, 0, 1, 0⟩
def DRIVE_IMAGE_LO : Fld := ⟨0x05C, 31, 0, .rw, 0, 1, 0⟩
def DRIVE_IMAGE_HI : Fld := ⟨0x060, 15, 0, .rw, 0, 1, 0⟩
def DRIVE_IMAGE_ENTRIES : Fld := ⟨0x064, 10, 0, .rw, 0, 1, 0⟩
def DRIVE_COMMIT_GO : Fld := ⟨0x068, 0, 0, .wo, 0, 1, 0⟩
def DRIVE_COMMIT_STATUS_ERROR : Fld := ⟨0x06C, 31, 24, .ro, 0, 1, 0⟩
def DRIVE_COMMIT_STATUS_ERR_ENTRY : Fld := ⟨0x06C, 9, 0, .ro, 0, 1, 0⟩
def DRIVE_GRP_MAC_LO : Fld := ⟨0x084, 31, 0, .rw, 0, 1, 0⟩
def DRIVE_GRP_MAC_HI : Fld := ⟨0x088, 15, 0, .rw, 0, 1, 0⟩
def DRIVE_GRP_MISSED : Fld := ⟨0x090, 31, 0, .rc, 0, 1, 0⟩

def PTP_CTRL_DOMAIN : Fld := ⟨0x040, 15, 8, .rwl, 0, 1, 0⟩
def PTP_CTRL_PPS_OUT_EN : Fld := ⟨0x040, 2, 2, .rw, 0, 1, 0⟩
def PTP_CTRL_ROLE : Fld := ⟨0x040, 1, 0, .rwl, 0, 1, 0⟩
def PTP_STATUS_SLAVE_PORT : Fld := ⟨0x060, 7, 4, .ro, 0, 1, 0⟩
def PTP_STATUS_TIME_SET : Fld := ⟨0x060, 3, 3, .ro, 0, 1, 0⟩
def PTP_STATUS_PPS_FAULT : Fld := ⟨0x060, 2, 2, .ro, 0, 1, 0⟩
def PTP_STATUS_HOLDOVER : Fld := ⟨0x060, 1, 1, .ro, 0, 1, 0⟩
def PTP_STATUS_LOCKED : Fld := ⟨0x060, 0, 0, .ro, 0, 1, 0⟩
def PTP_TIME_NS : Fld := ⟨0x044, 29, 0, .ro, 0, 1, 0⟩
def PTP_TIME_SEC_LO : Fld := ⟨0x048, 31, 0, .ro, 0, 1, 0⟩
def PTP_TIME_SEC_HI : Fld := ⟨0x04C, 15, 0, .ro, 0, 1, 0⟩
def PTP_ADJ_FREQ : Fld := ⟨0x050, 31, 0, .rw, 0, 1, 0⟩
def PTP_ADJ_STEP : Fld := ⟨0x054, 31, 0, .wo, 0, 1, 0⟩
def PTP_TOD_NEXT_SEC_LO : Fld := ⟨0x058, 31, 0, .rw, 0, 1, 0⟩
def PTP_TOD_NEXT_SEC_HI : Fld := ⟨0x05C, 15, 0, .rw, 0, 1, 0⟩

def FORME_CTRL_DEBUG_EN : Fld := ⟨0x040, 2, 2, .rwl, 0, 1, 0⟩
def FORME_CTRL_E_CLEAR : Fld := ⟨0x040, 0, 0, .wo, 0, 1, 0⟩
def FORME_STATUS_ROWS : Fld := ⟨0x044, 20, 16, .ro, 0, 1, 0⟩
def FORME_STATUS_IO_BUSY : Fld := ⟨0x044, 2, 2, .ro, 0, 1, 0⟩
def FORME_STATUS_MIGRATING : Fld := ⟨0x044, 1, 1, .ro, 0, 1, 0⟩
def FORME_STATUS_E_ANY : Fld := ⟨0x044, 0, 0, .ro, 0, 1, 0⟩
def FORME_TAPS_TAP : Fld := ⟨0x050, 15, 0, .ro, 0, 1, 0⟩
def FORME_E_FIRST_VALID : Fld := ⟨0x054, 31, 31, .ro, 0, 1, 0⟩
def FORME_E_FIRST_CHECK : Fld := ⟨0x054, 22, 20, .ro, 0, 1, 0⟩
def FORME_E_FIRST_POSITION : Fld := ⟨0x054, 19, 0, .ro, 0, 1, 0⟩
def FORME_E_UADDR_UADDR : Fld := ⟨0x058, 15, 0, .ro, 0, 1, 0⟩
def FORME_E_COUNT : Fld := ⟨0x05C, 31, 0, .rc, 0, 1, 0⟩
def FORME_CORRECTED : Fld := ⟨0x060, 31, 0, .rc, 0, 1, 0⟩
def FORME_SCRUB_PASSES : Fld := ⟨0x064, 31, 0, .rc, 0, 1, 0⟩
def FORME_MIGRATIONS : Fld := ⟨0x068, 31, 0, .ro, 0, 1, 0⟩
def FORME_IO_TRUNC : Fld := ⟨0x06C, 31, 0, .rc, 0, 1, 0⟩
def FORME_ROWMAP_LO : Fld := ⟨0x048, 31, 0, .ro, 0xffffffff, 1, 0⟩
def FORME_ROWMAP_HI : Fld := ⟨0x04C, 31, 0, .ro, 0xffffffff, 1, 0⟩

def GALLEY_REMAP_PENDING : Fld := ⟨0x040, 5, 5, .ro, 0, 1, 0⟩
def GALLEY_REMAP_RETIRED : Fld := ⟨0x040, 4, 0, .ro, 31, 1, 0⟩
def GALLEY_COL_RETIRED_PENDING : Fld := ⟨0x044, 8, 8, .ro, 0, 17, 4⟩
def GALLEY_COL_RETIRED_COLUMN : Fld := ⟨0x044, 5, 0, .ro, 63, 17, 4⟩
def GALLEY_E_MAP_GALLEYS : Fld := ⟨0x088, 16, 0, .ro, 0, 1, 0⟩
def GALLEY_DBG_ADDR_FLAGS : Fld := ⟨0x090, 23, 23, .rw, 0, 1, 0⟩
def GALLEY_DBG_ADDR_GALLEY : Fld := ⟨0x090, 22, 19, .rw, 0, 1, 0⟩
def GALLEY_DBG_ADDR_COLUMN : Fld := ⟨0x090, 18, 14, .rw, 0, 1, 0⟩
def GALLEY_DBG_ADDR_ROW : Fld := ⟨0x090, 13, 9, .rw, 0, 1, 0⟩
def GALLEY_DBG_ADDR_WORD : Fld := ⟨0x090, 8, 0, .rw, 0, 1, 0⟩
def GALLEY_DBG_DATA : Fld := ⟨0x094, 31, 0, .rw, 0, 1, 0⟩
def GALLEY_DBG_STATUS_UNCORR : Fld := ⟨0x098, 1, 1, .ro, 0, 1, 0⟩
def GALLEY_DBG_STATUS_BUSY : Fld := ⟨0x098, 0, 0, .ro, 0, 1, 0⟩
def GALLEY_CORRECTED : Fld := ⟨0x08C, 31, 0, .rc, 0, 1, 0⟩

def COMP_PAIR_SPARE : Fld := ⟨0x040, 7, 6, .ro, 3, 1, 0⟩
def COMP_PAIR_SECOND : Fld := ⟨0x040, 5, 4, .ro, 1, 1, 0⟩
def COMP_PAIR_FIRST : Fld := ⟨0x040, 3, 2, .ro, 0, 1, 0⟩
def COMP_PAIR_TRIO : Fld := ⟨0x040, 1, 1, .ro, 0, 1, 0⟩
def COMP_PAIR_PAIR_OK : Fld := ⟨0x040, 0, 0, .ro, 0, 1, 0⟩
def COMP_CORE_STATE_CORE2 : Fld := ⟨0x044, 11, 8, .ro, 0, 1, 0⟩
def COMP_CORE_STATE_CORE1 : Fld := ⟨0x044, 7, 4, .ro, 0, 1, 0⟩
def COMP_CORE_STATE_CORE0 : Fld := ⟨0x044, 3, 0, .ro, 0, 1, 0⟩
def COMP_SEQ_CTRL_REARM : Fld := ⟨0x048, 2, 2, .wo, 0, 1, 0⟩
def COMP_SEQ_CTRL_FLUSH : Fld := ⟨0x048, 1, 1, .wo, 0, 1, 0⟩
def COMP_SEQ_CTRL_ENABLE : Fld := ⟨0x048, 0, 0, .rw, 0, 1, 0⟩
def COMP_SEQ_STATUS_UADDR : Fld := ⟨0x04C, 31, 16, .ro, 0, 1, 0⟩
def COMP_SEQ_STATUS_DEPTH : Fld := ⟨0x04C, 8, 2, .ro, 0, 1, 0⟩
def COMP_SEQ_STATUS_DISCARDING : Fld := ⟨0x04C, 1, 1, .ro, 0, 1, 0⟩
def COMP_SEQ_STATUS_BUSY : Fld := ⟨0x04C, 0, 0, .ro, 0, 1, 0⟩
def COMP_ROUTINE_BUDGET : Fld := ⟨0x050, 31, 0, .rwl, 0x10000, 1, 0⟩
def COMP_ABANDON_CAUSE : Fld := ⟨0x054, 31, 28, .ro, 0, 1, 0⟩
def COMP_ABANDON_OPCODE : Fld := ⟨0x054, 25, 16, .ro, 0, 1, 0⟩
def COMP_ABANDON_UADDR : Fld := ⟨0x054, 15, 0, .ro, 0, 1, 0⟩
def COMP_IMP_STATUS_RECOMPUTING : Fld := ⟨0x060, 7, 7, .ro, 0, 1, 0⟩
def COMP_IMP_STATUS_VOID : Fld := ⟨0x060, 5, 0, .ro, 0, 1, 0⟩
def COMP_IMP_CTRL_END : Fld := ⟨0x064, 0, 0, .wo, 0, 1, 0⟩
def COMP_MISMATCHES : Fld := ⟨0x068, 31, 0, .rc, 0, 1, 0⟩
def COMP_XCHECK_DIFFS : Fld := ⟨0x06C, 31, 0, .rc, 0, 1, 0⟩
def COMP_REFUSED : Fld := ⟨0x070, 31, 0, .rc, 0, 1, 0⟩
def COMP_ABANDONS : Fld := ⟨0x074, 31, 0, .rc, 0, 1, 0⟩
def COMP_DISCARDED : Fld := ⟨0x078, 31, 0, .rc, 0, 1, 0⟩
def COMP_VOIDS : Fld := ⟨0x07C, 31, 0, .rc, 0, 1, 0⟩
def COMP_RECOMPUTES : Fld := ⟨0x080, 31, 0, .rc, 0, 1, 0⟩
def COMP_ICB_LO : Fld := ⟨0x058, 31, 0, .rwl, 0, 1, 0⟩
def COMP_ICB_HI : Fld := ⟨0x05C, 15, 0, .rwl, 0, 1, 0⟩

def CSTORE_STATUS_PATCH_VERSION : Fld := ⟨0x040, 31, 16, .ro, 0, 1, 0⟩
def CSTORE_STATUS_MATCHES : Fld := ⟨0x040, 15, 8, .ro, 0, 1, 0⟩
def CSTORE_STATUS_PATCH_OK : Fld := ⟨0x040, 2, 2, .ro, 0, 1, 0⟩
def CSTORE_STATUS_OWNER_ONLY : Fld := ⟨0x040, 1, 1, .ro, 0, 1, 0⟩
def CSTORE_STATUS_STAGED : Fld := ⟨0x040, 0, 0, .ro, 0, 1, 0⟩
def CSTORE_DISPATCH_INDEX_INDEX : Fld := ⟨0x044, 9, 0, .rw, 0, 1, 0⟩
def CSTORE_DISPATCH_ENTRY_VALID : Fld := ⟨0x048, 31, 31, .rw, 0, 1, 0⟩
def CSTORE_DISPATCH_ENTRY_UADDR : Fld := ⟨0x048, 15, 0, .rw, 0, 1, 0⟩
def CSTORE_MATCH_INDEX_INDEX : Fld := ⟨0x04C, 5, 0, .rw, 0, 1, 0⟩
def CSTORE_MATCH_VALID : Fld := ⟨0x050, 31, 31, .rwl, 0, 1, 0⟩
def CSTORE_MATCH_PATCH : Fld := ⟨0x050, 25, 16, .rwl, 0, 1, 0⟩
def CSTORE_MATCH_ROM_UADDR : Fld := ⟨0x050, 15, 0, .rwl, 0, 1, 0⟩
def CSTORE_CORRECTED : Fld := ⟨0x054, 31, 0, .rc, 0, 1, 0⟩
def CSTORE_UNCORR : Fld := ⟨0x058, 31, 0, .rc, 0, 1, 0⟩

def WEB_CTRL_FLUSH : Fld := ⟨0x040, 2, 2, .wo, 0, 1, 0⟩
def WEB_CTRL_ENABLE : Fld := ⟨0x040, 0, 0, .rw, 0, 1, 0⟩
def WEB_STATUS_FLUSHING : Fld := ⟨0x044, 19, 19, .ro, 0, 1, 0⟩
def WEB_STATUS_HAZARD_WAIT : Fld := ⟨0x044, 18, 18, .ro, 0, 1, 0⟩
def WEB_STATUS_RUNNING : Fld := ⟨0x044, 17, 17, .ro, 0, 1, 0⟩
def WEB_STATUS_JOB_DEPTH : Fld := ⟨0x044, 14, 8, .ro, 0, 1, 0⟩
def WEB_STATUS_SP_DEPTH : Fld := ⟨0x044, 6, 0, .ro, 0, 1, 0⟩
def WEB_QCFG_JOB_COUNT_LOG2 : Fld := ⟨0x048, 12, 8, .rwl, 20, 1, 0⟩
def WEB_QCFG_JOB_SLOTS : Fld := ⟨0x048, 5, 0, .rwl, 16, 1, 0⟩
def WEB_CREC_CFG_EN : Fld := ⟨0x05C, 8, 8, .rwl, 0, 1, 0⟩
def WEB_CREC_CFG_LOG2 : Fld := ⟨0x05C, 4, 0, .rwl, 4, 1, 0⟩
def WEB_SP_PENDING_PENDING : Fld := ⟨0x064, 6, 0, .ro, 0, 1, 0⟩
def WEB_LAST_ERROR_STATUS : Fld := ⟨0x068, 31, 24, .ro, 0, 1, 0⟩
def WEB_LAST_ERROR_CAUSE : Fld := ⟨0x068, 23, 16, .ro, 0, 1, 0⟩
def WEB_LAST_ERROR_TAG : Fld := ⟨0x068, 15, 0, .ro, 0, 1, 0⟩
def WEB_CHAINS_LO : Fld := ⟨0x078, 31, 0, .rc, 0, 1, 0⟩
def WEB_CHAINS_HI : Fld := ⟨0x07C, 31, 0, .rc, 0, 1, 0⟩
def WEB_REFUSED : Fld := ⟨0x080, 31, 0, .rc, 0, 1, 0⟩
def WEB_DISCARDED : Fld := ⟨0x084, 31, 0, .rc, 0, 1, 0⟩
def WEB_FLUSHED : Fld := ⟨0x088, 31, 0, .rc, 0, 1, 0⟩
def WEB_HAZARD_WAITS : Fld := ⟨0x08C, 31, 0, .rc, 0, 1, 0⟩
def WEB_SUBMIT_LO : Fld := ⟨0x04C, 31, 0, .wo, 0, 1, 0⟩
def WEB_SUBMIT_HI : Fld := ⟨0x050, 15, 0, .wo, 0, 1, 0⟩
def WEB_CREC_LO : Fld := ⟨0x054, 31, 0, .rwl, 0, 1, 0⟩
def WEB_CREC_HI : Fld := ⟨0x058, 15, 0, .rwl, 0, 1, 0⟩
def WEB_CREC_HEAD : Fld := ⟨0x060, 31, 0, .ro, 0, 1, 0⟩
def WEB_LAST_SEQ : Fld := ⟨0x06C, 31, 0, .ro, 0, 1, 0⟩
def WEB_FAULT_ADDR_LO : Fld := ⟨0x070, 31, 0, .ro, 0, 1, 0⟩
def WEB_FAULT_ADDR_HI : Fld := ⟨0x074, 15, 0, .ro, 0, 1, 0⟩

def STONE_BANKS_IN_SERVICE : Fld := ⟨0x060, 31, 0, .ro, 0, 1, 0⟩
def STONE_SCRUB_STATUS_LATE : Fld := ⟨0x064, 15, 15, .ro, 0, 1, 0⟩
def STONE_SCRUB_STATUS_POS : Fld := ⟨0x064, 14, 0, .ro, 0, 1, 0⟩
def STONE_CORRECTED : Fld := ⟨0x068, 31, 0, .rc, 0, 1, 0⟩
def STONE_UNCORR : Fld := ⟨0x06C, 31, 0, .rc, 0, 1, 0⟩
def STONE_SCRUB_PASSES : Fld := ⟨0x070, 31, 0, .rc, 0, 1, 0⟩
def STONE_SCRUB_LATE : Fld := ⟨0x074, 31, 0, .rc, 0, 1, 0⟩
def STONE_REGION_REFUSED : Fld := ⟨0x078, 31, 0, .rc, 0, 1, 0⟩
def STONE_REGION_SEL_MASTER : Fld := ⟨0x084, 12, 8, .rw, 0, 1, 0⟩
def STONE_REGION_SEL_REGION : Fld := ⟨0x084, 3, 0, .rw, 0, 1, 0⟩
def STONE_REGION_BASE_LO_BASE_LO : Fld := ⟨0x088, 31, 8, .rwl, 0, 1, 0⟩
def STONE_REGION_BASE_HI_BASE_HI : Fld := ⟨0x08C, 15, 0, .rwl, 0, 1, 0⟩
def STONE_REGION_SIZE_SIZE : Fld := ⟨0x090, 31, 0, .rwl, 0, 1, 0⟩
def STONE_REGION_RIGHTS_WHOLE : Fld := ⟨0x094, 2, 2, .rwl, 0, 1, 0⟩
def STONE_REGION_RIGHTS_W : Fld := ⟨0x094, 1, 1, .rwl, 0, 1, 0⟩
def STONE_REGION_RIGHTS_R : Fld := ⟨0x094, 0, 0, .rwl, 0, 1, 0⟩
def STONE_LEDGER_INDEX_INDEX : Fld := ⟨0x098, 4, 0, .rw, 0, 1, 0⟩
def STONE_LEDGER_COMMIT_GO : Fld := ⟨0x0A4, 0, 0, .wo, 0, 1, 0⟩
def STONE_LEDGER_STATUS_ERROR : Fld := ⟨0x0A8, 31, 24, .ro, 0, 1, 0⟩
def STONE_LEDGER_STATUS_IMPOSE_HELD : Fld := ⟨0x0A8, 1, 1, .ro, 0, 1, 0⟩
def STONE_LEDGER_STATUS_CHECKING : Fld := ⟨0x0A8, 0, 0, .ro, 0, 1, 0⟩
def STONE_REGION_LAST_LO : Fld := ⟨0x07C, 31, 0, .ro, 0, 1, 0⟩
def STONE_REGION_LAST_WRITE : Fld := ⟨0x080, 21, 21, .ro, 0, 1, 0⟩
def STONE_REGION_LAST_MASTER : Fld := ⟨0x080, 20, 16, .ro, 0, 1, 0⟩
def STONE_REGION_LAST_ADDR_HI : Fld := ⟨0x080, 15, 0, .ro, 0, 1, 0⟩
def STONE_LEDGER_MASTER : Fld := ⟨0x09C, 4, 0, .rw, 0, 1, 0⟩
def STONE_LEDGER_RATE : Fld := ⟨0x0A0, 31, 0, .rw, 0, 1, 0⟩
def STONE_LEDGER_TOTAL : Fld := ⟨0x0AC, 31, 0, .ro, 0, 1, 0⟩
def STONE_LEDGER_CAPACITY : Fld := ⟨0x0B0, 31, 0, .ro, 0, 1, 0⟩
def STONE_LEDGER_INFORCE : Fld := ⟨0x0B4, 31, 0, .ro, 0, 1, 0⟩
def STONE_OWNER_BYTE0 : Fld := ⟨0x040, 7, 0, .ro, 0, 8, 4⟩
def STONE_OWNER_BYTE1 : Fld := ⟨0x040, 15, 8, .ro, 0, 8, 4⟩
def STONE_OWNER_BYTE2 : Fld := ⟨0x040, 23, 16, .ro, 0, 8, 4⟩
def STONE_OWNER_BYTE3 : Fld := ⟨0x040, 31, 24, .ro, 0, 8, 4⟩

def REEL_STATUS_TEMP_C : Fld := ⟨0x040, 31, 24, .ro, 0, 1, 0⟩
def REEL_STATUS_BAND : Fld := ⟨0x040, 9, 8, .ro, 0, 1, 0⟩
def REEL_STATUS_SCRUB_BEHIND : Fld := ⟨0x040, 3, 3, .ro, 0, 1, 0⟩
def REEL_STATUS_RETRAINING : Fld := ⟨0x040, 2, 2, .ro, 0, 1, 0⟩
def REEL_STATUS_SELF_REFRESH : Fld := ⟨0x040, 1, 1, .ro, 0, 1, 0⟩
def REEL_STATUS_IN_SERVICE : Fld := ⟨0x040, 0, 0, .ro, 0, 1, 0⟩
def REEL_CFG_RETRAIN_MS : Fld := ⟨0x044, 25, 16, .rwl, 100, 1, 0⟩
def REEL_CFG_SCRUB_H : Fld := ⟨0x044, 4, 0, .rwl, 24, 1, 0⟩
def REEL_CAL_OFFSET_OFFSET_NS : Fld := ⟨0x048, 29, 0, .rwl, 0, 1, 0⟩
def REEL_SCRUB_POS_POS : Fld := ⟨0x04C, 27, 0, .ro, 0, 1, 0⟩
def REEL_CORRECTED : Fld := ⟨0x050, 31, 0, .rc, 0, 1, 0⟩
def REEL_UNCORR : Fld := ⟨0x054, 31, 0, .rc, 0, 1, 0⟩
def REEL_SCRUB_PASSES : Fld := ⟨0x058, 31, 0, .rc, 0, 1, 0⟩
def REEL_BAND_CHANGES : Fld := ⟨0x05C, 31, 0, .rc, 0, 1, 0⟩
def REEL_RETRAINS : Fld := ⟨0x060, 31, 0, .rc, 0, 1, 0⟩
def REEL_LAST_UNCORR_LO : Fld := ⟨0x064, 31, 0, .ro, 0, 1, 0⟩
def REEL_LAST_UNCORR_HI : Fld := ⟨0x068, 15, 0, .ro, 0, 1, 0⟩

def NOC_CTRL_RESP_TIMEOUT_US : Fld := ⟨0x040, 19, 0, .rwl, 1000, 1, 0⟩
def NOC_FLOW_INDEX_INDEX : Fld := ⟨0x044, 5, 0, .rw, 1, 1, 0⟩
def NOC_FLOW_CFG_SRC : Fld := ⟨0x048, 31, 24, .rw, 0, 1, 0⟩
def NOC_FLOW_CFG_DST : Fld := ⟨0x048, 23, 16, .rw, 0, 1, 0⟩
def NOC_FLOW_CFG_VALID : Fld := ⟨0x048, 7, 7, .rw, 0, 1, 0⟩
def NOC_FLOW_CFG_SLOTS : Fld := ⟨0x048, 6, 0, .rw, 0, 1, 0⟩
def NOC_FLOW_FIRST_FIRST : Fld := ⟨0x050, 6, 0, .ro, 0, 1, 0⟩
def NOC_FLOW_STATUS_ERROR : Fld := ⟨0x058, 31, 24, .ro, 0, 1, 0⟩
def NOC_FLOW_STATUS_ERR_FLOW : Fld := ⟨0x058, 13, 8, .ro, 0, 1, 0⟩
def NOC_FLOW_STATUS_CHECKING : Fld := ⟨0x058, 0, 0, .ro, 0, 1, 0⟩
def NOC_FLOW_INFORCE_SRC : Fld := ⟨0x04C, 31, 24, .ro, 0, 1, 0⟩
def NOC_FLOW_INFORCE_DST : Fld := ⟨0x04C, 23, 16, .ro, 0, 1, 0⟩
def NOC_FLOW_INFORCE_VALID : Fld := ⟨0x04C, 7, 7, .ro, 0, 1, 0⟩
def NOC_FLOW_INFORCE_SLOTS : Fld := ⟨0x04C, 6, 0, .ro, 0, 1, 0⟩
def NOC_FLOW_COMMIT_GO : Fld := ⟨0x054, 0, 0, .wo, 0, 1, 0⟩
def NOC_TIMEOUTS : Fld := ⟨0x05C, 31, 0, .rc, 0, 1, 0⟩
def NOC_LATE_RESPONSES : Fld := ⟨0x060, 31, 0, .rc, 0, 1, 0⟩

def EVT_FILT_LEVEL : Fld := ⟨0x040, 16, 16, .ro, 0, 16, 4⟩
def EVT_FILT_EDGE : Fld := ⟨0x040, 9, 8, .rw, 0, 16, 4⟩
def EVT_FILT_STABLE_AC : Fld := ⟨0x040, 7, 0, .rw, 4, 16, 4⟩
def EVT_LEVELS : Fld := ⟨0x080, 15, 0, .ro, 0, 1, 0⟩
def EVT_SOFT_RAISE_INDEX : Fld := ⟨0x084, 5, 0, .wo, 0, 1, 0⟩
def EVT_PX_THRESH : Fld := ⟨0x0A0, 3, 0, .rw, 0, 2, 32⟩
def EVT_PX_STACK_IN_SERVICE : Fld := ⟨0x0A4, 31, 16, .ro, 0, 2, 32⟩
def EVT_PX_STACK_DEPTH : Fld := ⟨0x0A4, 12, 8, .ro, 0, 2, 32⟩
def EVT_PX_STACK_EMPTY : Fld := ⟨0x0A4, 4, 4, .ro, 1, 2, 32⟩
def EVT_PX_STACK_TOP : Fld := ⟨0x0A4, 3, 0, .ro, 0, 2, 32⟩
def EVT_PX_PRESENT_NORM_REQ : Fld := ⟨0x0A8, 15, 15, .ro, 0, 2, 32⟩
def EVT_PX_PRESENT_NORM_LEVEL : Fld := ⟨0x0A8, 11, 8, .ro, 0, 2, 32⟩
def EVT_PX_PRESENT_FAST_REQ : Fld := ⟨0x0A8, 7, 7, .ro, 0, 2, 32⟩
def EVT_PX_PRESENT_FAST_LEVEL : Fld := ⟨0x0A8, 3, 0, .ro, 0, 2, 32⟩
def EVT_PX_EOI_LEVEL : Fld := ⟨0x0AC, 3, 0, .wo, 0, 2, 32⟩
def EVT_PX_STATUS_STACK_ERROR : Fld := ⟨0x0B0, 31, 31, .ro, 0, 2, 32⟩
def EVT_PX_STATUS_EOI_ERROR : Fld := ⟨0x0B0, 30, 30, .ro, 0, 2, 32⟩
def EVT_PX_STATUS_EOI_EMPTY : Fld := ⟨0x0B0, 29, 29, .ro, 0, 2, 32⟩
def EVT_PX_STATUS_EOI_WRITTEN : Fld := ⟨0x0B0, 7, 4, .ro, 0, 2, 32⟩
def EVT_PX_STATUS_EOI_TOP : Fld := ⟨0x0B0, 3, 0, .ro, 0, 2, 32⟩
def EVT_PX_CTRL_STACK_RESET : Fld := ⟨0x0B4, 0, 0, .wo, 0, 2, 32⟩
def EVT_EOI_ERRORS : Fld := ⟨0x0E0, 31, 0, .rc, 0, 1, 0⟩
def EVT_STACK_ERRORS : Fld := ⟨0x0E4, 31, 0, .rc, 0, 1, 0⟩
def EVT_FILTER_REJECTS : Fld := ⟨0x0E8, 31, 0, .rc, 0, 1, 0⟩
def EVT_CONFIG_COPY : Fld := ⟨0x0EC, 31, 0, .rc, 0, 1, 0⟩

def EVT_SRC_CFG_TARGET : Fld := ⟨0x040, 31, 30, .rwl, 0, 512, 4⟩
def EVT_SRC_CFG_VECTOR : Fld := ⟨0x040, 29, 22, .rwl, 0, 512, 4⟩
def EVT_SRC_CFG_PRIO : Fld := ⟨0x040, 21, 18, .rw, 0, 512, 4⟩
def EVT_SRC_CFG_CLASS : Fld := ⟨0x040, 17, 17, .rw, 0, 512, 4⟩
def EVT_SRC_CFG_COUNT : Fld := ⟨0x040, 16, 9, .rw, 1, 512, 4⟩
def EVT_SRC_PEND : Fld := ⟨0x840, 31, 0, .rw, 0, 16, 4⟩
def EVT_SRC_EN : Fld := ⟨0x880, 31, 0, .rw, 0, 16, 4⟩

def EVT_SRC_COAL_TIME_AC : Fld := ⟨0x040, 23, 0, .rw, 0, 512, 4⟩

def EVT_SRC_CNT : Fld := ⟨0x040, 7, 0, .rc, 0, 512, 4⟩
def EVT_SRC_NZ : Fld := ⟨0x840, 31, 0, .ro, 0, 16, 4⟩

def FAULT_CTRL_STICKY : Fld := ⟨0x040, 4, 4, .rwl, 0, 1, 0⟩
def FAULT_CTRL_LATCH_MIN : Fld := ⟨0x040, 3, 2, .rwl, 2, 1, 0⟩
def FAULT_CTRL_FIRST_CLEAR : Fld := ⟨0x040, 1, 1, .wo, 0, 1, 0⟩
def FAULT_STATUS_ALIVE_LEVEL : Fld := ⟨0x044, 6, 6, .ro, 0, 1, 0⟩
def FAULT_STATUS_ALIVE_RUNNING : Fld := ⟨0x044, 5, 5, .ro, 0, 1, 0⟩
def FAULT_STATUS_HB_MISSED : Fld := ⟨0x044, 4, 4, .ro, 0, 1, 0⟩
def FAULT_STATUS_LOG_OVERFLOW : Fld := ⟨0x044, 3, 3, .ro, 0, 1, 0⟩
def FAULT_STATUS_OVERFLOW : Fld := ⟨0x044, 2, 2, .ro, 0, 1, 0⟩
def FAULT_STATUS_FIRST_VALID : Fld := ⟨0x044, 1, 1, .ro, 0, 1, 0⟩
def FAULT_STATUS_FATAL : Fld := ⟨0x044, 0, 0, .ro, 0, 1, 0⟩
def FAULT_FATAL_VALID : Fld := ⟨0x064, 31, 31, .ro, 0, 1, 0⟩
def FAULT_FATAL_KIND : Fld := ⟨0x064, 21, 16, .ro, 0, 1, 0⟩
def FAULT_FATAL_SRC : Fld := ⟨0x064, 9, 0, .ro, 0, 1, 0⟩
def FAULT_SRC_INDEX_INDEX : Fld := ⟨0x068, 9, 0, .rw, 0, 1, 0⟩
def FAULT_SRC_COUNT_FLOOR : Fld := ⟨0x06C, 17, 16, .ro, 0, 1, 0⟩
def FAULT_SRC_COUNT : Fld := ⟨0x06C, 15, 0, .rc, 0, 1, 0⟩
def FAULT_LOG_INDEX_POSITION : Fld := ⟨0x078, 11, 0, .rw, 0, 1, 0⟩
def FAULT_RETIRE_CFG_WINDOW_H : Fld := ⟨0x0C0, 31, 24, .rwl, 24, 1, 0⟩
def FAULT_RETIRE_CFG_CORE_LIMIT : Fld := ⟨0x0C0, 19, 16, .rwl, 2, 1, 0⟩
def FAULT_RETIRE_CFG_GALLEY_LIMIT : Fld := ⟨0x0C0, 11, 8, .rwl, 1, 1, 0⟩
def FAULT_RETIRE_CFG_COL_LIMIT : Fld := ⟨0x0C0, 3, 0, .rwl, 1, 1, 0⟩
def FAULT_ALIVE_ENABLE : Fld := ⟨0x0C4, 17, 17, .rwl, 0, 1, 0⟩
def FAULT_ALIVE_HALF_AC : Fld := ⟨0x0C4, 16, 0, .rwl, 12500, 1, 0⟩
def FAULT_HEARTBEAT_KICK : Fld := ⟨0x0C8, 0, 0, .wo, 0, 1, 0⟩
def FAULT_HB_CFG_TIMEOUT_MS : Fld := ⟨0x0CC, 9, 0, .rwl, 10, 1, 0⟩
def FAULT_RETIRE_LAST_UNIT : Fld := ⟨0x0D0, 25, 24, .ro, 0, 1, 0⟩
def FAULT_RETIRE_LAST_CORE : Fld := ⟨0x0D0, 23, 22, .ro, 0, 1, 0⟩
def FAULT_RETIRE_LAST_POSITION : Fld := ⟨0x0D0, 19, 0, .ro, 0, 1, 0⟩
def FAULT_LOG_DROPPED : Fld := ⟨0x0D4, 31, 0, .rc, 0, 1, 0⟩
def FAULT_MESSAGES_LO : Fld := ⟨0x0D8, 31, 0, .rc, 0, 1, 0⟩
def FAULT_MESSAGES_HI : Fld := ⟨0x0DC, 31, 0, .rc, 0, 1, 0⟩
def FAULT_BAD_CODES : Fld := ⟨0x0E0, 31, 0, .rc, 0, 1, 0⟩
def FAULT_FIRST_SRC_SEVERITY : Fld := ⟨0x048, 13, 12, .ro, 0, 1, 0⟩
def FAULT_FIRST_SRC_SOURCE : Fld := ⟨0x048, 9, 0, .ro, 0, 1, 0⟩
def FAULT_FIRST_KIND : Fld := ⟨0x04C, 5, 0, .ro, 0, 1, 0⟩
def FAULT_FIRST_DETAIL : Fld := ⟨0x050, 31, 0, .ro, 0, 1, 0⟩
def FAULT_FIRST_ADDR_LO : Fld := ⟨0x054, 31, 0, .ro, 0, 1, 0⟩
def FAULT_FIRST_ADDR_HI : Fld := ⟨0x058, 15, 0, .ro, 0, 1, 0⟩
def FAULT_FIRST_TIME_LO : Fld := ⟨0x05C, 31, 0, .ro, 0, 1, 0⟩
def FAULT_FIRST_TIME_HI : Fld := ⟨0x060, 31, 0, .ro, 0, 1, 0⟩
def FAULT_LOG_HEAD_LO : Fld := ⟨0x070, 31, 0, .ro, 0, 1, 0⟩
def FAULT_LOG_HEAD_HI : Fld := ⟨0x074, 31, 0, .ro, 0, 1, 0⟩
def FAULT_LOG_DATA : Fld := ⟨0x080, 31, 0, .ro, 0, 16, 4⟩
def FAULT_SEV : Fld := ⟨0x100, 31, 0, .rwl, 0, 64, 4⟩

def HOST_LINK_SPEED : Fld := ⟨0x044, 10, 8, .ro, 0, 1, 0⟩
def HOST_LINK_WIDTH : Fld := ⟨0x044, 7, 3, .ro, 0, 1, 0⟩
def HOST_LINK_L1 : Fld := ⟨0x044, 2, 2, .ro, 0, 1, 0⟩
def HOST_LINK_PERST : Fld := ⟨0x044, 1, 1, .ro, 0, 1, 0⟩
def HOST_LINK_LINK_UP : Fld := ⟨0x044, 0, 0, .ro, 0, 1, 0⟩
def HOST_CA_COUNT : Fld := ⟨0x048, 31, 0, .rc, 0, 1, 0⟩
def HOST_POSTED_DROPS : Fld := ⟨0x04C, 31, 0, .rc, 0, 1, 0⟩
def HOST_CPL_ERRORS : Fld := ⟨0x050, 31, 0, .rc, 0, 1, 0⟩
def HOST_RESETS : Fld := ⟨0x054, 31, 0, .rc, 0, 1, 0⟩
def HOST_BAR4_BASE_WINDOW_GIB : Fld := ⟨0x040, 5, 0, .rw, 0, 1, 0⟩

def JOBS_CTRL_ENABLE : Fld := ⟨0x040, 0, 0, .rw, 0, 1, 0⟩
def JOBS_STATUS_OUTSTANDING : Fld := ⟨0x044, 26, 16, .ro, 0, 1, 0⟩
def JOBS_STATUS_STOPPED : Fld := ⟨0x044, 0, 0, .ro, 0, 1, 0⟩
def JOBS_SP_CTRL_STOP : Fld := ⟨0x048, 1, 1, .wo, 0, 1, 0⟩
def JOBS_SP_CTRL_START : Fld := ⟨0x048, 0, 0, .wo, 0, 1, 0⟩
def JOBS_SP_STATUS_LOAD_ERROR : Fld := ⟨0x04C, 31, 24, .ro, 0, 1, 0⟩
def JOBS_SP_STATUS_TRIGGER : Fld := ⟨0x04C, 3, 2, .ro, 0, 1, 0⟩
def JOBS_SP_STATUS_RUNNING : Fld := ⟨0x04C, 1, 1, .ro, 0, 1, 0⟩
def JOBS_SP_STATUS_LOADED : Fld := ⟨0x04C, 0, 0, .ro, 0, 1, 0⟩
def JOBS_SP_PERIOD_NS_P : Fld := ⟨0x050, 31, 0, .ro, 0, 1, 0⟩
def JOBS_SP_LAG_NS_LAG : Fld := ⟨0x054, 31, 0, .rwl, 20000, 1, 0⟩
def JOBS_SP_REF_SLOT_SLOT : Fld := ⟨0x058, 15, 0, .rwl, 0, 1, 0⟩
def JOBS_SP_GRACE_NS_GRACE : Fld := ⟨0x05C, 31, 0, .rwl, 20000, 1, 0⟩
def JOBS_IMP_COUNT : Fld := ⟨0x060, 31, 0, .ro, 0, 1, 0⟩
def JOBS_SP_BLOCK0_LO : Fld := ⟨0x064, 31, 0, .ro, 0, 1, 0⟩
def JOBS_SP_BLOCK0_HI : Fld := ⟨0x068, 31, 0, .ro, 0, 1, 0⟩
def JOBS_IMP_LAST_NS : Fld := ⟨0x06C, 31, 0, .ro, 0, 1, 0⟩
def JOBS_IMP_MAX_NS : Fld := ⟨0x070, 31, 0, .ro, 0, 1, 0⟩
def JOBS_IMP_RECOMP_MAX_NS : Fld := ⟨0x074, 31, 0, .ro, 0, 1, 0⟩
def JOBS_CALL_RESULT : Fld := ⟨0x080, 31, 0, .rw, 0, 1, 0⟩
def JOBS_CALL_DONE_FAIL : Fld := ⟨0x084, 0, 0, .wo, 0, 1, 0⟩
def JOBS_CALL_STATUS_QUEUED : Fld := ⟨0x088, 4, 0, .ro, 0, 1, 0⟩
def JOBS_HALF_PRESS_EXCEEDED : Fld := ⟨0x08C, 31, 0, .rc, 0, 1, 0⟩
def JOBS_IMP_SKIPPED : Fld := ⟨0x090, 31, 0, .rc, 0, 1, 0⟩
def JOBS_TICKETS_IGNORED : Fld := ⟨0x094, 31, 0, .rc, 0, 1, 0⟩
def JOBS_TICKETS_DISCARDED : Fld := ⟨0x098, 31, 0, .rc, 0, 1, 0⟩
def JOBS_DOORBELL_IGNORED : Fld := ⟨0x09C, 31, 0, .rc, 0, 1, 0⟩
def JOBS_LOST_COMPLETIONS : Fld := ⟨0x0A0, 31, 0, .rc, 0, 1, 0⟩
def JOBS_TICKETS_LO : Fld := ⟨0x0A4, 31, 0, .rc, 0, 1, 0⟩
def JOBS_TICKETS_HI : Fld := ⟨0x0A8, 31, 0, .rc, 0, 1, 0⟩
def JOBS_SQ_BASE_LO_ADDR : Fld := ⟨0x100, 31, 6, .rw, 0, 16, 32⟩
def JOBS_SQ_BASE_LO_HOST : Fld := ⟨0x100, 0, 0, .rw, 0, 16, 32⟩
def JOBS_SQ_BASE_HI_ADDR : Fld := ⟨0x104, 31, 0, .rw, 0, 16, 32⟩
def JOBS_RING_CFG_ENABLE : Fld := ⟨0x110, 31, 31, .rw, 0, 16, 32⟩
def JOBS_RING_CFG_LOG2 : Fld := ⟨0x110, 4, 0, .rw, 0, 16, 32⟩
def JOBS_SQ_TAIL_TAIL : Fld := ⟨0x114, 31, 0, .rw, 0, 16, 32⟩
def JOBS_CQ_HEAD_HEAD : Fld := ⟨0x118, 31, 0, .rw, 0, 16, 32⟩
def JOBS_RING_STATUS_NO_CQ_ROOM : Fld := ⟨0x11C, 9, 9, .ro, 0, 16, 32⟩
def JOBS_RING_STATUS_IDLE : Fld := ⟨0x11C, 8, 8, .ro, 1, 16, 32⟩
def JOBS_RING_STATUS_OUTSTANDING : Fld := ⟨0x11C, 6, 0, .ro, 0, 16, 32⟩
def JOBS_CALL_AREA_LO : Fld := ⟨0x078, 31, 0, .rwl, 0, 1, 0⟩
def JOBS_CALL_AREA_HI : Fld := ⟨0x07C, 15, 0, .rwl, 0, 1, 0⟩
def JOBS_CQ_BASE_LO_ADDR : Fld := ⟨0x108, 31, 6, .rw, 0, 16, 32⟩
def JOBS_CQ_BASE_LO_HOST : Fld := ⟨0x108, 0, 0, .rw, 0, 16, 32⟩
def JOBS_CQ_BASE_HI_ADDR : Fld := ⟨0x10C, 31, 0, .rw, 0, 16, 32⟩

def LOG_CTRL_MIRROR : Fld := ⟨0x040, 1, 1, .rwl, 1, 1, 0⟩
def LOG_CTRL_ENABLE : Fld := ⟨0x040, 0, 0, .rw, 0, 1, 0⟩
def LOG_STATUS_RUN_OPEN : Fld := ⟨0x044, 3, 3, .ro, 0, 1, 0⟩
def LOG_STATUS_FULL : Fld := ⟨0x044, 2, 2, .ro, 0, 1, 0⟩
def LOG_STATUS_DRIVE_FAILED : Fld := ⟨0x044, 1, 1, .ro, 0, 1, 0⟩
def LOG_STATUS_DRIVE_READY : Fld := ⟨0x044, 0, 0, .ro, 0, 1, 0⟩
def LOG_DATA_LBA_LO : Fld := ⟨0x048, 31, 0, .rwl, 0, 1, 0⟩
def LOG_DATA_LBA_HI : Fld := ⟨0x04C, 31, 0, .rwl, 0, 1, 0⟩
def LOG_DATA_BLOCKS_BLOCKS : Fld := ⟨0x050, 31, 0, .rwl, 0, 1, 0⟩
def LOG_SIG_LBA_LO : Fld := ⟨0x054, 31, 0, .rwl, 0, 1, 0⟩
def LOG_SIG_LBA_HI : Fld := ⟨0x058, 31, 0, .rwl, 0, 1, 0⟩
def LOG_SIG_RECORDS_RECORDS : Fld := ⟨0x05C, 31, 0, .rwl, 0, 1, 0⟩
def LOG_WRITTEN_LO : Fld := ⟨0x060, 31, 0, .ro, 0, 1, 0⟩
def LOG_WRITTEN_HI : Fld := ⟨0x064, 31, 0, .ro, 0, 1, 0⟩
def LOG_RELEASE_LO : Fld := ⟨0x068, 31, 0, .rw, 0, 1, 0⟩
def LOG_RELEASE_HI : Fld := ⟨0x06C, 31, 0, .rw, 0, 1, 0⟩
def LOG_WRITE_ERRORS : Fld := ⟨0x070, 31, 0, .rc, 0, 1, 0⟩
def LOG_BYTES_LOST_LO : Fld := ⟨0x074, 31, 0, .ro, 0, 1, 0⟩
def LOG_BYTES_LOST_HI : Fld := ⟨0x078, 31, 0, .ro, 0, 1, 0⟩

def FRISKET_STATUS_STATE : Fld := ⟨0x040, 2, 0, .ro, 0, 1, 0⟩
def FRISKET_CTRL_RESET1 : Fld := ⟨0x044, 0, 0, .wo, 0, 1, 0⟩
def FRISKET_TREE_SRC : Fld := ⟨0x080, 7, 0, .rwl, 0, 1, 0⟩
def FRISKET_SYNC_TRIG_TREE : Fld := ⟨0x084, 3, 2, .rwl, 0, 1, 0⟩
def FRISKET_SYNC_TAP_TREE : Fld := ⟨0x084, 1, 0, .rwl, 0, 1, 0⟩
def FRISKET_RESET_SRC_GR1_SRC : Fld := ⟨0x088, 1, 0, .rwl, 0, 1, 0⟩
def FRISKET_GPIO_CFG_SAFE_OE : Fld := ⟨0x100, 5, 5, .rwl, 0, 64, 4⟩
def FRISKET_GPIO_CFG_SAFE_VALUE : Fld := ⟨0x100, 4, 4, .rwl, 0, 64, 4⟩
def FRISKET_GPIO_CFG_RAW : Fld := ⟨0x100, 3, 3, .rwl, 0, 64, 4⟩
def FRISKET_GPIO_CFG_SYNC_TREE : Fld := ⟨0x100, 1, 0, .rwl, 0, 64, 4⟩
def FRISKET_TRIG_CFG_F32 : Fld := ⟨0x200, 20, 20, .rwl, 0, 32, 8⟩
def FRISKET_TRIG_CFG_KIND : Fld := ⟨0x200, 19, 16, .rwl, 0, 32, 8⟩
def FRISKET_TRIG_CFG_SLOT : Fld := ⟨0x200, 15, 0, .rwl, 0, 32, 8⟩
def FRISKET_TRIG_LEVEL : Fld := ⟨0x204, 31, 0, .rwl, 0, 32, 8⟩
def FRISKET_CFG_CORRECTED : Fld := ⟨0x048, 31, 0, .rc, 0, 1, 0⟩
def FRISKET_FADE_REQUESTS : Fld := ⟨0x04C, 31, 0, .rc, 0, 1, 0⟩

def POWER_SEL_DOMAIN : Fld := ⟨0x040, 5, 0, .rw, 0, 1, 0⟩
def POWER_REQ_STATE : Fld := ⟨0x044, 1, 0, .wo, 0, 1, 0⟩
def POWER_SLEEP_STATUS_WAKE_SRC : Fld := ⟨0x048, 19, 16, .ro, 0, 1, 0⟩
def POWER_SLEEP_STATUS_REASON : Fld := ⟨0x048, 15, 8, .ro, 0, 1, 0⟩
def POWER_SLEEP_STATUS_OUTCOME : Fld := ⟨0x048, 7, 4, .ro, 0, 1, 0⟩
def POWER_SLEEP_STATUS_STATE : Fld := ⟨0x048, 2, 0, .ro, 0, 1, 0⟩
def POWER_IDLE_CFG_AUTO : Fld := ⟨0x04C, 16, 16, .rw, 1, 1, 0⟩
def POWER_IDLE_CFG_IDLE_DELAY_NC : Fld := ⟨0x04C, 15, 0, .rw, 64, 1, 0⟩
def POWER_CTRL_COLO_READY : Fld := ⟨0x050, 2, 2, .wo, 0, 1, 0⟩
def POWER_CTRL_WAKE_ALL : Fld := ⟨0x050, 1, 1, .wo, 0, 1, 0⟩
def POWER_CTRL_HOLD_ALL : Fld := ⟨0x050, 0, 0, .wo, 0, 1, 0⟩
def POWER_DEVICE_STATUS_STATE : Fld := ⟨0x054, 1, 0, .ro, 0, 1, 0⟩
def POWER_ALARM_CFG_ARMED : Fld := ⟨0x060, 0, 0, .rw, 0, 1, 0⟩
def POWER_WAKE_SEL_SOURCE : Fld := ⟨0x064, 3, 0, .rw, 0, 1, 0⟩
def POWER_EVT_WAKE_LINES : Fld := ⟨0x070, 15, 0, .rw, 0, 1, 0⟩
def POWER_ALARM_LO : Fld := ⟨0x058, 31, 0, .rw, 0, 1, 0⟩
def POWER_ALARM_HI : Fld := ⟨0x05C, 31, 0, .rw, 0, 1, 0⟩
def POWER_WAKE_MAP_LO : Fld := ⟨0x068, 31, 0, .rw, 0xffffffff, 1, 0⟩
def POWER_WAKE_MAP_HI : Fld := ⟨0x06C, 31, 0, .rw, 0xfffff, 1, 0⟩
def POWER_ASLEEP_LO : Fld := ⟨0x074, 31, 0, .ro, 0, 1, 0⟩
def POWER_ASLEEP_HI : Fld := ⟨0x078, 31, 0, .ro, 0, 1, 0⟩
def POWER_REFUSED : Fld := ⟨0x07C, 31, 0, .rc, 0, 1, 0⟩
def POWER_ABANDONED : Fld := ⟨0x080, 31, 0, .rc, 0, 1, 0⟩
def POWER_WAKES : Fld := ⟨0x084, 31, 0, .rc, 0, 1, 0⟩

def CLOCK_PLL_STATUS_LOCKED : Fld := ⟨0x040, 11, 0, .ro, 0, 1, 0⟩
def CLOCK_LOCK_LOSSES : Fld := ⟨0x044, 31, 0, .rc, 0, 1, 0⟩

def ROUTER_STATUS_LINK_DOWN : Fld := ⟨0x048, 23, 16, .ro, 0, 1, 0⟩
def ROUTER_STATUS_HOLDING : Fld := ⟨0x048, 15, 12, .ro, 0, 1, 0⟩
def ROUTER_STATUS_IN_SERVICE : Fld := ⟨0x048, 0, 0, .ro, 0, 1, 0⟩
def ROUTER_CRC_RETRIES : Fld := ⟨0x04C, 31, 0, .rc, 0, 1, 0⟩
def ROUTER_SEQ_GAPS : Fld := ⟨0x050, 31, 0, .rc, 0, 1, 0⟩
def ROUTER_SEQ_OLD : Fld := ⟨0x054, 31, 0, .rc, 0, 1, 0⟩
def ROUTER_HELD : Fld := ⟨0x058, 31, 0, .rc, 0, 1, 0⟩
def ROUTER_CREDIT_FAULTS : Fld := ⟨0x05C, 31, 0, .rc, 0, 1, 0⟩
def ROUTER_DISCARDS : Fld := ⟨0x060, 31, 0, .rc, 0, 1, 0⟩
def ROUTER_TRACE_CTRL_INDEX : Fld := ⟨0x064, 21, 16, .rw, 0, 1, 0⟩
def ROUTER_TRACE_CTRL_COUNT : Fld := ⟨0x064, 6, 0, .ro, 0, 1, 0⟩
def ROUTER_XDIR : Fld := ⟨0x040, 7, 0, .rwl, 0, 1, 0⟩
def ROUTER_YDIR : Fld := ⟨0x044, 7, 0, .rwl, 0, 1, 0⟩
def ROUTER_TRACE_HDR_LO : Fld := ⟨0x068, 31, 0, .ro, 0, 1, 0⟩
def ROUTER_TRACE_HDR_HI : Fld := ⟨0x06C, 31, 0, .ro, 0, 1, 0⟩
def ROUTER_TRACE_TIME : Fld := ⟨0x070, 31, 0, .ro, 0, 1, 0⟩
def ROUTER_PROBE_SEL_OVF : Fld := ⟨0x020, 31, 31, .ro, 0, 1, 0⟩
def ROUTER_PROBE_SEL_CLEAR : Fld := ⟨0x020, 30, 30, .wo, 0, 1, 0⟩
def ROUTER_PROBE_SEL_TRACE : Fld := ⟨0x020, 29, 29, .rw, 0, 1, 0⟩
def ROUTER_PROBE_SEL_SIDE : Fld := ⟨0x020, 11, 10, .rw, 0, 1, 0⟩
def ROUTER_PROBE_SEL_PORT : Fld := ⟨0x020, 7, 5, .rw, 0, 1, 0⟩
def ROUTER_PROBE_SEL_EVENT : Fld := ⟨0x020, 4, 0, .rw, 0, 1, 0⟩
def ROUTER_PROBE_FILTER_VN_MASK : Fld := ⟨0x024, 31, 28, .rw, 15, 1, 0⟩
def ROUTER_PROBE_FILTER_SRC_EN : Fld := ⟨0x024, 27, 27, .rw, 0, 1, 0⟩
def ROUTER_PROBE_FILTER_DST_EN : Fld := ⟨0x024, 26, 26, .rw, 0, 1, 0⟩
def ROUTER_PROBE_FILTER_SRC : Fld := ⟨0x024, 23, 16, .rw, 0, 1, 0⟩
def ROUTER_PROBE_FILTER_DST : Fld := ⟨0x024, 15, 8, .rw, 0, 1, 0⟩
def ROUTER_PROBE_FILTER_CMD_EN : Fld := ⟨0x024, 7, 7, .rw, 0, 1, 0⟩
def ROUTER_PROBE_FILTER_CMD : Fld := ⟨0x024, 5, 0, .rw, 0, 1, 0⟩

/-- Register fields of the device block at 0x040 and above. -/
def deviceFields : List Fld :=
  [DEVICE_SERVICE_LEVEL, DEVICE_SERVICE_GENERATION, DEVICE_SERVICE_NO_DRIVE_PATH, DEVICE_SERVICE_NO_GALLEY_ROW, DEVICE_SERVICE_NO_REEL, DEVICE_SERVICE_NO_STONE_OWNER, DEVICE_SERVICE_NO_FEED_PATH, DEVICE_SERVICE_NO_PAIR, DEVICE_SERVICE_NO_CONSOLE, DEVICE_UNITS_GALLEY_ROWS, DEVICE_UNITS_REEL_STACKS, DEVICE_UNITS_FEED_PORTS] ++
  [DEVICE_UNITS_WEBS, DEVICE_UNITS_COMP_CORES, DEVICE_UNITS_STONE_BANKS, DEVICE_UNITS_ROUTERS, DEVICE_CAPACITY_SLOTS_K, DEVICE_CAPACITY_RESERVABLE_GBS, DEVICE_CAPACITY_RATE_MSAS]

/-- Register fields of the colophon block at 0x040 and above. -/
def colophonFields : List Fld :=
  [COLOPHON_STATUS_FW_VERSION, COLOPHON_STATUS_BOOT_MODE, COLOPHON_STATUS_RECOVERY, COLOPHON_STATUS_TRIAL, COLOPHON_STATUS_SLOT, COLOPHON_STATUS_READY, COLOPHON_PAIR_CONFIRM_PORT, COLOPHON_PAIR_CONFIRM_CODE, COLOPHON_SENSOR_INDEX_INDEX, COLOPHON_SENSOR_VALUE, COLOPHON_SENSOR_LOWER, COLOPHON_SENSOR_UPPER] ++
  [COLOPHON_JOURNAL_SEQ_LO, COLOPHON_JOURNAL_SEQ_HI, COLOPHON_JOURNAL_DROPS, COLOPHON_MB_BUSY_RINGS]

/-- Register fields of the crypto block at 0x040 and above. -/
def cryptoFields : List Fld :=
  [CRYPTO_STATUS_OWNER_SLOT, CRYPTO_STATUS_DEBUG_LOCKED, CRYPTO_STATUS_DRBG_FAULT, CRYPTO_STATUS_OWNED, CRYPTO_STATUS_IDENTITY_READY, CRYPTO_SERIAL_LO, CRYPTO_SERIAL_HI, CRYPTO_SIG_COUNTER_LO, CRYPTO_SIG_COUNTER_HI, CRYPTO_ROLLBACK_OWNER, CRYPTO_ROLLBACK_FRISKET, CRYPTO_ROLLBACK_PATCH] ++
  [CRYPTO_ROLLBACK_FW]

/-- Register fields of the feed block at 0x040 and above. -/
def feedFields : List Fld :=
  [FEED_CTRL_LLDP_INTERVAL, FEED_CTRL_PAIRING, FEED_CTRL_PTP_ONE_STEP, FEED_CTRL_PTP_PDELAY, FEED_CTRL_PTP_UNCONTROLLED, FEED_CTRL_RS_FEC, FEED_CTRL_SPEED, FEED_CTRL_ENABLE, FEED_STATUS_FEEDERS, FEED_STATUS_PAIRING_ACTIVE, FEED_STATUS_SECURED, FEED_STATUS_FEC_ACTIVE] ++
  [FEED_STATUS_SPEED_ACTIVE, FEED_STATUS_LINK, FEED_RX_FRAMES_LO, FEED_RX_FRAMES_HI, FEED_TX_FRAMES_LO, FEED_TX_FRAMES_HI, FEED_RX_RUNT, FEED_RX_OVERSIZE, FEED_RX_FCS_ERR, FEED_RX_PAUSE, FEED_RX_OTHER, FEED_RX_UNSECURED] ++
  [FEED_MACSEC_BAD_ICV, FEED_MACSEC_LATE, FEED_FEC_CORRECTED, FEED_FEC_UNCORR, FEED_LINK_LOSSES, FEED_MAC_LO, FEED_MAC_HI, FEED_LLDP_SERIAL_LO, FEED_LLDP_SERIAL_HI, FEED_REPLAY_WINDOW]

/-- Register fields of the sheet block at 0x040 and above. -/
def sheetFields : List Fld :=
  [SHEET_FT_CTRL_HOLD_S, SHEET_FT_CTRL_LIVE_MS, SHEET_FT_INDEX_EVICT, SHEET_FT_INDEX_INDEX, SHEET_FT_ENTRY_HANDLE, SHEET_FT_ENTRY_STREAMS, SHEET_FT_ENTRY_PORT, SHEET_FT_ENTRY_STATE, SHEET_ETHERTYPE_ETHERTYPE, SHEET_TS_TOL_TOL_NS, SHEET_EXCQ_STATUS_DEPTH, SHEET_BAD_VERSION] ++
  [SHEET_BAD_KIND, SHEET_BAD_HANDLE, SHEET_BAD_STREAM, SHEET_BAD_FORMAT, SHEET_BAD_SHAPE, SHEET_DEEP_NEST, SHEET_EXCQ_DROPS, SHEET_SEQ_GAPS, SHEET_SEQ_OLD, SHEET_TS_SKEW, SHEET_FEEDER_UNLOCKED, SHEET_LATE_SAMPLES_LO] ++
  [SHEET_LATE_SAMPLES_HI, SHEET_EARLY_SAMPLES_LO, SHEET_EARLY_SAMPLES_HI, SHEET_UNBOUND_SAMPLES_LO, SHEET_UNBOUND_SAMPLES_HI, SHEET_MARKER_CLASH, SHEET_FT_SERIAL_LO, SHEET_FT_SERIAL_HI, SHEET_FT_AGE_MS, SHEET_HELLO_BAD, SHEET_HELLO_REFUSED, SHEET_PORT_DISCARDS]

/-- Register fields of the impose block at 0x040 and above. -/
def imposeFields : List Fld :=
  [IMPOSE_IMAGE_SLOTS_SLOTS, IMPOSE_COMMIT_GO, IMPOSE_STATUS_ERROR, IMPOSE_STATUS_ERR_SLOT, IMPOSE_STATUS_WAITING, IMPOSE_STATUS_VALIDATING, IMPOSE_GENERATION_GENERATION, IMPOSE_SLOT_INDEX_INDEX, IMPOSE_SLOT_STATE_OVR, IMPOSE_SLOT_STATE_STATE, IMPOSE_SLOT_EXPECTED_LO, IMPOSE_SLOT_EXPECTED_HI] ++
  [IMPOSE_SLOT_RECEIVED_LO, IMPOSE_SLOT_RECEIVED_HI, IMPOSE_SLOT_GAPFILL_LO, IMPOSE_SLOT_GAPFILL_HI, IMPOSE_SLOT_NEXT_LO, IMPOSE_SLOT_NEXT_HI, IMPOSE_IMAGE_LO, IMPOSE_IMAGE_HI, IMPOSE_APPLIED_BLOCK_LO, IMPOSE_APPLIED_BLOCK_HI]

/-- Register fields of the drive block at 0x040 and above. -/
def driveFields : List Fld :=
  [DRIVE_CTRL_FADE_CLEAR, DRIVE_CTRL_FADE_REQ, DRIVE_CTRL_ENABLE, DRIVE_FADE_MS_RAMP_MS, DRIVE_FADE_STATUS_CAUSES, DRIVE_FADE_STATUS_STATE, DRIVE_LEAD_BLOCKS, DRIVE_GRP_INDEX_INDEX, DRIVE_GRP_CFG_PORTS, DRIVE_GRP_CFG_FADE, DRIVE_GRP_CFG_TIME, DRIVE_GRP_CFG_VALID] ++
  [DRIVE_TIME_EVERY_EVERY, DRIVE_UNDELIVERED, DRIVE_SATURATED, DRIVE_NAN, DRIVE_REPEATS, DRIVE_AREA_LO, DRIVE_AREA_HI, DRIVE_BUF_WORDS, DRIVE_IMAGE_LO, DRIVE_IMAGE_HI, DRIVE_IMAGE_ENTRIES, DRIVE_COMMIT_GO] ++
  [DRIVE_COMMIT_STATUS_ERROR, DRIVE_COMMIT_STATUS_ERR_ENTRY, DRIVE_GRP_MAC_LO, DRIVE_GRP_MAC_HI, DRIVE_GRP_MISSED]

/-- Register fields of the ptp block at 0x040 and above. -/
def ptpFields : List Fld :=
  [PTP_CTRL_DOMAIN, PTP_CTRL_PPS_OUT_EN, PTP_CTRL_ROLE, PTP_STATUS_SLAVE_PORT, PTP_STATUS_TIME_SET, PTP_STATUS_PPS_FAULT, PTP_STATUS_HOLDOVER, PTP_STATUS_LOCKED, PTP_TIME_NS, PTP_TIME_SEC_LO, PTP_TIME_SEC_HI, PTP_ADJ_FREQ] ++
  [PTP_ADJ_STEP, PTP_TOD_NEXT_SEC_LO, PTP_TOD_NEXT_SEC_HI]

/-- Register fields of the forme block at 0x040 and above. -/
def formeFields : List Fld :=
  [FORME_CTRL_DEBUG_EN, FORME_CTRL_E_CLEAR, FORME_STATUS_ROWS, FORME_STATUS_IO_BUSY, FORME_STATUS_MIGRATING, FORME_STATUS_E_ANY, FORME_TAPS_TAP, FORME_E_FIRST_VALID, FORME_E_FIRST_CHECK, FORME_E_FIRST_POSITION, FORME_E_UADDR_UADDR, FORME_E_COUNT] ++
  [FORME_CORRECTED, FORME_SCRUB_PASSES, FORME_MIGRATIONS, FORME_IO_TRUNC, FORME_ROWMAP_LO, FORME_ROWMAP_HI]

/-- Register fields of the galley block at 0x040 and above. -/
def galleyFields : List Fld :=
  [GALLEY_REMAP_PENDING, GALLEY_REMAP_RETIRED, GALLEY_COL_RETIRED_PENDING, GALLEY_COL_RETIRED_COLUMN, GALLEY_E_MAP_GALLEYS, GALLEY_DBG_ADDR_FLAGS, GALLEY_DBG_ADDR_GALLEY, GALLEY_DBG_ADDR_COLUMN, GALLEY_DBG_ADDR_ROW, GALLEY_DBG_ADDR_WORD, GALLEY_DBG_DATA, GALLEY_DBG_STATUS_UNCORR] ++
  [GALLEY_DBG_STATUS_BUSY, GALLEY_CORRECTED]

/-- Register fields of the compositor block at 0x040 and above. -/
def compositorFields : List Fld :=
  [COMP_PAIR_SPARE, COMP_PAIR_SECOND, COMP_PAIR_FIRST, COMP_PAIR_TRIO, COMP_PAIR_PAIR_OK, COMP_CORE_STATE_CORE2, COMP_CORE_STATE_CORE1, COMP_CORE_STATE_CORE0, COMP_SEQ_CTRL_REARM, COMP_SEQ_CTRL_FLUSH, COMP_SEQ_CTRL_ENABLE, COMP_SEQ_STATUS_UADDR] ++
  [COMP_SEQ_STATUS_DEPTH, COMP_SEQ_STATUS_DISCARDING, COMP_SEQ_STATUS_BUSY, COMP_ROUTINE_BUDGET, COMP_ABANDON_CAUSE, COMP_ABANDON_OPCODE, COMP_ABANDON_UADDR, COMP_IMP_STATUS_RECOMPUTING, COMP_IMP_STATUS_VOID, COMP_IMP_CTRL_END, COMP_MISMATCHES, COMP_XCHECK_DIFFS] ++
  [COMP_REFUSED, COMP_ABANDONS, COMP_DISCARDED, COMP_VOIDS, COMP_RECOMPUTES, COMP_ICB_LO, COMP_ICB_HI]

/-- Register fields of the cstore block at 0x040 and above. -/
def cstoreFields : List Fld :=
  [CSTORE_STATUS_PATCH_VERSION, CSTORE_STATUS_MATCHES, CSTORE_STATUS_PATCH_OK, CSTORE_STATUS_OWNER_ONLY, CSTORE_STATUS_STAGED, CSTORE_DISPATCH_INDEX_INDEX, CSTORE_DISPATCH_ENTRY_VALID, CSTORE_DISPATCH_ENTRY_UADDR, CSTORE_MATCH_INDEX_INDEX, CSTORE_MATCH_VALID, CSTORE_MATCH_PATCH, CSTORE_MATCH_ROM_UADDR] ++
  [CSTORE_CORRECTED, CSTORE_UNCORR]

/-- Register fields of the web block at 0x040 and above. -/
def webFields : List Fld :=
  [WEB_CTRL_FLUSH, WEB_CTRL_ENABLE, WEB_STATUS_FLUSHING, WEB_STATUS_HAZARD_WAIT, WEB_STATUS_RUNNING, WEB_STATUS_JOB_DEPTH, WEB_STATUS_SP_DEPTH, WEB_QCFG_JOB_COUNT_LOG2, WEB_QCFG_JOB_SLOTS, WEB_CREC_CFG_EN, WEB_CREC_CFG_LOG2, WEB_SP_PENDING_PENDING] ++
  [WEB_LAST_ERROR_STATUS, WEB_LAST_ERROR_CAUSE, WEB_LAST_ERROR_TAG, WEB_CHAINS_LO, WEB_CHAINS_HI, WEB_REFUSED, WEB_DISCARDED, WEB_FLUSHED, WEB_HAZARD_WAITS, WEB_SUBMIT_LO, WEB_SUBMIT_HI, WEB_CREC_LO] ++
  [WEB_CREC_HI, WEB_CREC_HEAD, WEB_LAST_SEQ, WEB_FAULT_ADDR_LO, WEB_FAULT_ADDR_HI]

/-- Register fields of the stone block at 0x040 and above. -/
def stoneFields : List Fld :=
  [STONE_BANKS_IN_SERVICE, STONE_SCRUB_STATUS_LATE, STONE_SCRUB_STATUS_POS, STONE_CORRECTED, STONE_UNCORR, STONE_SCRUB_PASSES, STONE_SCRUB_LATE, STONE_REGION_REFUSED, STONE_REGION_SEL_MASTER, STONE_REGION_SEL_REGION, STONE_REGION_BASE_LO_BASE_LO, STONE_REGION_BASE_HI_BASE_HI] ++
  [STONE_REGION_SIZE_SIZE, STONE_REGION_RIGHTS_WHOLE, STONE_REGION_RIGHTS_W, STONE_REGION_RIGHTS_R, STONE_LEDGER_INDEX_INDEX, STONE_LEDGER_COMMIT_GO, STONE_LEDGER_STATUS_ERROR, STONE_LEDGER_STATUS_IMPOSE_HELD, STONE_LEDGER_STATUS_CHECKING, STONE_REGION_LAST_LO, STONE_REGION_LAST_WRITE, STONE_REGION_LAST_MASTER] ++
  [STONE_REGION_LAST_ADDR_HI, STONE_LEDGER_MASTER, STONE_LEDGER_RATE, STONE_LEDGER_TOTAL, STONE_LEDGER_CAPACITY, STONE_LEDGER_INFORCE, STONE_OWNER_BYTE0, STONE_OWNER_BYTE1, STONE_OWNER_BYTE2, STONE_OWNER_BYTE3]

/-- Register fields of the reel block at 0x040 and above. -/
def reelFields : List Fld :=
  [REEL_STATUS_TEMP_C, REEL_STATUS_BAND, REEL_STATUS_SCRUB_BEHIND, REEL_STATUS_RETRAINING, REEL_STATUS_SELF_REFRESH, REEL_STATUS_IN_SERVICE, REEL_CFG_RETRAIN_MS, REEL_CFG_SCRUB_H, REEL_CAL_OFFSET_OFFSET_NS, REEL_SCRUB_POS_POS, REEL_CORRECTED, REEL_UNCORR] ++
  [REEL_SCRUB_PASSES, REEL_BAND_CHANGES, REEL_RETRAINS, REEL_LAST_UNCORR_LO, REEL_LAST_UNCORR_HI]

/-- Register fields of the noc block at 0x040 and above. -/
def nocFields : List Fld :=
  [NOC_CTRL_RESP_TIMEOUT_US, NOC_FLOW_INDEX_INDEX, NOC_FLOW_CFG_SRC, NOC_FLOW_CFG_DST, NOC_FLOW_CFG_VALID, NOC_FLOW_CFG_SLOTS, NOC_FLOW_FIRST_FIRST, NOC_FLOW_STATUS_ERROR, NOC_FLOW_STATUS_ERR_FLOW, NOC_FLOW_STATUS_CHECKING, NOC_FLOW_INFORCE_SRC, NOC_FLOW_INFORCE_DST] ++
  [NOC_FLOW_INFORCE_VALID, NOC_FLOW_INFORCE_SLOTS, NOC_FLOW_COMMIT_GO, NOC_TIMEOUTS, NOC_LATE_RESPONSES]

/-- Register fields of the evt block at 0x040 and above. -/
def evtFields : List Fld :=
  [EVT_FILT_LEVEL, EVT_FILT_EDGE, EVT_FILT_STABLE_AC, EVT_LEVELS, EVT_SOFT_RAISE_INDEX, EVT_PX_THRESH, EVT_PX_STACK_IN_SERVICE, EVT_PX_STACK_DEPTH, EVT_PX_STACK_EMPTY, EVT_PX_STACK_TOP, EVT_PX_PRESENT_NORM_REQ, EVT_PX_PRESENT_NORM_LEVEL] ++
  [EVT_PX_PRESENT_FAST_REQ, EVT_PX_PRESENT_FAST_LEVEL, EVT_PX_EOI_LEVEL, EVT_PX_STATUS_STACK_ERROR, EVT_PX_STATUS_EOI_ERROR, EVT_PX_STATUS_EOI_EMPTY, EVT_PX_STATUS_EOI_WRITTEN, EVT_PX_STATUS_EOI_TOP, EVT_PX_CTRL_STACK_RESET, EVT_EOI_ERRORS, EVT_STACK_ERRORS, EVT_FILTER_REJECTS] ++
  [EVT_CONFIG_COPY]

/-- Register fields of the evtCfg block at 0x040 and above. -/
def evtCfgFields : List Fld :=
  [EVT_SRC_CFG_TARGET, EVT_SRC_CFG_VECTOR, EVT_SRC_CFG_PRIO, EVT_SRC_CFG_CLASS, EVT_SRC_CFG_COUNT, EVT_SRC_PEND, EVT_SRC_EN]

/-- Register fields of the evtTime block at 0x040 and above. -/
def evtTimeFields : List Fld :=
  [EVT_SRC_COAL_TIME_AC]

/-- Register fields of the evtCnt block at 0x040 and above. -/
def evtCntFields : List Fld :=
  [EVT_SRC_CNT, EVT_SRC_NZ]

/-- Register fields of the fault block at 0x040 and above. -/
def faultFields : List Fld :=
  [FAULT_CTRL_STICKY, FAULT_CTRL_LATCH_MIN, FAULT_CTRL_FIRST_CLEAR, FAULT_STATUS_ALIVE_LEVEL, FAULT_STATUS_ALIVE_RUNNING, FAULT_STATUS_HB_MISSED, FAULT_STATUS_LOG_OVERFLOW, FAULT_STATUS_OVERFLOW, FAULT_STATUS_FIRST_VALID, FAULT_STATUS_FATAL, FAULT_FATAL_VALID, FAULT_FATAL_KIND] ++
  [FAULT_FATAL_SRC, FAULT_SRC_INDEX_INDEX, FAULT_SRC_COUNT_FLOOR, FAULT_SRC_COUNT, FAULT_LOG_INDEX_POSITION, FAULT_RETIRE_CFG_WINDOW_H, FAULT_RETIRE_CFG_CORE_LIMIT, FAULT_RETIRE_CFG_GALLEY_LIMIT, FAULT_RETIRE_CFG_COL_LIMIT, FAULT_ALIVE_ENABLE, FAULT_ALIVE_HALF_AC, FAULT_HEARTBEAT_KICK] ++
  [FAULT_HB_CFG_TIMEOUT_MS, FAULT_RETIRE_LAST_UNIT, FAULT_RETIRE_LAST_CORE, FAULT_RETIRE_LAST_POSITION, FAULT_LOG_DROPPED, FAULT_MESSAGES_LO, FAULT_MESSAGES_HI, FAULT_BAD_CODES, FAULT_FIRST_SRC_SEVERITY, FAULT_FIRST_SRC_SOURCE, FAULT_FIRST_KIND, FAULT_FIRST_DETAIL] ++
  [FAULT_FIRST_ADDR_LO, FAULT_FIRST_ADDR_HI, FAULT_FIRST_TIME_LO, FAULT_FIRST_TIME_HI, FAULT_LOG_HEAD_LO, FAULT_LOG_HEAD_HI, FAULT_LOG_DATA, FAULT_SEV]

/-- Register fields of the host block at 0x040 and above. -/
def hostFields : List Fld :=
  [HOST_LINK_SPEED, HOST_LINK_WIDTH, HOST_LINK_L1, HOST_LINK_PERST, HOST_LINK_LINK_UP, HOST_CA_COUNT, HOST_POSTED_DROPS, HOST_CPL_ERRORS, HOST_RESETS, HOST_BAR4_BASE_WINDOW_GIB]

/-- Register fields of the jobs block at 0x040 and above. -/
def jobsFields : List Fld :=
  [JOBS_CTRL_ENABLE, JOBS_STATUS_OUTSTANDING, JOBS_STATUS_STOPPED, JOBS_SP_CTRL_STOP, JOBS_SP_CTRL_START, JOBS_SP_STATUS_LOAD_ERROR, JOBS_SP_STATUS_TRIGGER, JOBS_SP_STATUS_RUNNING, JOBS_SP_STATUS_LOADED, JOBS_SP_PERIOD_NS_P, JOBS_SP_LAG_NS_LAG, JOBS_SP_REF_SLOT_SLOT] ++
  [JOBS_SP_GRACE_NS_GRACE, JOBS_IMP_COUNT, JOBS_SP_BLOCK0_LO, JOBS_SP_BLOCK0_HI, JOBS_IMP_LAST_NS, JOBS_IMP_MAX_NS, JOBS_IMP_RECOMP_MAX_NS, JOBS_CALL_RESULT, JOBS_CALL_DONE_FAIL, JOBS_CALL_STATUS_QUEUED, JOBS_HALF_PRESS_EXCEEDED, JOBS_IMP_SKIPPED] ++
  [JOBS_TICKETS_IGNORED, JOBS_TICKETS_DISCARDED, JOBS_DOORBELL_IGNORED, JOBS_LOST_COMPLETIONS, JOBS_TICKETS_LO, JOBS_TICKETS_HI, JOBS_SQ_BASE_LO_ADDR, JOBS_SQ_BASE_LO_HOST, JOBS_SQ_BASE_HI_ADDR, JOBS_RING_CFG_ENABLE, JOBS_RING_CFG_LOG2, JOBS_SQ_TAIL_TAIL] ++
  [JOBS_CQ_HEAD_HEAD, JOBS_RING_STATUS_NO_CQ_ROOM, JOBS_RING_STATUS_IDLE, JOBS_RING_STATUS_OUTSTANDING, JOBS_CALL_AREA_LO, JOBS_CALL_AREA_HI, JOBS_CQ_BASE_LO_ADDR, JOBS_CQ_BASE_LO_HOST, JOBS_CQ_BASE_HI_ADDR]

/-- Register fields of the logport block at 0x040 and above. -/
def logportFields : List Fld :=
  [LOG_CTRL_MIRROR, LOG_CTRL_ENABLE, LOG_STATUS_RUN_OPEN, LOG_STATUS_FULL, LOG_STATUS_DRIVE_FAILED, LOG_STATUS_DRIVE_READY, LOG_DATA_LBA_LO, LOG_DATA_LBA_HI, LOG_DATA_BLOCKS_BLOCKS, LOG_SIG_LBA_LO, LOG_SIG_LBA_HI, LOG_SIG_RECORDS_RECORDS] ++
  [LOG_WRITTEN_LO, LOG_WRITTEN_HI, LOG_RELEASE_LO, LOG_RELEASE_HI, LOG_WRITE_ERRORS, LOG_BYTES_LOST_LO, LOG_BYTES_LOST_HI]

/-- Register fields of the frisket block at 0x040 and above. -/
def frisketFields : List Fld :=
  [FRISKET_STATUS_STATE, FRISKET_CTRL_RESET1, FRISKET_TREE_SRC, FRISKET_SYNC_TRIG_TREE, FRISKET_SYNC_TAP_TREE, FRISKET_RESET_SRC_GR1_SRC, FRISKET_GPIO_CFG_SAFE_OE, FRISKET_GPIO_CFG_SAFE_VALUE, FRISKET_GPIO_CFG_RAW, FRISKET_GPIO_CFG_SYNC_TREE, FRISKET_TRIG_CFG_F32, FRISKET_TRIG_CFG_KIND] ++
  [FRISKET_TRIG_CFG_SLOT, FRISKET_TRIG_LEVEL, FRISKET_CFG_CORRECTED, FRISKET_FADE_REQUESTS]

/-- Register fields of the power block at 0x040 and above. -/
def powerFields : List Fld :=
  [POWER_SEL_DOMAIN, POWER_REQ_STATE, POWER_SLEEP_STATUS_WAKE_SRC, POWER_SLEEP_STATUS_REASON, POWER_SLEEP_STATUS_OUTCOME, POWER_SLEEP_STATUS_STATE, POWER_IDLE_CFG_AUTO, POWER_IDLE_CFG_IDLE_DELAY_NC, POWER_CTRL_COLO_READY, POWER_CTRL_WAKE_ALL, POWER_CTRL_HOLD_ALL, POWER_DEVICE_STATUS_STATE] ++
  [POWER_ALARM_CFG_ARMED, POWER_WAKE_SEL_SOURCE, POWER_EVT_WAKE_LINES, POWER_ALARM_LO, POWER_ALARM_HI, POWER_WAKE_MAP_LO, POWER_WAKE_MAP_HI, POWER_ASLEEP_LO, POWER_ASLEEP_HI, POWER_REFUSED, POWER_ABANDONED, POWER_WAKES]

/-- Register fields of the clock block at 0x040 and above. -/
def clockFields : List Fld :=
  [CLOCK_PLL_STATUS_LOCKED, CLOCK_LOCK_LOSSES]

/-- Register fields of the router block at 0x040 and above. -/
def routerFields : List Fld :=
  [ROUTER_STATUS_LINK_DOWN, ROUTER_STATUS_HOLDING, ROUTER_STATUS_IN_SERVICE, ROUTER_CRC_RETRIES, ROUTER_SEQ_GAPS, ROUTER_SEQ_OLD, ROUTER_HELD, ROUTER_CREDIT_FAULTS, ROUTER_DISCARDS, ROUTER_TRACE_CTRL_INDEX, ROUTER_TRACE_CTRL_COUNT, ROUTER_XDIR] ++
  [ROUTER_YDIR, ROUTER_TRACE_HDR_LO, ROUTER_TRACE_HDR_HI, ROUTER_TRACE_TIME, ROUTER_PROBE_SEL_OVF, ROUTER_PROBE_SEL_CLEAR, ROUTER_PROBE_SEL_TRACE, ROUTER_PROBE_SEL_SIDE, ROUTER_PROBE_SEL_PORT, ROUTER_PROBE_SEL_EVENT, ROUTER_PROBE_FILTER_VN_MASK, ROUTER_PROBE_FILTER_SRC_EN] ++
  [ROUTER_PROBE_FILTER_DST_EN, ROUTER_PROBE_FILTER_SRC, ROUTER_PROBE_FILTER_DST, ROUTER_PROBE_FILTER_CMD_EN, ROUTER_PROBE_FILTER_CMD]

/-- The blocks of the page index (R888); the four EVT pages are told apart. -/
inductive Block where
  | device | colophon | crypto | feed | sheet | impose | drive | ptp | forme | galley | compositor | cstore | web | stone | reel | noc | evt | evtCfg | evtTime | evtCnt | fault | host | jobs | logport | frisket | power | clock | router
deriving DecidableEq, Repr

/-- The fields of a block at 0x040 and above. -/
def blockFields : Block → List Fld
  | .device => deviceFields
  | .colophon => colophonFields
  | .crypto => cryptoFields
  | .feed => feedFields
  | .sheet => sheetFields
  | .impose => imposeFields
  | .drive => driveFields
  | .ptp => ptpFields
  | .forme => formeFields
  | .galley => galleyFields
  | .compositor => compositorFields
  | .cstore => cstoreFields
  | .web => webFields
  | .stone => stoneFields
  | .reel => reelFields
  | .noc => nocFields
  | .evt => evtFields
  | .evtCfg => evtCfgFields
  | .evtTime => evtTimeFields
  | .evtCnt => evtCntFields
  | .fault => faultFields
  | .host => hostFields
  | .jobs => jobsFields
  | .logport => logportFields
  | .frisket => frisketFields
  | .power => powerFields
  | .clock => clockFields
  | .router => routerFields

/-- First page of a block (R888). -/
def blockBase : Block → Nat
  | .device => 0x000
  | .colophon => 0x001
  | .crypto => 0x002
  | .feed => 0x010
  | .sheet => 0x020
  | .impose => 0x021
  | .drive => 0x022
  | .ptp => 0x023
  | .forme => 0x030
  | .galley => 0x031
  | .compositor => 0x050
  | .cstore => 0x051
  | .web => 0x060
  | .stone => 0x070
  | .reel => 0x078
  | .noc => 0x080
  | .evt => 0x090
  | .evtCfg => 0x091
  | .evtTime => 0x092
  | .evtCnt => 0x093
  | .fault => 0x0A0
  | .host => 0x0B0
  | .jobs => 0x0B1
  | .logport => 0x0B8
  | .frisket => 0x0C0
  | .power => 0x0D0
  | .clock => 0x0D1
  | .router => 0x100

/-- PAGE_CAPS.SOFT_RESET of a block's pages (R888). -/
def blockSoftReset : Block → Bool
  | .device => false
  | .colophon => false
  | .crypto => false
  | .feed => true
  | .sheet => true
  | .impose => true
  | .drive => true
  | .ptp => true
  | .forme => true
  | .galley => true
  | .compositor => true
  | .cstore => false
  | .web => true
  | .stone => true
  | .reel => true
  | .noc => true
  | .evt => false
  | .evtCfg => false
  | .evtTime => false
  | .evtCnt => false
  | .fault => false
  | .host => true
  | .jobs => true
  | .logport => true
  | .frisket => true
  | .power => false
  | .clock => false
  | .router => true

/-- PAGE_CAPS.LOCKABLE of a block's pages (R888). -/
def blockLockable : Block → Bool
  | .device => false
  | .colophon => true
  | .crypto => false
  | .feed => true
  | .sheet => true
  | .impose => false
  | .drive => true
  | .ptp => true
  | .forme => true
  | .galley => false
  | .compositor => true
  | .cstore => true
  | .web => true
  | .stone => true
  | .reel => true
  | .noc => true
  | .evt => false
  | .evtCfg => true
  | .evtTime => false
  | .evtCnt => false
  | .fault => true
  | .host => false
  | .jobs => true
  | .logport => true
  | .frisket => true
  | .power => false
  | .clock => false
  | .router => true

/-- PAGE_CAPS.EVENT_BITS of a block's pages, from the block's chapter. -/
def blockEventBits : Block → Nat
  | .device => 0
  | .colophon => 5
  | .crypto => 0
  | .feed => 6
  | .sheet => 2
  | .impose => 3
  | .drive => 5
  | .ptp => 1
  | .forme => 4
  | .galley => 3
  | .compositor => 7
  | .cstore => 3
  | .web => 5
  | .stone => 5
  | .reel => 4
  | .noc => 4
  | .evt => 4
  | .evtCfg => 0
  | .evtTime => 0
  | .evtCnt => 0
  | .fault => 6
  | .host => 3
  | .jobs => 5
  | .logport => 4
  | .frisket => 3
  | .power => 6
  | .clock => 3
  | .router => 5

/-- The EVT_PEND bit COUNTER_SATURATED of a block, where its chapter names one. -/
def blockSatBit : Block → Option Nat
  | .device => none
  | .colophon => some 4
  | .crypto => none
  | .feed => some 5
  | .sheet => some 0
  | .impose => none
  | .drive => some 2
  | .ptp => none
  | .forme => some 2
  | .galley => some 1
  | .compositor => some 5
  | .cstore => some 1
  | .web => some 4
  | .stone => some 1
  | .reel => some 2
  | .noc => some 2
  | .evt => some 2
  | .evtCfg => none
  | .evtTime => none
  | .evtCnt => none
  | .fault => some 4
  | .host => some 2
  | .jobs => some 4
  | .logport => some 3
  | .frisket => some 2
  | .power => some 4
  | .clock => some 2
  | .router => some 2

/-- The block and instance of a register page (R888); none for a page the index does not assign. -/
def pageBlock (p : Nat) : Option (Block × Nat) :=
  if p = 0x000 then some (.device, 0) else
  if p = 0x001 then some (.colophon, 0) else
  if p = 0x002 then some (.crypto, 0) else
  if 0x010 ≤ p ∧ p < 0x020 then some (.feed, p - 0x010) else
  if p = 0x020 then some (.sheet, 0) else
  if p = 0x021 then some (.impose, 0) else
  if p = 0x022 then some (.drive, 0) else
  if p = 0x023 then some (.ptp, 0) else
  if p = 0x030 then some (.forme, 0) else
  if 0x031 ≤ p ∧ p < 0x041 then some (.galley, p - 0x031) else
  if p = 0x050 then some (.compositor, 0) else
  if p = 0x051 then some (.cstore, 0) else
  if 0x060 ≤ p ∧ p < 0x068 then some (.web, p - 0x060) else
  if p = 0x070 then some (.stone, 0) else
  if 0x078 ≤ p ∧ p < 0x07C then some (.reel, p - 0x078) else
  if p = 0x080 then some (.noc, 0) else
  if p = 0x090 then some (.evt, 0) else
  if p = 0x091 then some (.evtCfg, 0) else
  if p = 0x092 then some (.evtTime, 0) else
  if p = 0x093 then some (.evtCnt, 0) else
  if p = 0x0A0 then some (.fault, 0) else
  if p = 0x0B0 then some (.host, 0) else
  if p = 0x0B1 then some (.jobs, 0) else
  if 0x0B8 ≤ p ∧ p < 0x0BA then some (.logport, p - 0x0B8) else
  if p = 0x0C0 then some (.frisket, 0) else
  if p = 0x0D0 then some (.power, 0) else
  if p = 0x0D1 then some (.clock, 0) else
  if 0x100 ≤ p ∧ p < 0x140 then some (.router, p - 0x100) else
  none

/-! ## The pages by name -/

/-- Page number of the DEVICE page. -/
abbrev pgDEVICE : Nat := 0x000
/-- Page number of the COLOPHON page. -/
abbrev pgCOLOPHON : Nat := 0x001
/-- Page number of the CRYPTO page. -/
abbrev pgCRYPTO : Nat := 0x002
/-- Page number of FEED page i. -/
def pgFEED (i : Nat) : Nat := 0x010 + i
/-- Page number of the SHEET page. -/
abbrev pgSHEET : Nat := 0x020
/-- Page number of the IMPOSE page. -/
abbrev pgIMPOSE : Nat := 0x021
/-- Page number of the DRIVE page. -/
abbrev pgDRIVE : Nat := 0x022
/-- Page number of the PTP page. -/
abbrev pgPTP : Nat := 0x023
/-- Page number of the FORME page. -/
abbrev pgFORME : Nat := 0x030
/-- Page number of GALLEY page i. -/
def pgGALLEY (i : Nat) : Nat := 0x031 + i
/-- Page number of the COMPOSITOR page. -/
abbrev pgCOMPOSITOR : Nat := 0x050
/-- Page number of the CSTORE page. -/
abbrev pgCSTORE : Nat := 0x051
/-- Page number of WEB page i. -/
def pgWEB (i : Nat) : Nat := 0x060 + i
/-- Page number of the STONE page. -/
abbrev pgSTONE : Nat := 0x070
/-- Page number of REEL page i. -/
def pgREEL (i : Nat) : Nat := 0x078 + i
/-- Page number of the NOC page. -/
abbrev pgNOC : Nat := 0x080
/-- Page number of the EVT page. -/
abbrev pgEVT : Nat := 0x090
/-- Page number of the EVTCFG page. -/
abbrev pgEVTCFG : Nat := 0x091
/-- Page number of the EVTTIME page. -/
abbrev pgEVTTIME : Nat := 0x092
/-- Page number of the EVTCNT page. -/
abbrev pgEVTCNT : Nat := 0x093
/-- Page number of the FAULT page. -/
abbrev pgFAULT : Nat := 0x0A0
/-- Page number of the HOST page. -/
abbrev pgHOST : Nat := 0x0B0
/-- Page number of the JOBS page. -/
abbrev pgJOBS : Nat := 0x0B1
/-- Page number of LOGPORT page i. -/
def pgLOGPORT (i : Nat) : Nat := 0x0B8 + i
/-- Page number of the FRISKET page. -/
abbrev pgFRISKET : Nat := 0x0C0
/-- Page number of the POWER page. -/
abbrev pgPOWER : Nat := 0x0D0
/-- Page number of the CLOCK page. -/
abbrev pgCLOCK : Nat := 0x0D1
/-- Page number of ROUTER page i. -/
def pgROUTER (i : Nat) : Nat := 0x100 + i

end Sys2Proof.Machine
end

