-- ==== Sys2Proof/Machine/State.lean ====
section
/-!
DEFINITION. The state of the EVS-1650 block as plain data: every register page, memory, table, queue, buffer, mode
and pin the specification names, the queue of waiting commands, and what the block has sent out.
-/
namespace Sys2Proof.Machine

/-! ## What the block sends out -/

/-- What the world outside the block sees it do: frames, messages, answers. The model's own record, oldest first. -/
inductive Output where
  /-- A memory access answered to a master: granted with its data, or an error response (R52, R522, R540). -/
  | memory (master : Nat) (ok : Bool) (data : List Byte)
  /-- A read access answered to a master (R870). -/
  | readData (master : Nat) (value : Nat)
  /-- A frame leaves a feeder port: protected by MACsec or not, and its bytes from the destination address on, a protected
  part in the clear (R19, R79, R89, R96, R120, R186, R193, R925). -/
  | frame (port : Nat) (secured : Bool) (bytes : List Byte)
  /-- The confirmation code of a pairing on a port shown as six decimal digits (R114). -/
  | pairingCode (port : Nat) (digits : List Nat)
  /-- An MSI-X message of a vector: the write its table entry directs (R647). -/
  | msix (vector addr data : Nat)
  /-- A PCI Express completion of a host read: Successful with data, or Completer Abort (R58, R871). -/
  | completion (ok : Bool) (data : List Byte)
  /-- A configuration request answered: true is Request Retry Status (R911). -/
  | config (retry : Bool)
  /-- A write to host memory by the device (R779, R783). -/
  | hostWrite (addr : Nat) (data : List Byte)
  /-- A read request to host memory by the device (R776, R783). -/
  | hostRead (addr len : Nat)
  /-- A mailbox answer: which mailbox, STATUS and data (R739). -/
  | mailbox (box status : Nat) (data : List Byte)
  /-- An NVMe write by a log port: LBA and data (R749, R752). -/
  | nvmeWrite (port lba : Nat) (data : List Byte)
  /-- An NVMe read by a log port (R758). -/
  | nvmeRead (port lba blocks : Nat)
  /-- A pulse of PPS_OUT (R125). -/
  | ppsOut
  /-- GR1 of the Frisket fabric asserted for 4 edges of every running tree (R820). -/
  | gr1
  /-- A Platen tap level into the Frisket fabric (R267). -/
  | platenTap (k : Nat) (level : Bool)
  /-- A Frisket trigger tap pulse (R825). -/
  | tap (j : Nat)
  /-- A byte string to the management console (R734). -/
  | uart (data : List Byte)
  /-- A network packet put on its way by an endpoint (R580): its header unit. -/
  | packet (header : Nat)
  /-- A regulator read over PMBus (R725). -/
  | pmbus (rail : Nat)
deriving DecidableEq, Repr

/-! ## Fault messages (R658) -/

/-- A fault message: source, kind, address, detail. -/
structure FaultMsg where
  src : Nat
  kind : Nat
  addr : Nat
  detail : Nat
deriving DecidableEq, Repr

/-! ## Why a step stops -/

/-- A stop the machine makes. -/
inductive Fault where
  /-- Raised by no command of this model: every effect the specification gives is a next state. Safe. -/
  | none
deriving DecidableEq, Repr

/-- A command the model gives no meaning. -/
inductive Refusal where
  /-- A command whose meaning is not written, by its mnemonic; raised by its arm of exec alone. Safe. -/
  | notModelled (mnemonic : String)
deriving DecidableEq, Repr

/-! ## Feeder ports (chapter 2) -/

/-- The state of an entry of the feeder table (R102). -/
inductive FtState where
  | free | offered | bound | stale
deriving DecidableEq, Repr

/-- One entry of the feeder table (R102 to R108), with the last SEQUENCE of each of its streams (R146), the next
SEQUENCE of each drive stream (R186), the drive streams that have sent a frame since the last fade clear (R202), and the
VLAN tags (R186) and source address of the last frame accepted from the feeder. -/
structure FtEntry where
  state : FtState
  gen : Nat
  serial : Nat
  port : Nat
  caps : Caps
  streams : List StreamEntry
  lastFrame : Nat
  staleSince : Nat
  tags : List Tag
  mac : Nat
  rxSeq : SMap (Option Nat)
  txSeq : SMap Nat
  sentSince : List Nat
deriving DecidableEq, Repr

/-- An entry of the feeder table at reset: FREE, generation 1. -/
def FtEntry.reset : FtEntry :=
  { state := .free, gen := 1, serial := 0, port := 0, caps := capsOf 0, streams := [], lastFrame := 0, staleSince := 0,
    tags := [], mac := 0, rxSeq := [], txSeq := [], sentSince := [] }

/-- A pairing ceremony waiting for its confirmation code (R114, R115). -/
structure Ceremony where
  serial : Nat
  x : List Byte
  code : Nat
deriving DecidableEq, Repr

/-- A stored pairing: the serial is its key; CAK and CKN (R116, R117). -/
structure Pairing where
  serial : Nat
  cak : List Byte
  ckn : List Byte
deriving DecidableEq, Repr

/-- What a feeder port holds beside its page: the speed it tries and whether its lock has held (R83), its SAK number and
packet numbers (R120, R122, R123), its live MKA peers and when the last MKPDU of each came (R121), its ceremony, whether its
transmit queue has room (R193), and whether signal is detected while it sleeps (R858). -/
structure PortSt where
  held : Bool
  sak : Nat
  sakKey : List Byte
  rxHigh : Nat
  txPn : Nat
  peers : List (Nat × Nat)
  ceremony : Option Ceremony
  txRoom : Bool
  rxStamp : Nat
  txStamp : Nat
deriving DecidableEq, Repr

/-- A feeder port at reset. -/
def PortSt.reset : PortSt :=
  { held := false, sak := 0, sakKey := [], rxHigh := 0, txPn := 0, peers := [], ceremony := none, txRoom := true,
    rxStamp := 0, txStamp := 0 }

/-- The feeder side: ports, feeder table, pairings, frames passed by a port and not yet taken up, and the Colophon
exception queue of 16 frames (R148). -/
structure FeedSt where
  ports : SMap PortSt
  table : SMap FtEntry
  pairings : List Pairing
  passed : List (Nat × EthFrame)
  excq : List EthFrame
deriving DecidableEq, Repr

/-- The PTP page's own state beside its registers: whether a PPS edge has set the time since ROLE became 3, whether
PTP_TOD_NEXT was written since the previous edge (R132, R133), and the sync intervals in a row with the servo within ±50 ns
(R135). -/
structure PtpSt where
  ppsSeen : Bool
  todWritten : Bool
  good : Nat
deriving DecidableEq, Repr

/-! ## Imposition and drive (chapter 3) -/

/-- One entry of the imposition table (R153). -/
structure SlotImage where
  serial : Nat
  channel : Nat
  valid : Bool
  stone : Bool
  ringLog2 : Nat
  rate : Nat
  block : Nat
  column : Nat
  phase : Nat
  stoneWord : Nat
  marker : W32
  ringBase : Nat
deriving DecidableEq, Repr

/-- A slot with no entry. -/
def SlotImage.none : SlotImage :=
  { serial := 0, channel := 0, valid := false, stone := false, ringLog2 := 0, rate := 0, block := 0, column := 0,
    phase := 0, stoneWord := 0, marker := 0, ringBase := 0 }

/-- A table copy's entry with the CRC-32 that validation stored with it (R160). -/
structure SlotCopy where
  image : SlotImage
  crc : Nat
deriving DecidableEq, Repr

/-- A copy of a slot with no entry. -/
def SlotCopy.none : SlotCopy := { image := SlotImage.none, crc := 0 }

/-- A slot's counters and marks: NX, N0, RECEIVED, GAPFILL, OVR, whether a frame has been accepted since it was bound,
FAULTED (R160, R163, R168, R178). -/
structure SlotDyn where
  nx : Nat
  n0 : Nat
  received : Nat
  gapfill : Nat
  ovr : Bool
  active : Bool
  faulted : Bool
deriving DecidableEq, Repr

/-- A slot's counters at reset. -/
def SlotDyn.zero : SlotDyn :=
  { nx := 0, n0 := 0, received := 0, gapfill := 0, ovr := false, active := false, faulted := false }

/-- A validated imposition image that waits for its block (R157): the table, the first block it governs once a tick has
fixed it, and the counters of its changed slots from that block on. -/
structure ImposePending where
  table : SMap SlotImage
  firstBlock : Option Nat
  dyn : SMap SlotDyn
deriving DecidableEq, Repr

/-- The imposition state: copies A and B, counters, a validated table waiting, the address and the slots of the image that the
last GO named, the number of the current open block, the blocks whose Stone data is ready, and the ring words gathered for each
codeword, by address (R153 to R171, R541). -/
structure ImposeSt where
  copyA : SMap SlotCopy
  copyB : SMap SlotCopy
  dyn : SMap SlotDyn
  waiting : Option ImposePending
  image : Nat × Nat
  openBlock : Option Nat
  ready : Option Nat
  gather : SMap (SMap (Option Byte))
deriving DecidableEq, Repr

/-- An entry of the drive table (R181). -/
structure DriveEntry where
  serial : Nat
  channel : Nat
  valid : Bool
  srcWord : Nat
deriving DecidableEq, Repr

/-- A drive table entry not in use. -/
def DriveEntry.none : DriveEntry := { serial := 0, channel := 0, valid := false, srcWord := 0 }

/-- The drive side: table in force, a validated table waiting, validation in progress, the address and the entries of the image
that the last GO named, the groups' next SEQUENCE, ticks
counted for Sheet time, the fade's t0, T (ns) and CAUSE, repeats still owed after the ramp, the abort plane, the buffer
(0 or 1) whose samples were sent last, consecutive impressions not ended at their release, and whether a fade has been
cleared (R181 to R203). -/
structure DriveSt where
  table : SMap DriveEntry
  waiting : Option (SMap DriveEntry)
  validating : Bool
  image : Nat × Nat
  grpSeq : SMap Nat
  timeTicks : Nat
  t0 : Nat
  fadeT : Nat
  fadeCause : Nat
  afterRamp : Nat
  abortPlane : Bool
  lastBuf : Option Nat
  missed : Nat
  cleared : Bool
deriving DecidableEq, Repr

/-! ## Memory (chapter 9) -/

/-- A region that grants nothing (R536). -/
def Region.none : Region := { base := 0, size := 0, r := false, w := false, whole := false }

/-- A ledger entry (R556): master and rate in MB/s. -/
structure LedgerEntry where
  master : Nat
  rate : Nat
deriving DecidableEq, Repr

/-- A ledger entry not in use. -/
def LedgerEntry.none : LedgerEntry := { master := 0, rate := 0 }

/-- The memory system: bytes of Stone and Reel by device address; words and codewords whose check bits show an error
(uncorrectable, or correctable); corrections waiting to be rewritten; the master each Stone bank granted last (plus 1); per
Stone bank the scrub reads due, the due reads that are overdue, and the lines read in the pass; when the Stone pass began;
region registers; the ledger in force and entry 0; token buckets (tokens and when they were counted); per physical stack the
consecutive low readings, the band the next refresh brings (plus 1), retrains due, when the last retrain window opened, the
tick (plus 1) in whose calibration slot it last retrained, the calibration slot, when the patrol pass began (and its hours),
a lost interface, and requests held by a retrain window; per pseudo-channel the master granted last (plus 1); the ledger
entries that the check in progress judges. -/
structure MemSt where
  stone : List Host.Cell
  reel : List Host.Cell
  badStone : SMap Bool
  weakStone : SMap Bool
  badReel : SMap Bool
  weakReel : SMap Bool
  stoneRewrites : List Nat
  reelRewrites : List Nat
  lastGrant : SMap Nat
  scrubDue : SMap Nat
  scrubOver : SMap Nat
  scrubRead : SMap Nat
  scrubStart : Nat
  regions : SMap Region
  ledger : SMap LedgerEntry
  entry0 : Nat
  entry0New : Option Nat
  tokens : SMap (Nat × Nat)
  lowReadings : SMap Nat
  nextBand : SMap Nat
  retrainDue : SMap Bool
  lastRetrain : SMap Nat
  calTaken : SMap Nat
  calSlot : Bool
  passStart : SMap Nat
  passHours : SMap Nat
  stackLost : SMap Bool
  reelWait : List ReelReq
  lastReel : SMap Nat
  checking : SMap LedgerEntry
deriving DecidableEq, Repr

/-! ## Event Controller (chapter 11) -/

/-- An external line: the synchronised level and since when it holds, the filtered level, whether a change is being timed, and
whether the first filtered level has been set since reset (R630 to R632). -/
structure EvtLine where
  sync : Bool
  since : Nat
  filtered : Bool
  timing : Bool
  settled : Bool
deriving DecidableEq, Repr

/-- A line at reset. -/
def EvtLine.reset : EvtLine := { sync := false, since := 0, filtered := false, timing := false, settled := false }

/-- The Event Controller beside its pages: ACC and AGE of each source, the lines, the two in-service stacks (top first),
EVENT packets on their way, raises held while the network sleeps, and acceptances on their way: processor, class and the level
presented when the core took the interrupt (R623, R630, R633, R635, R636). -/
structure EvtSt where
  acc : SMap Nat
  age : SMap Nat
  lines : SMap EvtLine
  comp : List Nat
  colo : List Nat
  incoming : List Nat
  held : List Nat
  accepting : List (Nat × Bool × Nat)
deriving DecidableEq, Repr

/-! ## Fault Collector (chapter 12) -/

/-- A retirement tally: messages since it was last zero, when the first of them came, and whether it has reached its limit
(R678 to R681). -/
structure Tally where
  count : Nat
  first : Nat
  reached : Bool
deriving DecidableEq, Repr

/-- A tally at zero. -/
def Tally.zero : Tally := { count := 0, first := 0, reached := false }

/-- The Fault Collector beside its page: network and local messages waiting, a record write in progress, the log by
position, unlogged messages since the last record, the tallies of columns (33 × (17r + p) + q), galleys (17r + p) and cores,
galleys already told to have no spare, cores to leave at the next impression entry, whether the heartbeat is current and
the time of its last kick, and the time of the last ALIVE edge or of ALIVE's start (R660, R675 to R681, R690, R691). -/
structure FaultSt where
  net : List FaultMsg
  loc : List FaultMsg
  writing : Bool
  log : SMap (List Byte)
  dropped : Nat
  colTally : SMap Tally
  galTally : SMap Tally
  coreTally : SMap Tally
  spareTold : List Nat
  coreLeaves : List Nat
  hbCurrent : Bool
  lastKick : Nat
  aliveAt : Nat
  aliveHalf : Nat
deriving DecidableEq, Repr

/-! ## On-chip network (chapter 10) -/

/-- A unit of a packet: its virtual network and channel, HEAD and TAIL, and its 256 bits (R576). -/
structure NocUnit where
  vn : Nat
  vc : Nat
  head : Bool
  tail : Bool
  data : Nat
deriving DecidableEq, Repr

/-- A flow not in use. -/
def Flow.none : Flow := { src := 0, dst := 0, valid := false, slots := 0 }

/-- A flow table with its placement: the slots each flow owns at its first output (R597, R598). -/
structure Placement where
  flows : SMap Flow
  placed : SMap (List Nat)
deriving DecidableEq, Repr

/-- A router input: units buffered per virtual channel, and for each the output and channel of the packet in progress, and
whether the rest of a packet is being discarded; the sender's credits and the credits on their way back per virtual channel.
Keys are ((router × 8 + port) × 4 + vn) × 2 + vc. Links: units sent and not yet accepted (the replay buffer) and CRC
failures in a row, by router × 8 + receiving port. Outputs: the input served last (plus 1), by router × 8 + port. The
headers (plus 1) of the packet that leaves and of the packet that arrives at each virtual channel of an input. Held packets,
sequence numbers, outstanding requests (header plus 1), when they were sent and tags not yet to be reused, by endpoint ×
1,024 + tag; the flows that the check in progress judges, flows in force, and a placement that waits for slot 0 (R578, R590,
R594, R598, R601, R602, R605, R613). -/
structure NocSt where
  buffers : SMap (List NocUnit)
  route : SMap (Option (Nat × Nat))
  dropping : SMap Bool
  credits : SMap Nat
  back : SMap Nat
  link : SMap (List NocUnit)
  crcRun : SMap Nat
  lastServed : SMap Nat
  leaving : SMap Nat
  arriving : SMap Nat
  held : List Nat
  seqTx : SMap Nat
  seqRx : SMap Nat
  outstanding : SMap Nat
  sentAt : SMap Nat
  tagHold : SMap Nat
  checking : List (Nat × Flow)
  inForce : Placement
  next : Option Placement
deriving DecidableEq, Repr

/-! ## Frisket (chapter 16) -/

/-- The Frisket fabric beside its page: GR0, the cell records as loaded (16,384 of 160 bytes; the bits of a record are the
data file's), whether a boundary block has been applied since reset, the levels of its event lines and fade request as
last seen, GPIO inputs, an image being loaded and the mailbox that waits for it, and a wake scrub not yet ended (R814 to R834).
The flip-flops by cell number and the wire registers by 16 × wire + place (false where not listed), the two synchroniser stages
of the GPIO inputs and the Platen taps, trigger taps high now and those about to pulse, the edges for which each tree still sees
GR0 and GR1, the time to which the edges have run, and the model's own count of edges (R814, R815, R819 to R821, R825). -/
structure FrisketSt where
  gr0 : Bool
  cells : List Byte
  boundary : Bool
  lines : SMap Bool
  fadeReq : Bool
  gpioIn : SMap Bool
  loading : Option (List Byte)
  loadFor : Option Nat
  wakeScrub : Bool
  flops : List Bool
  wires : List Bool
  gpioSync : SMap (Bool × Bool)
  tapSync : SMap (Bool × Bool)
  trig : SMap Bool
  trigDue : SMap Bool
  gr0Left : SMap Nat
  gr1Left : SMap Nat
  ranTo : Nat
  edges : Nat
deriving DecidableEq, Repr

/-- The fabric at reset: EMPTY, GR0 asserted (R819). -/
def FrisketSt.reset : FrisketSt :=
  { gr0 := true, cells := [], boundary := false, lines := [], fadeReq := false, gpioIn := [], loading := none, loadFor := none
    wakeScrub := false, flops := [], wires := [], gpioSync := [], tapSync := [], trig := [], trigDue := [], gr0Left := []
    gr1Left := [], ranTo := 0, edges := 0 }

/-! ## Power (chapter 17) -/

/-- A power domain beside its register window: the entry in progress (target state and the step that ends next), a wake
that arrived during entry, the wake in progress (its source, 16 where it is none of R854, and the state it leads to), and when
that wake came (R843, R850 to R853). -/
structure DomainSt where
  entering : Option (Nat × Nat)
  stopWake : Option Nat
  waking : Option (Nat × Nat)
  wakeAt : Nat
deriving DecidableEq, Repr

/-- A domain at reset. -/
def DomainSt.reset : DomainSt := { entering := none, stopWake := none, waking := none, wakeAt := 0 }

/-- The Power Controller beside its page: the domains, the phase of device Hold (0 none, 1 waiting for COLO_READY,
2 entering in order and waiting for the host link, 3 in Hold), when that phase began (R859 to R862). -/
structure PowerSt where
  dom : SMap DomainSt
  phase : Nat
  since : Nat
deriving DecidableEq, Repr

/-- The clocks beside their page: the part of a nanosecond that device time has gone past its last whole one, in units of
2^-10 ppb of it; the monitors whose PLL has lost lock; whether REFCLK_SYS is absent, and how long it has been so in all
(R127, R840, R841). -/
structure ClockSt where
  frac : Nat
  unlocked : List Nat
  refLost : Bool
  lostNs : Nat
deriving DecidableEq, Repr

/-! ## The Forme array (chapters 4, 5) -/

/-- A galley transfer in progress (R270): its direction, parameters, and the words moved so far (R927). -/
structure Transfer where
  inbound : Bool
  mode : Nat
  base : Nat
  stride : Nat
  colFirst : Nat
  colCount : Nat
  depth : Nat
  caseBase : Nat
  phases : Nat
  buffer : Nat
  moved : Nat
  filled : Nat
deriving DecidableEq, Repr

/-- One sort (R212 to R240): case memory words (an unlisted word is zero, R234), words with an uncorrectable and with a
correctable error, corrected words that wait for an idle write slot, oldest first; the A and B sticks with the parity kept of
each, the W stick; the flags C, K, X, P, T0 to T3 from bit 0 upwards, E; the residue accumulators, weight counter and saved
carry, the two parities of the W stick; the I/O latch with the bits of it gathered, the case word it stands for, whether it is
full and whether a bad Stone word went into it; the bits last sent on the NEWS link and sent before that; case memory loads
(cycle of the fill, whether the A stick, word, microaddress) and stores (cycle of the commit, case word, value, mask,
microaddress) in flight in a customer routine; and the check that fails next (0 none). -/
structure SortSt where
  mem : SMap Nat
  bad : List Nat
  weak : List Nat
  fixes : List Nat
  a : Nat
  aPar : Bool
  b : Nat
  bPar : Bool
  w : Nat
  flags : Nat
  e : Bool
  ra : Nat
  rb : Nat
  rw : Nat
  wn : Nat
  c0 : Bool
  par1 : Bool
  par2 : Bool
  latch : Nat
  latchMask : Nat
  latchWord : Nat
  latchFull : Bool
  latchBad : Bool
  sent1 : Bool
  sent2 : Bool
  loads : List (Nat × Bool × Nat × Nat)
  stores : List (Nat × Nat × Nat × Nat × Nat)
  upset : Nat
deriving DecidableEq, Repr

/-- A sort as make-ready leaves it: K = 1, all else zero (R215, R234). -/
def SortSt.reset : SortSt :=
  { mem := [], bad := [], weak := [], fixes := [], a := 0, aPar := false, b := 0, bPar := false, w := 0, flags := 2, e := false
    ra := 0, rb := 0, rw := 0, wn := 0, c0 := false, par1 := false, par2 := false, latch := 0, latchMask := 0, latchWord := 0
    latchFull := false, latchBad := false, sent1 := false, sent2 := false, loads := [], stores := [], upset := 0 }

/-- A debug access of a galley row (R283): a write or a read, and whether it has been started. -/
structure DbgOp where
  write : Option Nat
  started : Bool
deriving DecidableEq, Repr

/-- The Forme array: sorts by physical place ((row × 32 + galley) × 64 + column) × 32 + row within the galley; galleys
(row × 17 + galley) that have sent a fault message since E_CLEAR; an E_CLEAR and a scrub read that are due, the next scrub
word, and the word whose scrub rewrite waits; the galley transfer in progress; debug accesses by row; galleys whose next
broadcast microword has bad parity. -/
structure FormeSt where
  sorts : SMap SortSt
  told : List Nat
  eClear : Bool
  scrubDue : Bool
  scrubAddr : Nat
  scrubFix : Option Nat
  io : Option Transfer
  dbg : SMap (Option DbgOp)
  uwordBad : List Nat
deriving DecidableEq, Repr

/-! ## Sequencer and control store (chapter 6) -/

/-- A routine that runs: its instruction (128 bits), whether it runs microword by microword, the microaddress, the Fc cycles it
has taken, its loop counters, bit index, word pointers and return stack, the cycles its current wait has lasted (none: not
waiting), whether a tick has come since it began, and the budget in force at its first cycle (R387). -/
structure Routine where
  instr : Nat
  micro : Bool
  uaddr : Nat
  cycles : Nat
  lc0 : Nat
  lc1 : Nat
  bi : Nat
  pa : Nat
  pb : Nat
  pw : Nat
  stack : List Nat
  wait : Option Nat
  ticked : Bool
  budget : Nat
deriving DecidableEq, Repr

/-- A Platen operation in flight: its operation (1 OR, 2 AND, 3 OR_ABORT, 4 COUNT, 5 FIRST), register, result, the Fc cycle in
which the result register holds it, and whether a later operation to the register delivers first (R264, R331). -/
structure PlatenOp where
  op : Nat
  greg : Nat
  result : Nat
  due : Nat
  overtaken : Bool
deriving DecidableEq, Repr

/-- The sequencer (R366 to R395): its queue (oldest first), the routine that runs, Fc cycles counted, Platen operations in
flight in order of issue, general registers marked pending, the discard state, a flush and a stop that wait for the next
boundary, the stick pointers, whether the sticks are as a ROM routine left them, a comparison of its two copies that fails
next; the Fc cycles from which the read port may end its next fill and the write port its next commit, the cycles each port has
stood idle since it last served an idle slot, and the NEWS sends of the last two sending cycles, newest first (cycle, direction,
GLOBAL) (R221, R226, R228, R247, R248). -/
structure SeqSt where
  queue : List Nat
  cur : Option Routine
  fc : Nat
  platen : List PlatenOp
  marked : List Nat
  discard : Bool
  flush : Bool
  stop : Bool
  stopped : Bool
  aptr : Nat
  bptr : Nat
  wptr : Nat
  sticksOpen : Bool
  upset : Bool
  rnext : Nat
  wnext : Nat
  ridle : Nat
  widle : Nat
  news : List (Nat × Nat × Bool)
deriving DecidableEq, Repr

/-- The sequencer at reset: nothing queued, nothing running. -/
def SeqSt.reset : SeqSt :=
  { queue := [], cur := none, fc := 0, platen := [], marked := [], discard := false, flush := false, stop := false,
    stopped := false, aptr := 0, bptr := 0, wptr := 0, sticksOpen := false, upset := false, rnext := 0, wnext := 0
    ridle := 0, widle := 0, news := [] }

/-- The control store: 176-bit microwords of the customer store and patch RAM by microaddress, words with an uncorrectable
and with a correctable error, the one-word staging register (microaddress, its bits, whether it is complete), the words that
firmware writes after it, and the dispatch entries that wait for their boundary (R402 to R405). -/
structure CStoreSt where
  words : SMap Nat
  bad : List Nat
  weak : List Nat
  staging : Option (Nat × Nat × Bool)
  ready : List (Nat × Nat)
  entries : List (Nat × Nat)
deriving DecidableEq, Repr

/-- The Compositor beside its pages: the cores of the execution in progress; its phase (0 none, 1 running, 2 waiting after
END or a lockstep stop under R356, 3 waiting under R361, 4 stopped without END); what follows pending migrations (0 nothing,
1 a recompute, 2 the entry of the next impression, timed from its tick, 3 timed from the entry); whether the execution of
the current compute stage has ended not void; the block it computes from; the cores marked FAILING in it; and whether its
outputs are suppressed (R347, R361). -/
structure CompSt where
  cores : List Nat
  phase : Nat
  after : Nat
  ended : Bool
  block : Nat
  failing : List Nat
  suppressed : Bool
deriving DecidableEq, Repr

/-! ## Quire cores (chapter 7) -/

/-- A segment register (R419, R426): base, limit, and the rights R, W, X as bits 0, 1, 2. -/
structure Seg where
  base : Nat
  limit : Nat
  rights : Nat
deriving DecidableEq, Repr

/-- A segment that grants nothing. -/
def Seg.none : Seg := { base := 0, limit := 0, rights := 0 }

/-- Where a load's data goes. -/
inductive LoadDst where
  /-- A general register: its number, the bytes, whether the value is sign-extended. -/
  | g (r n : Nat) (sgn : Bool)
  /-- An f register. -/
  | f (r : Nat)
  /-- A vector register. -/
  | v (r : Nat)
  /-- A segment register; the new pc where it is sc (8); the offset of the descriptor. -/
  | seg (r pc off : Nat)
deriving DecidableEq, Repr

/-- A load that waits for its data: where it goes and the address of each access, in lane order. -/
structure Load where
  dst : LoadDst
  size : Nat
  addrs : List Nat
deriving DecidableEq, Repr

/-- One Quire core (R419 to R425, R433, R435): g registers, shadow g16 to g31, f registers, segment registers (8 is sc),
pc, control registers, counts, captured high words, write buffer (oldest first; a vector
store is one entry of several writes), held lines (the last used first), the
outstanding load, halted, waiting in WAIT, and registers whose parity fails (R348). -/
structure CoreSt where
  g : SMap W32
  shadow : SMap W32
  f : SMap W32
  seg : SMap Seg
  pc : W32
  qstatus : W32
  epc : W32
  estatus : W32
  ecause : W32
  eaddr : W32
  fepc : W32
  festatus : W32
  hvecExc : W32
  hvecNormal : W32
  hvecFast : W32
  cycle : Nat
  instret : Nat
  capCycle : Option W32
  capInstret : Option W32
  wbuf : List (List (Nat × List Byte))
  lines : List (Nat × List Byte)
  load : Option Load
  halted : Bool
  waiting : Bool
  parBad : List Nat
deriving DecidableEq, Repr

/-- A core at reset. The specification gives QSTATUS of a Colophon core; the rest is zero (notes/assumptions/16.md). -/
def CoreSt.reset : CoreSt :=
  { g := [], shadow := [], f := [], seg := [], pc := 0, qstatus := 0, epc := 0, estatus := 0, ecause := 0, eaddr := 0,
    fepc := 0, festatus := 0, hvecExc := 0, hvecNormal := 0, hvecFast := 0, cycle := 0, instret := 0,
    capCycle := none, capInstret := none, wbuf := [], lines := [], load := none, halted := false, waiting := false, parBad := [] }

/-! ## Web engine (chapter 8) -/

/-- A submitted chain: its descriptor address, SEQ and SOURCE (0 standing queue, 1 + n job ring n), and the ticket it
belongs to (R494 to R496, R512). -/
structure ChainRef where
  desc : Nat
  seq : Nat
  src : Nat
  ticket : Nat
deriving DecidableEq, Repr

/-- How a chain ended: STATUS, CAUSE, TAG, FLAGS and CYCLES of its record, and its EVT bit (R512). -/
structure ChainFin where
  status : Nat
  cause : Nat
  tag : Nat
  flags : Nat
  cycles : Nat
  evt : Bool
deriving DecidableEq, Repr

/-- A submission whose completion record is not yet due in order of SEQ, with how the chain ended once it has (R512). -/
structure ChainRec where
  ref : ChainRef
  fin : Option ChainFin
deriving DecidableEq, Repr

/-- A chain that has issued loads: its reference, its descriptor's bytes, the cause and address of its discard where it
met one (R508), and whether its last store has committed. -/
structure ChainRun where
  ref : ChainRef
  desc : List Byte
  discard : Option (Nat × Nat)
  done : Bool
deriving DecidableEq, Repr

/-- A web beside its page: submission packets from the JOBS block not yet taken in, the two queues, the chains that have
issued loads and not ended, chains a flush will end, the descriptors of queued chains that have passed their check, by SEQ,
whether the next chain was counted as waiting, and the completion records outstanding in order of SEQ (R494 to R512). -/
structure WebSt where
  incoming : List ChainRef
  standing : List ChainRef
  job : List ChainRef
  running : List ChainRun
  flushing : List ChainRef
  checked : SMap (List Byte)
  hazard : Bool
  recs : List ChainRec
deriving DecidableEq, Repr

/-- A web with nothing submitted. -/
def WebSt.reset : WebSt :=
  { incoming := [], standing := [], job := [], running := [], flushing := [], checked := [], hazard := false, recs := [] }

/-! ## Job tickets and the standing program (chapter 15) -/

/-- How a ticket ended: STATUS, CAUSE, KIND, RESULT, RESULT2 and CYCLES of its completion record (R784). -/
structure TicketEnd where
  status : Nat
  cause : Nat
  kind : Nat
  result : Nat
  result2 : Nat
  cycles : Nat
deriving DecidableEq, Repr

/-- A ticket fetched and not completed: its index k, its 64 bytes (none: unreadable), whether it has started, the bytes a
COPY has moved, and how it ended (R775 to R785). -/
structure Ticket where
  k : Nat
  data : Option (List Byte)
  started : Bool
  moved : Nat
  fin : Option TicketEnd
deriving DecidableEq, Repr

/-- A job ring beside its registers: FETCHED, DONE and the tickets fetched and not completed, oldest first (R775). -/
structure RingSt where
  fetched : Nat
  done : Nat
  tickets : List Ticket
deriving DecidableEq, Repr

/-- A ring at reset. -/
def RingSt.reset : RingSt := { fetched := 0, done := 0, tickets := [] }

/-- The JOBS block beside its page: the rings, the ring served last (plus 1), the calls queued (ring and k, oldest first),
the calls accepted, and the completions held for an execution (RESULT and FAIL, oldest first) (R776, R788, R789). -/
structure JobsSt where
  rings : SMap RingSt
  last : Nat
  calls : List (Nat × Nat)
  accepted : Nat
  held : List (Nat × Bool)
deriving DecidableEq, Repr

/-- The standing program's run: the block the next tick closes, when the last tick came, the impression in its compute
stage, whether a compute stage is open, the device's own time of the impression entry of the execution in progress, whether
this execution has passed the half-press limit, whether STOP was written, and the image's WEB_MASK (R791, R794 to R802). -/
structure SpSt where
  next : Nat
  tickAt : Nat
  imp : Nat
  stage : Bool
  entryAt : Nat
  told : Bool
  stopping : Bool
  webMask : Nat
deriving DecidableEq, Repr

/-- The host endpoint: whether it answers configuration requests with Request Retry Status (R772, R911). -/
structure HostSt where
  retry : Bool
deriving DecidableEq, Repr

/-! ## The Colophon, the signed record and the journal (chapter 14) -/

/-- A sensor: the last sample, its limits, whether a SENSOR_LIMIT message was sent, and the samples within limits in a row
since (R723, R724, R765). -/
structure SensorSt where
  value : W32
  lower : W32
  upper : W32
  sent : Bool
  good : Nat
deriving DecidableEq, Repr

/-- The default limits of sensor k (R723): −40 °C to 125 °C in 0.125 °C, nominal less and plus 5 % in mV, 0 to 8 % in
0.01 %, −1,000 to 1,000 ppm. Which rail a voltage sensor watches the specification does not say. -/
def sensorLimits (k : Nat) : W32 × W32 :=
  if k < 32 then (BitVec.ofInt 32 (-320), 1000)
  else if k < 56 then
    (BitVec.ofNat 32 (Config.railNominal (k - 32) * 95 / 100), BitVec.ofNat 32 (Config.railNominal (k - 32) * 105 / 100))
  else if k < 64 then (0, 800)
  else (BitVec.ofInt 32 (-1000), 1000)

/-- Sensor k never sampled. -/
def SensorSt.reset (k : Nat) : SensorSt :=
  { value := 0, lower := (sensorLimits k).1, upper := (sensorLimits k).2, sent := false, good := 0 }

/-- The fuses that commands change or that hold owners (R726): the four rollback counters, the owner key hashes and slot
states, DEBUG_LOCK and ADK_REVOKE. -/
structure FuseSt where
  fw : Nat
  patch : Nat
  frisket : Nat
  owner : Nat
  keys : SMap (List Byte)
  states : SMap Nat
  debugLock : Bool
  revoke : Nat
deriving DecidableEq, Repr

/-- The boot flash (R731): active slot, trial flag, firmware slots an update has written (none: as shipped), stored Frisket
and other owner images by kind, end of the signature counter reservation, service map (class, instance, STICKY at
retirement). The identity certificate and the patch slots are never written by a command: the first is
Config.identityCert, the second an operand of PATCH_LOAD (notes/assumptions/24.md). -/
structure FlashSt where
  active : Nat
  trial : Bool
  fw : SMap (Option (List Byte))
  owner : SMap (List Byte)
  counterEnd : Nat
  service : List (Nat × Nat × Bool)
deriving DecidableEq, Repr

/-- The journal (R759, R760): the records in flash by position, the next SEQ, entries waiting to be programmed (TYPE, TIME
and BODY, oldest first), drops since the last record, whether a record is being programmed and whether a sector is being
erased, and sectors erased so far. -/
structure JournalSt where
  recs : SMap (List Byte)
  next : Nat
  buffer : List (Nat × Nat × List Byte)
  dropped : Nat
  programming : Bool
  erasing : Bool
deriving DecidableEq, Repr

/-- A command to an NVMe drive not yet completed: its identifier, what it writes (0 a block, 1 a signature record, 2
nothing: a Flush), the number of the block or record, its data, its retries, and when it was issued (R755 to R757). -/
structure NvmeCmd where
  id : Nat
  what : Nat
  num : Nat
  data : List Byte
  tries : Nat
  issued : Nat
deriving DecidableEq, Repr

/-- A log port beside its page: commands in flight, the next command identifier, and blocks and records (what, number,
data) that wait, oldest first (R756, R757), and the end of its drive's reset (R913). -/
structure LogPortSt where
  cmds : List NvmeCmd
  nextId : Nat
  waiting : List (Nat × Nat × List Byte)
  perstHigh : Bool
deriving DecidableEq, Repr

/-- A log port at reset. -/
def LogPortSt.reset : LogPortSt := { cmds := [], nextId := 0, waiting := [], perstHigh := false }

/-- The signed record (R749 to R754): whether a run is open, RUN, the open block's number, TIME and IMPRESSION, record bytes
taken and not yet in a closed block, the chain value of the block before, the first block no signature record covers, when
the last signature record was written (ns of the device's own time), COUNTER of the run's last record, bytes lost, the
signature records written, and the two ports. -/
structure LogSt where
  open_ : Bool
  run : Nat
  num : Nat
  time : Nat
  imp : Nat
  stream : List Byte
  prev : List Byte
  first : Nat
  lastAt : Nat
  prevCounter : Nat
  lost : Nat
  sigs : Nat
  ports : SMap LogPortSt
deriving DecidableEq, Repr

/-- The Colophon beside its cores and pages: sensors, fuses, flash, journal, the last ATTEST nonce, mailboxes whose command
firmware has taken (0 host, 1 Compositor), an update image being written, the rollback value of the image on trial, the
measurements MEAS0, MEAS1, MEAS3 and MEAS4, the SRAM and retention SRAM, bytes received by the UART and not taken, and the
TAP instruction (R721 to R763, R728). -/
structure ColoSt where
  sensors : SMap SensorSt
  fuses : FuseSt
  flash : FlashSt
  journal : JournalSt
  nonce : List Byte
  taken : List Nat
  update : Option (List Byte)
  trialRollback : Nat
  meas : SMap (List Byte)
  sram : List Host.Cell
  retention : List Host.Cell
  uart : List Byte
  tap : Nat
deriving DecidableEq, Repr

/-! ## Device resets and boot (chapters 1, 14, 19) -/

/-- The device as a whole: reset causes held (POR_N low, SYS_RST_N low, a brownout, a thermal reset), the stage (0 in
reset, 1 make-ready, 2 ready), BOOT_MODE and the TEST balls as sampled, whether the Colophon's cores have stopped, and the
units (class, instance) that this make-ready has out of service (R736), and the eight Adkigan public key hashes of the boot ROM
(R730). -/
structure DevSt where
  por : Bool
  sys : Bool
  brown : Bool
  thermal : Bool
  stage : Nat
  bootMode : Nat
  test : Bool
  coloStopped : Bool
  failed : List (Nat × Nat)
  adkKeys : List (List Byte)
deriving DecidableEq, Repr

/-- The state of the block. -/
structure State where
  pending : List Instr
  out : List Output
  regs : SMap W32
  caps : SMap (Option W32)
  mono : Nat
  dev : Nat
  free : Nat
  feed : FeedSt
  ptp : PtpSt
  impose : ImposeSt
  drive : DriveSt
  mem : MemSt
  evt : EvtSt
  fault : FaultSt
  power : PowerSt
  clock : ClockSt
  frisket : FrisketSt
  msixFmask : Bool
  noc : NocSt
  forme : FormeSt
  seq : SeqSt
  cstore : CStoreSt
  comp : CompSt
  cores : SMap CoreSt
  webs : SMap WebSt
  jobs : JobsSt
  sp : SpSt
  host : HostSt
  log : LogSt
  colo : ColoSt
  device : DevSt
deriving DecidableEq, Repr

/-! ## Reset -/

/-- The memory system at reset: nothing listed, so every byte reads as zero (notes/assumptions/5.md). -/
def MemSt.reset : MemSt :=
  { stone := [], reel := [], badStone := [], weakStone := [], badReel := [], weakReel := [], stoneRewrites := [],
    reelRewrites := [], lastGrant := [], scrubDue := [], scrubOver := [], scrubRead := [], scrubStart := 0, regions := [],
    ledger := [], entry0 := 0, entry0New := none, tokens := [], lowReadings := [], nextBand := [], retrainDue := [],
    lastRetrain := [], calTaken := [], calSlot := false, passStart := [], passHours := [], stackLost := [], reelWait := [], lastReel := [],
    checking := [] }

/-- The drive side at reset. -/
def DriveSt.reset : DriveSt :=
  { table := [], waiting := none, validating := false, image := (0, 0), grpSeq := [], timeTicks := 0, t0 := 0, fadeT := 0, fadeCause := 0,
    afterRamp := 0, abortPlane := false, lastBuf := none, missed := 0, cleared := false }

/-- The network at reset: every buffer empty, every sequence number 0, no flow in force. -/
def NocSt.reset : NocSt :=
  { buffers := [], route := [], dropping := [], credits := [], back := [], link := [], crcRun := [], lastServed := [],
    held := [], seqTx := [], seqRx := [], outstanding := [], sentAt := [], tagHold := [], checking := [], leaving := [], arriving := [],
    inForce := { flows := [], placed := [] },
    next := none }

/-- The Fault Collector beside its page after POR_N. -/
def FaultSt.reset : FaultSt :=
  { net := [], loc := [], writing := false, log := [], dropped := 0, colTally := [], galTally := [], coreTally := [],
    spareTold := [], coreLeaves := [], hbCurrent := false, lastKick := 0, aliveAt := 0, aliveHalf := 12500 }

/-- Fuses with nothing enrolled and every counter 0 (notes/assumptions/25.md). -/
def FuseSt.reset : FuseSt :=
  { fw := 0, patch := 0, frisket := 0, owner := 0, keys := [], states := [], debugLock := false, revoke := 0 }

/-- The flash as shipped: slot A active, nothing else written (notes/assumptions/25.md). -/
def FlashSt.reset : FlashSt :=
  { active := 0, trial := false, fw := [], owner := [], counterEnd := 0, service := [] }

/-- The journal with no record. -/
def JournalSt.reset : JournalSt :=
  { recs := [], next := 0, buffer := [], dropped := 0, programming := false, erasing := false }

/-- The Colophon at the first POR_N of its life. -/
def ColoSt.reset : ColoSt :=
  { sensors := [], fuses := FuseSt.reset, flash := FlashSt.reset, journal := JournalSt.reset, nonce := [], taken := [],
    update := none, trialRollback := 0, meas := [], sram := [], retention := [], uart := [], tap := 0 }

/-- The machine right after reset: powered, held by POR_N low, every register at its reset value, nothing in memory and no
command waiting (notes/assumptions/23.md). -/
def State.reset : State :=
  { pending := [], out := [], regs := [], caps := [], mono := 0, dev := 0, free := 0
    feed := { ports := [], table := [], pairings := [], passed := [], excq := [] }
    ptp := { ppsSeen := false, todWritten := false, good := 0 }
    impose := { copyA := [], copyB := [], dyn := [], waiting := none, image := (0, 0), openBlock := none, ready := none, gather := [] }
    drive := DriveSt.reset
    mem := MemSt.reset
    evt := { acc := [], age := [], lines := [], comp := [], colo := [], incoming := [], held := [], accepting := [] }
    fault := FaultSt.reset
    power := { dom := [], phase := 0, since := 0 }
    clock := { frac := 0, unlocked := [], refLost := false, lostNs := 0 }
    frisket := FrisketSt.reset
    msixFmask := false
    noc := NocSt.reset
    forme := { sorts := [], told := [], eClear := false, scrubDue := false, scrubAddr := 0, scrubFix := none, io := none, dbg := [],
               uwordBad := [] }
    seq := SeqSt.reset
    cstore := { words := [], bad := [], weak := [], staging := none, ready := [], entries := [] }
    comp := { cores := [], phase := 0, after := 0, ended := false, block := 0, failing := [], suppressed := false }
    cores := []
    webs := []
    jobs := { rings := [], last := 0, calls := [], accepted := 0, held := [] }
    sp := { next := 0, tickAt := 0, imp := 0, stage := false, entryAt := 0, told := false, stopping := false, webMask := 0 }
    host := { retry := true }
    log := { open_ := false, run := 0, num := 0, time := 0, imp := 0, stream := [], prev := [], first := 0, lastAt := 0,
             prevCounter := 0, lost := 0, sigs := 0, ports := [] }
    colo := ColoSt.reset
    device := { por := true, sys := false, brown := false, thermal := false, stage := 0, bootMode := 0, test := false,
                coloStopped := false, failed := [], adkKeys := (List.range 8).map Config.adkKeyHash } }

end Sys2Proof.Machine
end

