-- ==== Sys2Proof/Machine/Ops.lean ====
section
/-!
DEFINITION. The named operations every command uses: registers and their fields, counters, page events, fault
messages, ignored writes, time, free values, wakes, and checked access to Stone and Reel memory.
-/
namespace Sys2Proof.Machine

/-- What every command answers. -/
abbrev Result := Host.Outcome State Fault Refusal

/-! ## Parts of the state changed -/

def State.onFeed (s : State) (f : FeedSt → FeedSt) : State := { s with feed := f s.feed }
def State.onImpose (s : State) (f : ImposeSt → ImposeSt) : State := { s with impose := f s.impose }
def State.onDrive (s : State) (f : DriveSt → DriveSt) : State := { s with drive := f s.drive }
def State.onMem (s : State) (f : MemSt → MemSt) : State := { s with mem := f s.mem }
def State.onEvt (s : State) (f : EvtSt → EvtSt) : State := { s with evt := f s.evt }
def State.onFault (s : State) (f : FaultSt → FaultSt) : State := { s with fault := f s.fault }
def State.onClock (s : State) (f : ClockSt → ClockSt) : State := { s with clock := f s.clock }
def State.onPower (s : State) (f : PowerSt → PowerSt) : State := { s with power := f s.power }
def State.onNoc (s : State) (f : NocSt → NocSt) : State := { s with noc := f s.noc }
def State.onForme (s : State) (f : FormeSt → FormeSt) : State := { s with forme := f s.forme }
def State.onSeq (s : State) (f : SeqSt → SeqSt) : State := { s with seq := f s.seq }
def State.onCStore (s : State) (f : CStoreSt → CStoreSt) : State := { s with cstore := f s.cstore }
def State.onComp (s : State) (f : CompSt → CompSt) : State := { s with comp := f s.comp }
def State.onWeb (s : State) (w : Nat) (f : WebSt → WebSt) : State :=
  { s with webs := SMap.set WebSt.reset s.webs w (f (SMap.get WebSt.reset s.webs w)) }
def State.onJobs (s : State) (f : JobsSt → JobsSt) : State := { s with jobs := f s.jobs }
def State.onSp (s : State) (f : SpSt → SpSt) : State := { s with sp := f s.sp }
def State.onLog (s : State) (f : LogSt → LogSt) : State := { s with log := f s.log }
def State.onColo (s : State) (f : ColoSt → ColoSt) : State := { s with colo := f s.colo }
def State.onDevice (s : State) (f : DevSt → DevSt) : State := { s with device := f s.device }
def State.onFrisket (s : State) (f : FrisketSt → FrisketSt) : State := { s with frisket := f s.frisket }

/-! ## Registers -/

/-- Default severity of a fault source (R662). -/
def sevDefault (src : Nat) : Nat :=
  if src ∈ [0x000, 0x006, 0x008, 0x01B, 0x031] then 0
  else if src ∈ [0x013, 0x03A, 0x03C] then 1
  else if src ∈ [0x001, 0x002, 0x003, 0x004, 0x005, 0x015, 0x036, 0x037, 0x038, 0x039, 0x03F] then 3
  else if src ∈ [0x007, 0x009, 0x010, 0x011, 0x012, 0x014, 0x016, 0x017, 0x018, 0x019, 0x01A, 0x01C] then 2
  else if 0x020 ≤ src ∧ src ≤ 0x027 then 2
  else if src = 0x030 ∨ (0x032 ≤ src ∧ src ≤ 0x035) then 2
  else if src ∈ [0x03B, 0x03D, 0x03E, 0x040, 0x041] then 2
  else if 0x080 ≤ src ∧ src ≤ 0x0BF then 2
  else if 0x100 ≤ src ∧ src ≤ 0x20F then 2
  else 0

/-- Whether a source code is listed in the table of R662. -/
def sourceListed (src : Nat) : Bool :=
  src ≤ 0x009 || (0x010 ≤ src && src ≤ 0x01C) || (0x020 ≤ src && src ≤ 0x027) || (0x030 ≤ src && src ≤ 0x041) ||
  (0x080 ≤ src && src ≤ 0x0BF) || (0x100 ≤ src && src ≤ 0x20F)

/-- Floor of a fault source's severity (R662). -/
def sevFloor (src : Nat) : Nat :=
  if src ∈ [0x001, 0x002, 0x015, 0x036, 0x037, 0x038, 0x039] then 3
  else if src ∈ [0x007, 0x012, 0x014] then 2
  else if src = 0x013 then 1
  else 0

/-- Reset value of FAULT_SEV word i (R662, R695). -/
def sevWord (i : Nat) : Nat := (List.range 16).foldl (fun w k => w + sevDefault (16 * i + k) * 4 ^ k) 0

/-- Owner master of a Stone bank under the table of R525. -/
def ownerDefault (b : Nat) : Nat :=
  if b ≤ 1 then 0
  else if b ≤ 17 then 2 + (b - 2) / 2
  else if b ≤ 25 then 10
  else if b ≤ 27 then 11
  else if b = 28 then 12
  else if b = 29 then 13
  else if b = 30 then 15
  else 1

/-- The reset value a list of fields gives the register at `off`. -/
def resetOf (off : Nat) : List Fld → Nat
  | [] => 0
  | f :: fs =>
    let here := if f.cnt ≤ 1 then decide (f.off = off)
      else decide (f.off ≤ off) && decide (off < f.off + f.cnt * f.stride) && decide ((off - f.off) % f.stride = 0)
    (if here then f.rst * 2 ^ f.lo else 0) + resetOf off fs

/-- The reset value of the register at offset `off` of page `p`; zero on an unassigned page (R53, R876, R888). The MSI-X
table (R771) resets with every vector masked, as PCI Express has it (notes/assumptions/14.md). -/
def resetNat (p off : Nat) : Nat :=
  if p = 0x3FFE then (if off % 16 = 12 then 1 else 0)
  else match pageBlock p with
  | none => 0
  | some (b, i) =>
    if off = 0x000 then blockBase (match b with | .evtCfg => .evt | .evtTime => .evt | .evtCnt => .evt | b => b) * 2 ^ 16
      + (match b with | .evtCfg => 1 | .evtTime => 2 | .evtCnt => 3 | _ => i) * 2 ^ 8 + 0xB0
    else if off = 0x004 then b2n (blockSoftReset b) * 2 ^ 9 + b2n (blockLockable b) * 2 ^ 8 + blockEventBits b
    else if off = 0x008 then 1
    else if off < 0x040 then (if b = .router ∧ off = 0x024 then 0xF0000000 else 0)
    else if b = .router ∧ (off = 0x040 ∨ off = 0x044) then
      let c := if off = 0x040 then i % 8 else i / 8
      (List.range 8).foldl (fun w d => if 5 ≤ (d + 8 - c) % 8 then w + 2 ^ d else w) 0
    else if b = .fault ∧ 0x100 ≤ off then (if off < 0x200 then sevWord ((off - 0x100) / 4) else 0)
    else if b = .stone ∧ off < 0x060 then
      (List.range 4).foldl (fun w k => w + ownerDefault (off - 0x040 + k) * 2 ^ (8 * k)) 0
    else resetOf off (blockFields b)

/-- The reset value as a register word. -/
def resetWord (p off : Nat) : W32 := BitVec.ofNat 32 (resetNat p off)

/-- The key of a register in the register file: page p, offset off, and the index of a register shown through an
index register (0 where there is none; window entry k is index k + 1; a second copy is index 1). -/
def rkey (p off i : Nat) : Nat := (i * 0x4000 + p) * 0x1000 + off

/-- What a register holds. -/
def State.reg (s : State) (p off : Nat) (i : Nat := 0) : W32 := SMap.get (resetWord p off) s.regs (rkey p off i)

/-- The state with a register set. -/
def State.setReg (s : State) (p off : Nat) (v : W32) (i : Nat := 0) : State :=
  { s with regs := SMap.set (resetWord p off) s.regs (rkey p off i) v }

/-- What a field holds. -/
def State.get (s : State) (p : Nat) (f : Fld) (i : Nat := 0) : Nat := bits (s.reg p f.off i).toNat f.hi f.lo

/-- The state with a field set, the register's other bits kept. -/
def State.put (s : State) (p : Nat) (f : Fld) (v : Nat) (i : Nat := 0) : State :=
  s.setReg p f.off (BitVec.ofNat 32 (setBits (s.reg p f.off i).toNat f.hi f.lo v)) i

/-- A one-bit field as a Bool. -/
def State.on (s : State) (p : Nat) (f : Fld) (i : Nat := 0) : Bool := s.get p f i == 1

/-- A _LO, _HI pair as one number. -/
def State.pair (s : State) (p : Nat) (lo hi : Fld) (i : Nat := 0) : Nat := s.get p lo i + s.get p hi i * 2 ^ 32

/-- The state with a _LO, _HI pair set. -/
def State.putPair (s : State) (p : Nat) (lo hi : Fld) (v : Nat) (i : Nat := 0) : State :=
  (s.put p lo (v % 2 ^ 32) i).put p hi (v / 2 ^ 32) i

/-- The device's own serial number, as CRYPTO_SERIAL holds it from make-ready on (R116, R767). -/
def State.deviceSerial (s : State) : Nat := s.pair pgCRYPTO CRYPTO_SERIAL_LO CRYPTO_SERIAL_HI

/-- One more thing the outside sees. -/
def State.emit (s : State) (o : Output) : State := { s with out := s.out ++ [o] }

/-- The next number for a free value, taken and counted (notes/assumptions/2.md). -/
def State.takeFree (s : State) : Nat × State := (s.free, { s with free := s.free + 1 })

/-- n numbers for free values taken at once, from the one that `free` holds. -/
def State.skipFree (s : State) (n : Nat) : State := { s with free := s.free + n }

/-- 10^9 in units of 2^-10 ppb: a whole nanosecond of the frequency offset. -/
def adjUnit : Nat := 1024 * 10 ^ 9

/-- The ns that Ac counts up to time `t` (ns since power-on): none while REFCLK_SYS is absent (R841). -/
def State.acNs (s : State) (t : Nat) : Nat := if s.clock.refLost then 0 else t - s.clock.lostNs - s.mono

/-- The monotone time as Ac counts it moved to `t`, and device time with it; time never runs back. Device time advances with
PTP_ADJ_FREQ applied, in units of 2^-10 ppb, and what makes no whole nanosecond is kept (R127, R856). -/
def State.advance (s : State) (t : Nat) : State :=
  let d := s.acNs t
  let x : Int := d * ((adjUnit : Int) + signed 32 (s.get pgPTP PTP_ADJ_FREQ)) + s.clock.frac
  { s with mono := s.mono + d, dev := ((s.dev : Int) + x / (adjUnit : Int)).toNat
           clock := { s.clock with
             frac := (x % (adjUnit : Int)).toNat, lostNs := s.clock.lostNs + (t - s.clock.lostNs - s.mono - d) } }

/-- Nc cycles since power-on: 1.5 GHz (R21). -/
def State.ncNow (s : State) : Nat := s.mono * 3 / 2 % 2 ^ 48

/-! ## Page header: probes, events, counters, faults, ignored writes -/

/-- One count of a page probe that is not a ROUTER page's: event `ev`, for events 1 to 3 filtered by master (R880). -/
def State.probe (s : State) (p ev master : Nat) : State :=
  match pageBlock p with
  | none => s
  | some (.router, _) => s
  | some _ =>
    if s.get p PROBE_SEL_EVENT = ev ∧
        (4 ≤ ev ∨ s.on p PROBE_FILTER_MASTER_EN = false ∨ s.get p PROBE_FILTER_MASTER = master) then
      let n := s.pair p PROBE_CNT_LO PROBE_CNT_HI + 1
      if n = 2 ^ 48 then (s.putPair p PROBE_CNT_LO PROBE_CNT_HI 0).put p PROBE_SEL_OVF 1
      else s.putPair p PROBE_CNT_LO PROBE_CNT_HI n
    else s

/-- An EVENT packet to the Event Controller naming a source (R622). -/
def State.raisePacket (s : State) (src : Nat) : State :=
  { s with evt := { s.evt with incoming := s.evt.incoming ++ [src] } }

/-- A page event: its EVT_PEND bit is set, and an EVENT packet goes out when PAGE_CTRL.ENABLE and the bit's EVT_ENABLE
are 1 (R622, R877, R878). -/
def State.event (s : State) (p k : Nat) : State :=
  let s1 := (s.put p EVT_PEND (setBit (s.get p EVT_PEND) k true)).probe p 4 0
  if s1.on p PAGE_CTRL_ENABLE && bit (s1.get p EVT_ENABLE) k then s1.raisePacket (128 + p) else s1

/-- The COUNTER_SATURATED event of a page, where its block defines one. -/
def State.satEvent (s : State) (p : Nat) : State :=
  match pageBlock p with
  | some (b, _) => match blockSatBit b with
    | some k => s.event p k
    | none => s
  | none => s

/-- A saturating counter field advanced by n; reaching its maximum raises the page's COUNTER_SATURATED (R29). -/
def State.count (s : State) (p : Nat) (f : Fld) (n : Nat := 1) (i : Nat := 0) : State :=
  let top := 2 ^ f.width - 1
  let old := s.get p f i
  let new := min (old + n) top
  let s1 := s.put p f new i
  if old < top ∧ new = top then s1.satEvent p else s1

/-- A 64-bit wrapping counter pair advanced by n (R30). -/
def State.count64 (s : State) (p : Nat) (lo hi : Fld) (n : Nat := 1) : State :=
  s.putPair p lo hi ((s.pair p lo hi + n) % 2 ^ 64)

/-- A block sends a fault message, counted on the page of the unit it names (R658, R878, R879). -/
def State.report (s : State) (page src kind addr detail : Nat) : State :=
  let s1 := s.put page FAULT_SUMMARY_COUNT (min (s.get page FAULT_SUMMARY_COUNT + 1) 0xFFFF)
  let s2 := s1.put page FAULT_SUMMARY_LAST_KIND kind
  { s2 with fault := { s2.fault with net := s2.fault.net ++ [⟨src, kind, addr % 2 ^ 48, detail % 2 ^ 32⟩] } }

/-- The collector raises a message itself (R660). -/
def State.localFault (s : State) (src kind addr detail : Nat) : State :=
  let s1 := s.put pgFAULT FAULT_SUMMARY_COUNT (min (s.get pgFAULT FAULT_SUMMARY_COUNT + 1) 0xFFFF)
  let s2 := s1.put pgFAULT FAULT_SUMMARY_LAST_KIND kind
  { s2 with fault := { s2.fault with loc := s2.fault.loc ++ [⟨src, kind, addr % 2 ^ 48, detail % 2 ^ 32⟩] } }

/-- The reason codes of R884. -/
inductive Reason where
  | accessSize | wrongMaster | notInService | quoined | readOnlyRange | reservedCode | outOfRange | address | busy
  | state | alreadyRunning | commitRefused | stagingDiscard | powerRefused | debugDisabled | noSoftReset
deriving DecidableEq, Repr

/-- The number of a reason code. -/
def Reason.code : Reason → Nat
  | .accessSize => 1 | .wrongMaster => 2 | .notInService => 3 | .quoined => 4 | .readOnlyRange => 5
  | .reservedCode => 6 | .outOfRange => 7 | .address => 8 | .busy => 9 | .state => 10 | .alreadyRunning => 11
  | .commitRefused => 12 | .stagingDiscard => 13 | .powerRefused => 14 | .debugDisabled => 15 | .noSoftReset => 16

/-- An ignored write recorded in IGNORED_CAUSE of a page (R36, R882). -/
def State.ignored (s : State) (p off : Nat) (r : Reason) : State :=
  let s1 := s.put p IGNORED_CAUSE_COUNT (min (s.get p IGNORED_CAUSE_COUNT + 1) 255)
  let s2 := (s1.put p IGNORED_CAUSE_REASON r.code).put p IGNORED_CAUSE_OFFSET off
  s2.probe p 3 0

/-- The reason of lowest code among several (R884). -/
def lowest : List Reason → Option Reason
  | [] => none
  | r :: rs => match lowest rs with
    | none => some r
    | some r' => some (if r.code ≤ r'.code then r else r')

/-- The reasons a write to any block register of a page is ignored whatever it writes: the unit out of service (R875),
a soft reset in progress (R887). -/
def State.pageReasons (s : State) (p : Nat) : List Reason :=
  (if s.on p PAGE_STATUS_IN_SERVICE then [] else [.notInService]) ++
  (if s.on p PAGE_STATUS_RESETTING then [.busy] else [])

/-- A condition that gives a reason. -/
def reasonIf (c : Bool) (r : Reason) : List Reason := if c then [r] else []

/-- The impression period P in ns; zero while no program is loaded (R808). -/
def State.period (s : State) : Nat := s.get pgJOBS JOBS_SP_PERIOD_NS_P

/-- A standing program runs (R794). -/
def State.running (s : State) : Bool := s.on pgJOBS JOBS_SP_STATUS_RUNNING

/-- RWL fields of a page are locked (R881). -/
def State.quoined (s : State) (p : Nat) : Bool := s.on p PAGE_CTRL_QUOIN

/-! ## Sleep and wake -/

/-- A power domain's state code (R843): 0 Run, 1 Idle, 2 Nap, 3 Hold, 4 Off. -/
def State.domState (s : State) (d : Nat) : Nat := s.get pgPOWER POWER_SLEEP_STATUS_STATE (d + 1)

/-- A domain's transitions. -/
def State.domain (s : State) (d : Nat) : DomainSt := SMap.get DomainSt.reset s.power.dom d

/-- A domain's transitions set. -/
def State.setDomain (s : State) (d : Nat) (x : DomainSt) : State :=
  { s with power := { s.power with dom := SMap.set DomainSt.reset s.power.dom d x } }

/-- A domain accepts no work: it is in Nap or Hold, or has lowered READY at the end of step 1 of an entry (R604, R850). -/
def State.asleep (s : State) (d : Nat) : Bool :=
  s.domState d == 2 || s.domState d == 3 ||
  match (s.domain d).entering with
  | some (_, step) => decide (2 ≤ step)
  | none => false

/-- The PLL that a clock monitor watches has not lost lock (R840). -/
def State.pllUp (s : State) (k : Nat) : Bool := !s.clock.unlocked.contains k

/-- The Colophon's cores have a clock: their PLL, or Ac in Hold (R418, R840). -/
def State.coloClock (s : State) : Bool := s.pllUp 73 || s.domState 0 == 3

/-- One domain woken by a source: from Idle at once; from Nap or Hold a wake starts; during entry the entry is to stop; a wake
on its way to Nap goes on to Run (R847, R851 to R854). -/
def State.wakeOne (s : State) (d src : Nat) : State :=
  let ds := s.domain d
  let st := s.domState d
  if ds.entering.isSome then (if ds.stopWake.isSome then s else s.setDomain d { ds with stopWake := some src })
  else match ds.waking with
  | some (_, target) => if target = 0 then s else s.setDomain d { ds with waking := some (src, 0), wakeAt := s.mono }
  | none =>
    if st = 1 then s.put pgPOWER POWER_SLEEP_STATUS_STATE 0 (d + 1)
    else if st = 2 ∨ st = 3 then s.setDomain d { ds with waking := some (src, 0), wakeAt := s.mono }
    else s

/-- A domain woken, and with it the network domain where that sleeps (R855). -/
def State.wake (s : State) (d src : Nat) : State :=
  let s1 := s.wakeOne d src
  if s.asleep d ∧ d ≠ 3 then s1.wakeOne 3 src else s1

/-- Every domain of a wake map woken (R854). -/
def State.wakeMap (s : State) (src : Nat) : State :=
  let m := s.pair pgPOWER POWER_WAKE_MAP_LO POWER_WAKE_MAP_HI (src + 1)
  (bitList 52 m).foldl (fun s d => s.wake d src) s

/-! ## Device memory -/

/-- Base of Reel memory (R50). -/
def reelBase : Nat := 0x010000000000
/-- Base of the register window (R50). -/
def regBase : Nat := 0x00F000000000
/-- Base of the control store window (R50). -/
def cstoreBase : Nat := 0x000010000000

/-- What lies at a device address (R50). -/
inductive Place where
  | stone | cstore | regs | reel | reserved
deriving DecidableEq, Repr

/-- The place of a device address, by the map of R50 and the control store window's own end (R54). -/
def placeOf (a : Nat) : Place :=
  if a < 0x04000000 then .stone
  else if cstoreBase ≤ a ∧ a < 0x10148000 then .cstore
  else if regBase ≤ a ∧ a < 0x00F004000000 then .regs
  else if reelBase ≤ a ∧ a < 0x011000000000 then .reel
  else .reserved

/-- The physical stacks that make-ready put in service, rising: a stack lost during a run keeps its place in the map, in
the bank hash and in the ledger until the next make-ready (R76, R564). -/
def State.stacks (s : State) : List Nat :=
  (List.range 4).filter fun k => s.on (pgREEL k) REEL_STATUS_IN_SERVICE || SMap.get false s.mem.stackLost k

/-- Populated Reel bytes: 16 GiB for each stack in service (R77). -/
def State.reelBytes (s : State) : Nat := s.stacks.length * 2 ^ 34

/-- Owner of a Stone bank; 31 when it is out of service (R525, R565). -/
def State.bankOwner (s : State) (b : Nat) : Nat :=
  bits (s.reg pgSTONE (0x040 + b / 4 * 4)).toNat (8 * (b % 4) + 4) (8 * (b % 4))

/-- One device address holds memory or registers that can be reached (R52). -/
def State.reachable (s : State) (a : Nat) : Bool :=
  match placeOf a with
  | .stone => s.bankOwner (a / 2 ^ 21) != 31
  | .cstore => true
  | .regs => true
  | .reel => decide (a < reelBase + s.reelBytes)
  | .reserved => false

/-- An extent of device addresses can be reached whole (R52). An extent within one aligned 2 MiB block or within the
populated Reel range is judged by its ends. -/
def State.extentOk (s : State) (a len : Nat) : Bool :=
  if len = 0 then true
  else
    let e := a + len - 1
    match placeOf a, placeOf e with
    | .stone, .stone => (List.range (e / 2 ^ 21 - a / 2 ^ 21 + 1)).all fun k => s.bankOwner (a / 2 ^ 21 + k) != 31
    | .cstore, .cstore => true
    | .regs, .regs => true
    | .reel, .reel => decide (e < reelBase + s.reelBytes)
    | _, _ => false

/-- Region r of a master (R529, R530): 16 for each of 18 masters. Region 0 of the Colophon resets to WHOLE (R536). -/
def regionReset (k : Nat) : Region :=
  if k = 16 then { base := 0, size := 0, r := true, w := true, whole := true } else Region.none

def State.region (s : State) (m r : Nat) : Region := SMap.get (regionReset (m * 16 + r)) s.mem.regions (m * 16 + r)

/-- One region covers an extent and grants the right (R530, R531). -/
def Region.grants (g : Region) (a len : Nat) (write : Bool) : Bool :=
  (if write then g.w else g.r) &&
  (if g.whole then decide (a + len ≤ 2 ^ 48)
   else decide (0 < g.size) && decide (g.base ≤ a) && decide (a + len ≤ g.base + 256 * g.size))

/-- Some one region of a master grants an access (R531). -/
def State.regionOk (s : State) (m a len : Nat) (write : Bool) : Bool :=
  (List.range 16).any fun r => (s.region m r).grants a len write

/-- The page a master's ACCESS_REFUSED counts on: the STONE page, whose region and address checks source 0x031 names. -/
def accessPage : Nat := pgSTONE

/-- An access refused because its address is reserved or unpopulated (R52): ACCESS_REFUSED, detail bit 5. -/
def State.refuseAddress (s : State) (m a : Nat) (write : Bool) : State :=
  s.report accessPage 0x031 18 a (m + 2 ^ 5 + b2n write * 2 ^ 6)

/-- An access refused by the region registers (R532). -/
def State.refuseRegion (s : State) (m a : Nat) (write : Bool) : State :=
  let s1 := (s.report accessPage 0x031 18 a (m + b2n write * 2 ^ 6)).count pgSTONE STONE_REGION_REFUSED
  let s2 := s1.put pgSTONE STONE_REGION_LAST_LO (a % 2 ^ 32)
  let s3 := ((s2.put pgSTONE STONE_REGION_LAST_WRITE (b2n write)).put pgSTONE STONE_REGION_LAST_MASTER m)
  (s3.put pgSTONE STONE_REGION_LAST_ADDR_HI (a / 2 ^ 32)).event pgSTONE 3

/-- A master may reach a register: the host through BAR0 is not checked, every other access needs a region (R533). -/
def State.pageAllows (s : State) (m p off : Nat) (write : Bool) : Bool :=
  m == 13 || s.regionOk m (regBase + p * 0x1000 + off) 4 write

/-- A write to a register with a row of its own: ignored and recorded for the lowest of the page's reasons and those
given, else it has its effect (R875, R882, R884, R887). The write counts for the page's probe (R880). -/
def State.tryWrite (s : State) (master p off : Nat) (rs : List Reason) (k : State → State) : State :=
  if s.pageAllows master p off true = false then s.refuseRegion master (regBase + p * 0x1000 + off) true
  else
    let s1 := s.probe p 2 master
    match lowest (s1.pageReasons p ++ rs) with
    | some r => s1.ignored p off r
    | none => k s1

/-- The byte at a device address of Stone or Reel. An unlisted byte reads as zero (notes/assumptions/5.md). -/
def State.byte (s : State) (a : Nat) : Byte :=
  if a < reelBase then SMap.get 0#8 s.mem.stone a else SMap.get 0#8 s.mem.reel a

/-- One byte of Stone or Reel set. -/
def State.setByte (s : State) (a : Nat) (b : Byte) : State :=
  if a < reelBase then { s with mem := { s.mem with stone := SMap.set 0#8 s.mem.stone a b } }
  else { s with mem := { s.mem with reel := SMap.set 0#8 s.mem.reel a b } }

/-- The bytes from a device address. -/
def State.bytes (s : State) (a len : Nat) : List Byte := (List.range len).map fun i => s.byte (a + i)

/-- Bytes stored from a device address on. -/
def State.setBytes (s : State) : Nat → List Byte → State
  | _, [] => s
  | a, b :: bs => (s.setByte a b).setBytes (a + 1) bs

/-- A little-endian number read from memory. -/
def State.numAt (s : State) (a n : Nat) : Nat := ofLE (s.bytes a n)

/-- The stack index among those in service, pseudo-channel and bank of a Reel address (R514). -/
def reelPlace (k a : Nat) : Nat × Nat × Nat :=
  let g := (a - reelBase) / 256
  let q := g / k
  let f := (List.range 13).foldl (fun x i => x ^^^ bits q (2 * i + 1) (2 * i)) 0
  ((g % k + f) % k,
   bits q 4 0 ^^^ bits q 13 9 ^^^ bits q 18 14 ^^^ bits q 23 19,
   bits q 8 5 ^^^ bits q 16 13 ^^^ bits q 24 21)

/-- The physical stack that holds a Reel address; stack 0 when none is in service. -/
def State.stackOf (s : State) (a : Nat) : Nat :=
  if s.stacks.length = 0 then 0 else s.stacks.getD (reelPlace s.stacks.length a).1 0

/-- The protected words an extent touches: 8-byte words of Stone (R519), 64-byte codewords of Reel (R537). -/
def wordsTouched (a len : Nat) : List Nat :=
  if len = 0 then []
  else
    let u := if a < reelBase then 8 else 64
    (List.range ((a + len - 1) / u - a / u + 1)).map fun i => (a / u + i) * u

/-- The protected words an extent covers in part, which a write merges (R520, R538). -/
def wordsMerged (a len : Nat) : List Nat :=
  let u := if a < reelBase then 8 else 64
  (wordsTouched a len).filter fun w => decide (w < a) || decide (a + len < w + u)

/-- A word of Stone or codeword of Reel is uncorrectable. -/
def State.isBad (s : State) (w : Nat) : Bool :=
  if w < reelBase then SMap.get false s.mem.badStone w else SMap.get false s.mem.badReel w

/-- A word of Stone or codeword of Reel has a correctable error. -/
def State.isWeak (s : State) (w : Nat) : Bool :=
  if w < reelBase then SMap.get false s.mem.weakStone w else SMap.get false s.mem.weakReel w

/-- A word met with a correctable error: delivered corrected, counted, its rewrite queued (R521, R540). -/
def State.corrected (s : State) (w : Nat) : State :=
  if w < reelBase then
    let s1 := s.count pgSTONE STONE_CORRECTED
    { s1 with mem := { s1.mem with stoneRewrites := if w ∈ s1.mem.stoneRewrites then s1.mem.stoneRewrites
                                                    else s1.mem.stoneRewrites ++ [w] } }
  else
    let s1 := s.count (pgREEL (s.stackOf w)) REEL_CORRECTED
    { s1 with mem := { s1.mem with reelRewrites := if w ∈ s1.mem.reelRewrites then s1.mem.reelRewrites
                                                   else s1.mem.reelRewrites ++ [w] } }

/-- A word met uncorrectable: counted and reported with its address and the master (R522, R540); `scrub` sets detail
bit 5. -/
def State.uncorrectable (s : State) (m w : Nat) (scrub : Bool) : State :=
  let det := m + b2n scrub * 2 ^ 5
  if w < reelBase then ((s.count pgSTONE STONE_UNCORR).event pgSTONE 0).report pgSTONE 0x030 17 w det
  else
    let k := s.stackOf w
    let s1 := ((s.count (pgREEL k) REEL_UNCORR).event (pgREEL k) 0).putPair (pgREEL k) REEL_LAST_UNCORR_LO REEL_LAST_UNCORR_HI w
    s1.report (pgREEL k) (0x032 + k) 17 w det

/-- The words of an extent read: weak ones corrected, bad ones reported; true when none was bad. -/
def State.readWords (s : State) (m : Nat) (scrub : Bool) : List Nat → Bool × State
  | [] => (true, s)
  | w :: ws =>
    if s.isBad w then
      let r := (s.uncorrectable m w scrub).readWords m scrub ws
      (false, r.2)
    else
      let s1 := if s.isWeak w then s.corrected w else s
      s1.readWords m scrub ws

/-- The result of a checked read: the bytes; a refusal (R52, R532); an uncorrectable error (R522, R540). -/
inductive ReadResult where
  | ok (bs : List Byte)
  | refused
  | uncorr
deriving DecidableEq, Repr

/-- An extent of Stone or of Reel memory that can be reached; the control store and the register window are read and written
by operations of their own. -/
def State.memOk (s : State) (a len : Nat) : Bool :=
  s.extentOk a len && (match placeOf a with
    | .stone => true
    | .reel => true
    | _ => false)

/-- Memory read by a master without the region check (after one): address check, ECC, bytes. -/
def State.readRaw (s : State) (m a len : Nat) : ReadResult × State :=
  if s.memOk a len = false then (.refused, s.refuseAddress m a false)
  else
    let r := s.readWords m false (wordsTouched a len)
    if r.1 then (.ok (s.bytes a len), r.2) else (.uncorr, r.2)

/-- Memory read by a master: address map (R52), regions (R531), ECC (R522, R540), then the bytes. -/
def State.read (s : State) (m a len : Nat) : ReadResult × State :=
  if s.memOk a len = false then (.refused, s.refuseAddress m a false)
  else if s.regionOk m a len false = false then (.refused, s.refuseRegion m a false)
  else s.readRaw m a len

/-- A protected word rewritten whole by a write: its error marks and any queued rewrite go (R521, R540, R553). -/
def State.clearWord (s : State) (w : Nat) : State :=
  if w < reelBase then
    { s with mem := { s.mem with badStone := SMap.set false s.mem.badStone w false
                                 weakStone := SMap.set false s.mem.weakStone w false
                                 stoneRewrites := s.mem.stoneRewrites.filter (· != w) } }
  else
    { s with mem := { s.mem with badReel := SMap.set false s.mem.badReel w false
                                 weakReel := SMap.set false s.mem.weakReel w false
                                 reelRewrites := s.mem.reelRewrites.filter (· != w) } }

/-- One protected word written with the bytes of [a, a + bs.length) that fall in it. A merge into an uncorrectable word
writes nothing to it and is reported; a merge meets and corrects a correctable one (R520, R523, R538, R540). -/
def State.writeWord (s : State) (m a : Nat) (bs : List Byte) (w : Nat) : Bool × State :=
  let u := if w < reelBase then 8 else 64
  let lo := max w a
  let hi := min (w + u) (a + bs.length)
  let part := (bs.drop (lo - a)).take (hi - lo)
  let merge := decide (hi - lo < u)
  if merge && s.isBad w then (false, s.uncorrectable m w false)
  else
    let s1 := if merge && s.isWeak w then s.corrected w else s
    (true, (s1.clearWord w).setBytes lo part)

/-- The words of a write in turn; true when every one was written. -/
def State.writeWords (s : State) (m a : Nat) (bs : List Byte) : List Nat → Bool × State
  | [] => (true, s)
  | w :: ws =>
    let r := s.writeWord m a bs w
    let r' := r.2.writeWords m a bs ws
    (r.1 && r'.1, r'.2)

/-- The result of a checked write. -/
inductive WriteResult where
  | ok | refused | uncorr
deriving DecidableEq, Repr

/-- Memory written by a master without the region check (after one). -/
def State.writeRaw (s : State) (m a : Nat) (bs : List Byte) : WriteResult × State :=
  if s.memOk a bs.length = false then (.refused, s.refuseAddress m a true)
  else
    let r := s.writeWords m a bs (wordsTouched a bs.length)
    (if r.1 then .ok else .uncorr, r.2)

/-- Memory written by a master: address map (R52), regions (R531), then the words (R520, R523, R538). -/
def State.write (s : State) (m a : Nat) (bs : List Byte) : WriteResult × State :=
  if s.memOk a bs.length = false then (.refused, s.refuseAddress m a true)
  else if s.regionOk m a bs.length true = false then (.refused, s.refuseRegion m a true)
  else s.writeRaw m a bs

end Sys2Proof.Machine
end

