-- ==== Sys2Proof/Machine/RegOps.lean ====
section
/-!
DEFINITION. A register written by its fields' access codes (spec/01, R27; spec/18, R881, R885).
-/
namespace Sys2Proof.Machine

/-- The fields of the register at an offset of a page; LOG_CTRL.MIRROR is reserved on page 0x0B9 (R768). -/
def fieldsAt (p off : Nat) : List Fld :=
  match pageBlock p with
  | none => []
  | some (b, i) => (headerFields ++ (if b = .router then [] else probeFields) ++ blockFields b).filterMap fun f =>
    if b = .logport ∧ i = 1 ∧ off = 0x040 ∧ f.lo = 1 then none
    else if f.cnt ≤ 1 then (if f.off = off then some f else none)
    else if f.off ≤ off ∧ off < f.off + f.cnt * f.stride ∧ (off - f.off) % f.stride = 0 then some { f with off := off } else none

/-- The fields of a register that a write stores: RW, and RWL while the page is not quoined; a write that meets a locked
field is recorded with reason QUOINED and the other fields take it (R27, R881, R885). -/
def State.storeReg (s : State) (p off : Nat) (v : W32) (i : Nat := 0) : State :=
  let fs := fieldsAt p off
  let lock := s.quoined p && fs.any (·.acc == .rwl)
  let s1 := fs.foldl (fun s f =>
    if f.acc = .rw ∨ (f.acc = .rwl ∧ lock = false) then s.put p f (bits v.toNat f.hi f.lo) i else s) s
  if lock then s1.ignored p off .quoined else s1

end Sys2Proof.Machine
end

