-- ==== Sys2Proof/Machine/Alive.lean ====
section
/-!
DEFINITION. The ALIVE pin and the heartbeat (spec/12, R690 to R693).
-/
namespace Sys2Proof.Machine

/-- ALIVE may toggle (R690). -/
def State.aliveOk (s : State) : Bool :=
  s.on pgFAULT FAULT_ALIVE_ENABLE && s.fault.hbCurrent && !s.on pgFAULT FAULT_STATUS_FATAL && !s.on pgFAULT FAULT_STATUS_HB_MISSED

/-- A half period of ALIVE begins: its length is HALF_AC as it is now; a change applies from the next edge (R690). -/
def State.aliveBegin (s : State) : State :=
  s.onFault fun f => { f with aliveAt := s.mono, aliveHalf := s.get pgFAULT FAULT_ALIVE_HALF_AC }

/-- ALIVE_RUNNING follows its conditions; a start counts a whole half period to the first edge. -/
def State.aliveCheck (s : State) : State :=
  let was := s.on pgFAULT FAULT_STATUS_ALIVE_RUNNING
  let s1 := s.put pgFAULT FAULT_STATUS_ALIVE_RUNNING (b2n s.aliveOk)
  if s.aliveOk && !was then s1.aliveBegin else s1

/-- ALIVE_TOGGLE (R690): an edge, HALF_AC Ac cycles after the one before. -/
def execAliveToggle (t : Nat) (s : State) : Result :=
  let s := s.advance t
  if s.aliveOk && decide (s.fault.aliveAt + 40 * s.fault.aliveHalf ≤ s.mono) then
    .next ((s.put pgFAULT FAULT_STATUS_ALIVE_LEVEL (1 - s.get pgFAULT FAULT_STATUS_ALIVE_LEVEL)).put pgFAULT
      FAULT_STATUS_ALIVE_RUNNING 1).aliveBegin
  else .next s

/-- ALIVE_ENABLE_WRITE (R690, R693, R695): a write of FAULT_ALIVE; HALF_AC outside its range is ignored. -/
def execAliveEnableWrite (m : Nat) (v : W32) (t : Nat) (s : State) : Result :=
  let half := bits v.toNat 16 0
  .next ((s.advance t).tryWrite m pgFAULT 0x0C4 (reasonIf (decide (half < 1250) || decide (125000 < half)) .outOfRange) fun s =>
    (s.storeReg pgFAULT 0x0C4 v).aliveCheck)

/-- The heartbeat renewed: current until its deadline; not after it was missed (R691, R693). -/
def State.kick (s : State) : State :=
  if s.on pgFAULT FAULT_STATUS_HB_MISSED then s
  else (s.onFault fun f => { f with hbCurrent := true, lastKick := s.mono }).aliveCheck

/-- Both cores of the Colophon are halted: no instruction of its firmware runs, so no kick comes and the heartbeat lapses
(R463). -/
def State.coloHalted (s : State) : Bool :=
  (SMap.get CoreSt.reset s.cores 3).halted && (SMap.get CoreSt.reset s.cores 4).halted

/-- Firmware runs: from make-ready on, until the Colophon's cores stop or halt or lose their clock (R463, R735, R840). -/
def State.firmware (s : State) : Bool :=
  decide (1 ≤ s.device.stage) && !s.device.coloStopped && !s.coloHalted && s.coloClock

/-- The deadline of the heartbeat (R691). -/
def State.hbDeadline (s : State) : Nat := s.fault.lastKick + s.get pgFAULT FAULT_HB_CFG_TIMEOUT_MS * 1000000

/-- The heartbeat is missed where its deadline has passed: HB_MISSED, and fatal HEARTBEAT_MISSED from source 0x002
(R692). -/
def State.hbPass (s : State) : State :=
  if s.fault.hbCurrent && decide (s.hbDeadline ≤ s.mono) then
    (((s.onFault fun f => { f with hbCurrent := false }).put pgFAULT FAULT_STATUS_HB_MISSED 1).localFault 0x002 36 0 0).aliveCheck
  else s

/-- HEARTBEAT_KICK (R463, R691): a write of FAULT_HEARTBEAT; only the Colophon kicks, and only while it is not halted. A
kick in the Ac cycle of the deadline keeps the heartbeat current; a later one finds it missed. -/
def execHeartbeatKick (m : Nat) (v : W32) (t : Nat) (s : State) : Result :=
  let s := s.advance t
  let s := if s.hbDeadline / 40 < s.mono / 40 then s.hbPass else s
  .next (s.tryWrite m pgFAULT 0x0C8 (reasonIf (v.getLsbD 0 && m != 1) .wrongMaster) fun s =>
    if v.getLsbD 0 && !s.coloHalted then s.kick else s)

/-- HB_TIMEOUT_WRITE (R691, R695): a write of FAULT_HB_CFG moves the deadline, which may have passed. -/
def execHbTimeoutWrite (m : Nat) (v : W32) (t : Nat) (s : State) : Result :=
  let n := bits v.toNat 9 0
  .next ((s.advance t).tryWrite m pgFAULT 0x0CC (reasonIf (decide (n = 0) || decide (1000 < n)) .outOfRange) fun s =>
    (s.storeReg pgFAULT 0x0CC v).hbPass)

/-- HEARTBEAT_DEADLINE (R692). -/
def execHeartbeatDeadline (t : Nat) (s : State) : Result := .next (s.advance t).hbPass

end Sys2Proof.Machine
end

