-- ==== Sys2Proof/Machine/Ledger.lean ====
section
/-!
DEFINITION. The bandwidth ledger of Reel memory and its two commands (spec/09, R555 to R564, R928).
-/
namespace Sys2Proof.Machine

/-- The reservable bandwidth in MB/s, which changes only at make-ready (R555, R564). -/
def State.capacityMbs (s : State) : Nat := s.get pgSTONE STONE_LEDGER_CAPACITY

/-- What entry 0 reserves: the larger of its value in force and of a table that waits (R561). -/
def State.entry0Held (s : State) : Nat := max s.mem.entry0 (s.mem.entry0New.getD 0)

/-- The reserved total of entries 1 to 31 of a ledger. -/
def ledgerSum (l : SMap LedgerEntry) : Nat := (l.map (·.2.rate)).sum

/-- The reserved total in force: STONE_LEDGER_TOTAL (R557). -/
def State.ledgerTotal (s : State) : Nat := s.entry0Held + ledgerSum s.mem.ledger

/-- The staged entry k, 1 to 31 (R558). -/
def State.stagedEntry (s : State) (k : Nat) : LedgerEntry :=
  { master := s.get pgSTONE STONE_LEDGER_MASTER (k + 1), rate := s.get pgSTONE STONE_LEDGER_RATE (k + 1) }

/-- The staged entries 1 to 31. -/
def State.staged (s : State) : SMap LedgerEntry :=
  (List.range 31).foldl (fun l k => SMap.set LedgerEntry.none l (k + 1) (s.stagedEntry (k + 1))) []

/-- The check's code (R559): it judges the entries as they stood at GO (DESIGN CHOICE, notes/assumptions/51.md). -/
def State.ledgerCode (s : State) : Nat :=
  if s.stacks = [] then 2
  else if s.mem.checking.any (fun x => decide (x.2.rate ≠ 0) && decide (17 ≤ x.2.master)) then 3
  else if s.capacityMbs < s.entry0Held + ledgerSum s.mem.checking then 4
  else 0

/-- A refused ledger commit: ERROR, LEDGER_REFUSED, and the ignored write (R558, R928). -/
def State.ledgerRefused (s : State) (code : Nat) (r : Reason) : State :=
  ((s.put pgSTONE STONE_LEDGER_STATUS_ERROR code).event pgSTONE 2).ignored pgSTONE 0x0A4 r

/-- The ledger check in progress ends (R558, R559). -/
def State.ledgerCheckEnd (s : State) : State :=
  if s.on pgSTONE STONE_LEDGER_STATUS_CHECKING then
    let s1 := s.put pgSTONE STONE_LEDGER_STATUS_CHECKING 0
    match s1.ledgerCode with
    | 0 => s1.onMem fun m => { m with ledger := m.checking }
    | c => s1.ledgerRefused c .commitRefused
  else s

/-- LEDGER_COMMIT (R558, R928): GO starts the check; while one runs the commit fails PENDING, recorded BUSY. -/
def execLedgerCommit (m : Nat) (s : State) : Result :=
  .next (s.tryWrite m pgSTONE 0x0A4 [] fun s =>
    if s.on pgSTONE STONE_LEDGER_STATUS_CHECKING then s.ledgerRefused 1 .busy
    else (s.onMem fun m => { m with checking := s.staged }).put pgSTONE STONE_LEDGER_STATUS_CHECKING 1)

/-- LEDGER_CHECK_DONE (R558, R559). -/
def execLedgerCheckDone (s : State) : Result := .next s.ledgerCheckEnd

/-- An imposition commit passes admission (R561): entry 0's new value, and while the table waits the larger one. -/
def State.admission (s : State) (new : Nat) : Bool := decide (new + ledgerSum s.mem.ledger ≤ s.capacityMbs)

/-- Entry 0 holds the larger of two values until the table takes effect (R561). -/
def State.entry0Wait (s : State) (new : Nat) : State :=
  (s.onMem fun m => { m with entry0New := some new }).put pgSTONE STONE_LEDGER_STATUS_IMPOSE_HELD 1

/-- Entry 0 takes its new value (R561). -/
def State.entry0Take (s : State) : State :=
  match s.mem.entry0New with
  | some n => (s.onMem fun m => { m with entry0 := n, entry0New := none }).put pgSTONE STONE_LEDGER_STATUS_IMPOSE_HELD 0
  | none => s

/-! ## Token buckets (R562, R563): thousandths of a byte -/

/-- A master's reservation in MB/s (R562). -/
def State.reservation (s : State) (m : Nat) : Nat :=
  ((s.mem.ledger.filter (·.2.master == m)).map (·.2.rate)).sum + (if m = 11 then s.entry0Held else 0)

/-- The tokens a master's bucket holds now: filled at its rate since it was last looked at, at most 8 µs of it. A MB/s
is a thousandth of a byte each ns. -/
def State.tokensNow (s : State) (m : Nat) : Nat :=
  let (tok, at') := SMap.get (0, 0) s.mem.tokens m
  let rate := s.reservation m
  min (rate * 8000) (tok + rate * (s.mono - at'))

/-- A Reel request of n codewords by a master: guaranteed, taking its tokens, when the bucket holds enough; else best
effort (R562). -/
def State.meter (s : State) (m n : Nat) : Bool × State :=
  let have' := s.tokensNow m
  let need := n * 64000
  let left := if need ≤ have' then have' - need else have'
  (decide (need ≤ have'), s.onMem fun x => { x with tokens := SMap.set (0, 0) x.tokens m (left, s.mono) })

end Sys2Proof.Machine
end

