-- ==== Sys2Proof/Machine/Crypto.lean ====
section
/-!
DEFINITION. SHA-384 (FIPS 180-4), which the specification names for pairing, measurements, the signed record and
images (R115, R116, R741, R749). It is a function of its message, so it is computed and not left free.
-/
namespace Sys2Proof.Machine

/-- Rotate right of a 64-bit word. -/
def rotr (x : W64) (n : Nat) : W64 := (x >>> n) ||| (x <<< (64 - n))

/-- The eighty round constants of SHA-512 and SHA-384. -/
def shaK : List W64 :=
  [0x428A2F98D728AE22#64, 0x7137449123EF65CD#64, 0xB5C0FBCFEC4D3B2F#64, 0xE9B5DBA58189DBBC#64, 0x3956C25BF348B538#64, 0x59F111F1B605D019#64, 0x923F82A4AF194F9B#64, 0xAB1C5ED5DA6D8118#64] ++
  [0xD807AA98A3030242#64, 0x12835B0145706FBE#64, 0x243185BE4EE4B28C#64, 0x550C7DC3D5FFB4E2#64, 0x72BE5D74F27B896F#64, 0x80DEB1FE3B1696B1#64, 0x9BDC06A725C71235#64, 0xC19BF174CF692694#64] ++
  [0xE49B69C19EF14AD2#64, 0xEFBE4786384F25E3#64, 0x0FC19DC68B8CD5B5#64, 0x240CA1CC77AC9C65#64, 0x2DE92C6F592B0275#64, 0x4A7484AA6EA6E483#64, 0x5CB0A9DCBD41FBD4#64, 0x76F988DA831153B5#64] ++
  [0x983E5152EE66DFAB#64, 0xA831C66D2DB43210#64, 0xB00327C898FB213F#64, 0xBF597FC7BEEF0EE4#64, 0xC6E00BF33DA88FC2#64, 0xD5A79147930AA725#64, 0x06CA6351E003826F#64, 0x142929670A0E6E70#64] ++
  [0x27B70A8546D22FFC#64, 0x2E1B21385C26C926#64, 0x4D2C6DFC5AC42AED#64, 0x53380D139D95B3DF#64, 0x650A73548BAF63DE#64, 0x766A0ABB3C77B2A8#64, 0x81C2C92E47EDAEE6#64, 0x92722C851482353B#64] ++
  [0xA2BFE8A14CF10364#64, 0xA81A664BBC423001#64, 0xC24B8B70D0F89791#64, 0xC76C51A30654BE30#64, 0xD192E819D6EF5218#64, 0xD69906245565A910#64, 0xF40E35855771202A#64, 0x106AA07032BBD1B8#64] ++
  [0x19A4C116B8D2D0C8#64, 0x1E376C085141AB53#64, 0x2748774CDF8EEB99#64, 0x34B0BCB5E19B48A8#64, 0x391C0CB3C5C95A63#64, 0x4ED8AA4AE3418ACB#64, 0x5B9CCA4F7763E373#64, 0x682E6FF3D6B2B8A3#64] ++
  [0x748F82EE5DEFB2FC#64, 0x78A5636F43172F60#64, 0x84C87814A1F0AB72#64, 0x8CC702081A6439EC#64, 0x90BEFFFA23631E28#64, 0xA4506CEBDE82BDE9#64, 0xBEF9A3F7B2C67915#64, 0xC67178F2E372532B#64] ++
  [0xCA273ECEEA26619C#64, 0xD186B8C721C0C207#64, 0xEADA7DD6CDE0EB1E#64, 0xF57D4F7FEE6ED178#64, 0x06F067AA72176FBA#64, 0x0A637DC5A2C898A6#64, 0x113F9804BEF90DAE#64, 0x1B710B35131C471B#64] ++
  [0x28DB77F523047D84#64, 0x32CAAB7B40C72493#64, 0x3C9EBE0A15C9BEBC#64, 0x431D67C49C100D4C#64, 0x4CC5D4BECB3E42B6#64, 0x597F299CFC657E2A#64, 0x5FCB6FAB3AD6FAEC#64, 0x6C44198C4A475817#64]

/-- The initial hash value of SHA-384. -/
def shaInit : List W64 :=
  [0xCBBB9D5DC1059ED8#64, 0x629A292A367CD507#64, 0x9159015A3070DD17#64, 0x152FECD8F70E5939#64,
   0x67332667FFC00B31#64, 0x8EB44A8768581511#64, 0xDB0C2E0D64F98FA7#64, 0x47B5481DBEFA4FA4#64]

/-- The padded message: 0x80, zeros to 112 mod 128, the bit length as 16 bytes big-endian. -/
def shaPad (m : List Byte) : List Byte :=
  let n := m.length
  m ++ [0x80#8] ++ List.replicate ((239 - n % 128) % 128) 0#8 ++ bytesBE 16 (8 * n)

/-- The big-endian 64-bit words of a byte string, `n` of them. -/
def words64 : Nat → List Byte → List W64
  | 0, _ => []
  | n + 1, bs => BitVec.ofNat 64 (ofBE (bs.take 8)) :: words64 n (bs.drop 8)

/-- The message schedule, newest word first: `n` further words. -/
def shaSched : Nat → List W64 → List W64
  | 0, ws => ws
  | n + 1, ws =>
    let w2 := ws.getD 1 0; let w7 := ws.getD 6 0; let w15 := ws.getD 14 0; let w16 := ws.getD 15 0
    let s0 := rotr w15 1 ^^^ rotr w15 8 ^^^ (w15 >>> 7)
    let s1 := rotr w2 19 ^^^ rotr w2 61 ^^^ (w2 >>> 6)
    shaSched n ((w16 + s0 + w7 + s1) :: ws)

/-- The eight working words. -/
structure ShaSt where
  a : W64
  b : W64
  c : W64
  d : W64
  e : W64
  f : W64
  g : W64
  h : W64
deriving DecidableEq, Repr

/-- One round. -/
def shaRound (s : ShaSt) (kw : W64 × W64) : ShaSt :=
  let s1 := rotr s.e 14 ^^^ rotr s.e 18 ^^^ rotr s.e 41
  let ch := (s.e &&& s.f) ^^^ (~~~s.e &&& s.g)
  let t1 := s.h + s1 + ch + kw.1 + kw.2
  let s0 := rotr s.a 28 ^^^ rotr s.a 34 ^^^ rotr s.a 39
  let maj := (s.a &&& s.b) ^^^ (s.a &&& s.c) ^^^ (s.b &&& s.c)
  { a := t1 + s0 + maj, b := s.a, c := s.b, d := s.c, e := s.d + t1, f := s.e, g := s.f, h := s.g }

/-- One block into the hash value. -/
def shaBlock (s : ShaSt) (blk : List Byte) : ShaSt :=
  let ws := (shaSched 64 (words64 16 blk).reverse).reverse
  let t := (shaK.zip ws).foldl shaRound s
  { a := s.a + t.a, b := s.b + t.b, c := s.c + t.c, d := s.d + t.d,
    e := s.e + t.e, f := s.f + t.f, g := s.g + t.g, h := s.h + t.h }

/-- `n` blocks of 128 bytes into the hash value. -/
def shaBlocks : Nat → ShaSt → List Byte → ShaSt
  | 0, s, _ => s
  | n + 1, s, bs => shaBlocks n (shaBlock s (bs.take 128)) (bs.drop 128)

/-- SHA-384 of a byte string: 48 bytes. -/
def sha384 (m : List Byte) : List Byte :=
  let p := shaPad m
  let g := fun i => shaInit.getD i 0
  let s := shaBlocks (p.length / 128) ⟨g 0, g 1, g 2, g 3, g 4, g 5, g 6, g 7⟩ p
  (([s.a, s.b, s.c, s.d, s.e, s.f]).map fun w => bytesBE 8 w.toNat).flatten

end Sys2Proof.Machine
end

