-- ==== Sys2Proof/Machine/P384.lean ====
section
/-!
DEFINITION. The curve P-384 and ECDSA over it with SHA-384 (R114, R722, R729, R741, R744, R746): public keys of 97 bytes,
uncompressed; signatures of 96 bytes, r then s.
-/
namespace Sys2Proof.Machine

/-- The field prime. -/
def ecP : Nat := 2 ^ 384 - 2 ^ 128 - 2 ^ 96 + 2 ^ 32 - 1

/-- The group order n. -/
def ecN : Nat :=
  0xFFFFFFFFFFFFFFFFFFFFFFFFFFFFFFFFFFFFFFFFFFFFFFFFC7634D81F4372DDF581A0DB248B0A77AECEC196ACCC52973

/-- The curve's coefficient b; a is −3. -/
def ecB : Nat :=
  0xB3312FA7E23EE7E4988E056BE3F82D19181D9C6EFE8141120314088F5013875AC656398D8A2ED19D2A85C8EDD3EC2AEF

/-- A point: none is the point at infinity. -/
abbrev EcPoint := Option (Nat × Nat)

/-- The base point. -/
def ecG : EcPoint := some
  (0xAA87CA22BE8B05378EB1C71EF320AD746E1D3B628BA79B9859F741E082542A385502F25DBF55296C3A545E3872760AB7,
   0x3617DE4A96262C6F5D9E98BF9292DC29F8F41DBD289A147CE9DA3113B5F0B8C00A60B1CE1D7E819D7A431D7C90EA0E5F)

/-- b^e mod m, for an exponent of at most `fuel` bits. -/
def powMod (m b : Nat) : Nat → Nat → Nat
  | 0, _ => 1 % m
  | fuel + 1, e =>
    let h := powMod m b fuel (e / 2)
    let q := h * h % m
    if e % 2 = 1 then q * b % m else q

/-- The inverse modulo a prime m. -/
def invMod (m b : Nat) : Nat := powMod m b 384 (m - 2)

/-- The line of slope l through (x1, y1) meets the curve again at a point of abscissa l² − x1 − x2; its mirror. -/
def ecThird (l x1 y1 x2 : Nat) : EcPoint :=
  let x := (l * l + 2 * ecP - x1 - x2) % ecP
  some (x, (l * (x1 + ecP - x) + ecP - y1) % ecP)

/-- Sum of two points. -/
def ecAdd (a b : EcPoint) : EcPoint :=
  match a, b with
  | none, q => q
  | q, none => q
  | some (x1, y1), some (x2, y2) =>
    if x1 = x2 then
      (if (y1 + y2) % ecP = 0 then none
       else ecThird ((3 * x1 * x1 + ecP - 3) * invMod ecP (2 * y1 % ecP) % ecP) x1 y1 x2)
    else ecThird ((y2 + ecP - y1) * invMod ecP ((x2 + ecP - x1) % ecP) % ecP) x1 y1 x2

/-- A point in Jacobian coordinates: abscissa X / Z², ordinate Y / Z³; infinity where Z is 0. -/
structure EcJac where
  x : Nat
  y : Nat
  z : Nat
deriving DecidableEq, Repr

/-- Twice a point: with M = 3X² − 3Z⁴ and S = 4XY², abscissa M² − 2S, ordinate M(S − X') − 8Y⁴, Z' = 2YZ. -/
def ecDouble (a : EcJac) : EcJac :=
  let yy := a.y * a.y % ecP
  let zz := a.z * a.z % ecP
  let s := 4 * a.x * yy % ecP
  let m := 3 * (a.x + zz) * (a.x + ecP - zz) % ecP
  let x := (m * m + 2 * ecP - 2 * s) % ecP
  { x := x, y := (m * (s + ecP - x) + 8 * ecP - 8 * (yy * yy % ecP)) % ecP, z := 2 * a.y * a.z % ecP }

/-- A point plus (x, y): with H = xZ² − X and R = yZ³ − Y, abscissa R² − H³ − 2XH², ordinate R(XH² − X') − YH³, Z' = HZ. -/
def ecPlus (a : EcJac) (x y : Nat) : EcJac :=
  if a.z = 0 then { x := x, y := y, z := 1 }
  else
    let zz := a.z * a.z % ecP
    let h := (x * zz + ecP - a.x) % ecP
    let r := (y * (zz * a.z % ecP) + ecP - a.y) % ecP
    if h = 0 then (if r = 0 then ecDouble a else { x := 1, y := 1, z := 0 })
    else
      let hh := h * h % ecP
      let hhh := h * hh % ecP
      let v := a.x * hh % ecP
      let x' := (r * r + 3 * ecP - hhh - 2 * v) % ecP
      { x := x', y := (r * (v + ecP - x') + ecP - a.y * hhh % ecP) % ecP, z := h * a.z % ecP }

/-- A multiple of the point (x, y), for a scalar of at most `fuel` bits. -/
def ecTimes (x y : Nat) : Nat → Nat → EcJac
  | 0, _ => { x := 1, y := 1, z := 0 }
  | fuel + 1, k =>
    let d := ecDouble (ecTimes x y fuel (k / 2))
    if k % 2 = 1 then ecPlus d x y else d

/-- A multiple of a point, for a scalar of at most `fuel` bits. -/
def ecMul (fuel k : Nat) (q : EcPoint) : EcPoint :=
  match q with
  | none => none
  | some (x, y) =>
    let a := ecTimes x y fuel k
    if a.z = 0 then none
    else
      let w := invMod ecP a.z
      let ww := w * w % ecP
      some (a.x * ww % ecP, a.y * (ww * w % ecP) % ecP)

/-- A public key's 97 bytes. -/
def ecEncode : EcPoint → List Byte
  | none => List.replicate 97 0
  | some (x, y) => 4#8 :: (bytesBE 48 x ++ bytesBE 48 y)

/-- The point of a public key; none where the bytes are no point of the curve. -/
def ecDecode (bs : List Byte) : EcPoint :=
  let x := ofBE (slice bs 1 48)
  let y := ofBE (slice bs 49 48)
  if fieldLE bs 0 1 = 4 ∧ x < ecP ∧ y < ecP ∧ (y * y + 3 * x) % ecP = (x * x * x + ecB) % ecP then some (x, y) else none

/-- SHA-384 of a message as an integer. -/
def ecHash (m : List Byte) : Nat := ofBE (sha384 m)

/-- ECDSA: the signature of a message by private key d, with nonce k. -/
def ecSign (d k : Nat) (m : List Byte) : List Byte :=
  let r := match ecMul 384 k ecG with
    | some (x, _) => x % ecN
    | none => 0
  let s := invMod ecN k * ((ecHash m + r * d) % ecN) % ecN
  bytesBE 48 r ++ bytesBE 48 s

/-- ECDSA: a signature verifies under a public key. -/
def ecVerify (key m sig : List Byte) : Bool :=
  let r := ofBE (slice sig 0 48)
  let s := ofBE (slice sig 48 48)
  match ecDecode key with
  | none => false
  | some q =>
    if 1 ≤ r ∧ r < ecN ∧ 1 ≤ s ∧ s < ecN then
      let w := invMod ecN s
      match ecAdd (ecMul 384 (ecHash m * w % ecN) ecG) (ecMul 384 (r * w % ecN) (some q)) with
      | some (x, _) => x % ecN == r
      | none => false
    else false

/-- A scalar from 1 to n − 1 the device draws, by the number of the free value. -/
def freeScalar (n : Nat) : Nat := 1 + (Config.freeScalar n).toNat % (ecN - 1)

/-- The public key of a scalar. -/
def publicKey (d : Nat) : List Byte := ecEncode (ecMul 384 d ecG)

/-- The shared secret x of a scalar the device drew and a public key (R114); free bytes where the key is no point. -/
def ecShared (n : Nat) (key : List Byte) : List Byte :=
  match ecMul 384 (freeScalar n) (ecDecode key) with
  | some (x, _) => bytesBE 48 x
  | none => (List.range 48).map fun i => Config.freeByte (n + i)

/-- The identity key d (R729). -/
def identityKey : Nat := 1 + ofBE (sha384 (ascii "EVS-IDENTITY" ++ Config.identitySeed)) % (ecN - 1)

/-- The MAC address of feeder port p, first octet in the low bits (R729). -/
def portMac (p : Nat) : Nat :=
  let m := ofLE ((sha384 (ascii "EVS-MAC" ++ Config.identitySeed ++ bytesLE 1 p)).take 6)
  setBits m 1 0 2

end Sys2Proof.Machine
end

