-- ==== Sys2Proof/Machine/Fabric.lean ====
section
/-!
DEFINITION. The cells of the Frisket fabric (spec/16, R812 to R825): lookup tables, flip-flops, wire registers, clock trees,
resets and the synchronisers of the boundary. What the bits of a cell record mean is the owner's data file: Config holds it.
-/
namespace Sys2Proof.Machine

/-- FRISKET_STATUS.STATE: 0 EMPTY, 1 LOADING, 2 HELD, 3 RUNNING, 4 FAULTED (R835). -/
def State.fabric (s : State) : Nat := s.get pgFRISKET FRISKET_STATUS_STATE

/-- The cells hold a configuration, so the fabric has outputs. -/
def State.configured (s : State) : Bool := decide (2 ≤ s.fabric)

/-- The source of tree k: 0 off, 1 Ac, 2 the fabric clock, 3 GP0k (R818). -/
def State.treeSrc (s : State) (k : Nat) : Nat := bits (s.get pgFRISKET FRISKET_TREE_SRC) (2 * (k % 4) + 1) (2 * (k % 4))

/-! ## Values (R812, R813, R815) -/

/-- The configuration of cell n: its record of 160 bytes (R826). -/
def FrisketSt.cfg (f : FrisketSt) (n : Nat) : CellCfg := Config.cellCfg ((f.cells.drop (160 * n)).take 160)

/-- The level of GPIO input n inside the fabric: its second synchroniser stage, or the pin where RAW = 1 (R821). -/
def State.gpioLevel (s : State) (n : Nat) : Bool :=
  if s.on pgFRISKET (FRISKET_GPIO_CFG_RAW.at n) then SMap.get false s.frisket.gpioIn n
  else (SMap.get (false, false) s.frisket.gpioSync n).2

/-- The value of a signal inside the fabric (R813, R815). A path of more lookup tables than the fuel is a loop, whose value
the specification leaves undefined (R816, R817). -/
def State.signal (s : State) : Nat → FabSrc → Bool
  | 0, .cell n => Config.fabricBit s.frisket.edges n
  | 0, _ => Config.fabricBit s.frisket.edges 16384
  | fuel + 1, .cell n =>
    let c := s.frisket.cfg n
    if c.registered then s.frisket.flops.getD n false
    else bit c.lut (maskOf 6 fun k =>
      match Config.cellInput s.frisket.cells n k with
      | some x => s.signal fuel x
      | none => false)
  | fuel + 1, .wire w 0 =>
    match Config.wireDriver s.frisket.cells w with
    | some x => s.signal fuel x
    | none => false
  | fuel + 1, .wire w (j + 1) =>
    if Config.wireUsed s.frisket.cells w j then s.frisket.wires.getD (16 * w + j) false else s.signal fuel (.wire w j)
  | _ + 1, .gpio n => s.gpioLevel n
  | _ + 1, .tap k => (SMap.get (false, false) s.frisket.tapSync k).2
  | _ + 1, .trig j => SMap.get false s.frisket.trig j

/-- More lookup tables and wire places than the fabric has on any path without a loop. -/
def fabricFuel : Nat := 16384 + 17 * Config.wireCount

/-- An input of a cell: what no wire drives reads as `d` (R813). -/
def State.cellIn (s : State) (d : Bool) (n k : Nat) : Bool :=
  match Config.cellInput s.frisket.cells n k with
  | some x => s.signal fabricFuel x
  | none => d

/-- The lookup table output of cell n: bit i of its 64 bits, i the number its inputs form with I0 least significant (R813). -/
def State.lutOut (s : State) (n : Nat) : Bool := bit (s.frisket.cfg n).lut (maskOf 6 (s.cellIn false n))

/-- A signal that leaves the fabric; one that no cell port drives is 0. -/
def State.fabricOut (s : State) (p : FabPort) : Bool :=
  match Config.fabPort s.frisket.cells p with
  | some x => s.signal fabricFuel x
  | none => false

/-! ## Edges (R814, R815, R817 to R820) -/

/-- GR0 as tree k sees it: its release shows at the second rising edge after it (R819). -/
def FrisketSt.gr0At (f : FrisketSt) (k : Nat) : Bool := f.gr0 || decide (0 < SMap.get 0 f.gr0Left k)

/-- GR1 as tree k sees it; it changes nothing while GR0 is asserted (R820). -/
def FrisketSt.gr1At (f : FrisketSt) (k : Nat) : Bool := !f.gr0At k && decide (0 < SMap.get 0 f.gr1Left k)

/-- The value the flip-flop of cell n takes on a rising edge of the trees `on` (R814); one that ends a path too slow is
undefined (R817). -/
def State.flopNext (s : State) (on : Nat → Bool) (n : Nat) : Bool :=
  let c := s.frisket.cfg n
  let old := s.frisket.flops.getD n false
  if !on c.tree then old
  else if (c.reset == 1 && s.frisket.gr0At c.tree) || (c.reset == 2 && s.frisket.gr1At c.tree) then c.resetValue
  else if Config.pathBroken s.frisket.cells (s.get pgFRISKET FRISKET_TREE_SRC) n then Config.fabricBit s.frisket.edges n
  else if s.cellIn true n 6 then s.lutOut n else old

/-- The tree of a wire's registers: that of the cell that drives it (R815). -/
def FrisketSt.wireTree (f : FrisketSt) (w : Nat) : Nat :=
  match Config.wireDriver f.cells w with
  | some (.cell n) => (f.cfg n).tree
  | _ => Config.wireTree f.cells w

/-- The value the register at place k mod 16 of wire k / 16 takes: its wire's value before it, or 0 under GR0 (R815). -/
def State.wireNext (s : State) (on : Nat → Bool) (k : Nat) : Bool :=
  let old := s.frisket.wires.getD k false
  let tree := s.frisket.wireTree (k / 16)
  if !Config.wireUsed s.frisket.cells (k / 16) (k % 16) || !on tree then old
  else if s.frisket.gr0At tree then false
  else if Config.pathBroken s.frisket.cells (s.get pgFRISKET FRISKET_TREE_SRC) (16384 + k) then
    Config.fabricBit s.frisket.edges (16384 + k)
  else s.signal fabricFuel (.wire (k / 16) (k % 16))

/-- A two-stage synchroniser on an edge: the second stage takes the first, the first the signal. -/
def syncStep (st : Bool × Bool) (v : Bool) : Bool × Bool := (v, st.1)

/-- One rising edge of the trees `on`, all at once: flip-flops and wire registers take their values from what stood before the
edge, synchronisers advance, a trigger pulse lasts one cycle, and the resets count down (R814, R815, R819 to R821, R825). -/
def State.fabricEdge (s : State) (on : Nat → Bool) : State :=
  let flops := (List.range 16384).map (s.flopNext on)
  let wires := (List.range (16 * Config.wireCount)).map (s.wireNext on)
  let down := fun (m : SMap Nat) => (List.range 4).foldl (fun m k => if on k then SMap.set 0 m k (SMap.get 0 m k - 1) else m) m
  let pins := (List.range 64).foldl (fun m n =>
    if on (s.get pgFRISKET (FRISKET_GPIO_CFG_SYNC_TREE.at n)) then
      SMap.set (false, false) m n (syncStep (SMap.get (false, false) m n) (SMap.get false s.frisket.gpioIn n)) else m)
    s.frisket.gpioSync
  let taps := if on (s.get pgFRISKET FRISKET_SYNC_TAP_TREE) then
      (List.range 16).foldl (fun m k => SMap.set (false, false) m k (syncStep (SMap.get (false, false) m k)
        (bit (s.get pgFORME FORME_TAPS_TAP) k))) s.frisket.tapSync
    else s.frisket.tapSync
  let pulse := on (s.get pgFRISKET FRISKET_SYNC_TRIG_TREE)
  s.onFrisket fun f =>
    { f with
      flops := flops, wires := wires, gpioSync := pins, tapSync := taps
      trig := if pulse then f.trigDue else f.trig
      trigDue := if pulse then [] else f.trigDue
      gr0Left := if f.gr0 then f.gr0Left else down f.gr0Left
      gr1Left := down f.gr1Left
      edges := f.edges + 1 }

/-- The next n edges of the 250 MHz fabric clock, the first at cycle k: every tenth is an Ac edge too (R818). -/
def State.fabricEdges : Nat → Nat → State → State
  | 0, _, s => s
  | n + 1, k, s => State.fabricEdges n (k + 1) (s.fabricEdge fun tr => s.treeSrc tr == 2 || (s.treeSrc tr == 1 && k % 10 == 0))

/-- The fabric brought up to now: the edges its trees have had since it last was. DESIGN CHOICE: edge k of the fabric clock
is at 4 ns × k, and comes before what changes at that time (notes/assumptions/52.md). -/
def State.fabricRun (s : State) : State :=
  let s1 := if s.configured && !s.frisket.wakeScrub && (List.range 4).any (fun k => s.treeSrc k == 1 || s.treeSrc k == 2) then
      State.fabricEdges (s.mono / 4 - s.frisket.ranTo / 4) (s.frisket.ranTo / 4 + 1) s
    else s
  s1.onFrisket fun f => { f with ranTo := s.mono }

/-- The contents of the flip-flops and wire registers lost (R834): undefined values. -/
def FrisketSt.lose (f : FrisketSt) : FrisketSt :=
  { f with flops := (List.range 16384).map (Config.fabricBit f.edges)
           wires := (List.range (16 * Config.wireCount)).map fun k => Config.fabricBit f.edges (16384 + k)
           edges := f.edges + 1 }

/-! ## Resets and inputs (R819 to R825) -/

/-- The fabric's state changed; GR0 is asserted throughout a load and in HELD and FAULTED, and released in RUNNING
(R819, R836). -/
def State.setFabric (s : State) (st : Nat) : State :=
  if s.fabric = st then s
  else ((s.fabricRun.put pgFRISKET FRISKET_STATUS_STATE st).onFrisket fun f =>
    { f with gr0 := if st = 3 then false else if st = 0 then f.gr0 else true
             gr0Left := if st = 3 && f.gr0 then [(0, 1), (1, 1), (2, 1), (3, 1)] else f.gr0Left }).event pgFRISKET 0

/-- GR1 asserted for 4 edges of every running tree (R820). -/
def State.assertGr1 (s : State) : State :=
  (s.fabricRun.onFrisket fun f =>
    { f with gr1Left := (List.range 4).foldl (fun m k => if s.treeSrc k ≠ 0 then SMap.set 0 m k 4 else m) f.gr1Left }).emit .gr1

/-- A Platen tap driven to a level (R267): its synchroniser takes it at the next edges of TAP_TREE. -/
def State.driveTap (s : State) (k : Nat) (level : Bool) : State :=
  (s.fabricRun.put pgFORME FORME_TAPS_TAP (setBit (s.get pgFORME FORME_TAPS_TAP) k level)).emit (.platenTap k level)

/-- Trigger tap j pulses for one cycle of TRIG_TREE; occurrences within one cycle give one pulse (R825). -/
def State.pulseTap (s : State) (j : Nat) : State :=
  (s.fabricRun.onFrisket fun f => { f with trigDue := SMap.set false f.trigDue j true }).emit (.tap j)

end Sys2Proof.Machine
end

