-- ==== Sys2Proof/Machine/Float.lean ====
section
/-!
DEFINITION. binary32 arithmetic (IEEE 754-2019) as R457 to R459 require it: four rounding modes, subnormals in full,
tininess detected after rounding, canonical NaN results. A number is a bit pattern; values are exact integers times a
power of two until the one rounding.
-/
namespace Sys2Proof.Machine

/-- The rounding modes of QSTATUS.RM (R422). -/
inductive Rm where
  | nearestEven | towardZero | up | down
deriving DecidableEq, Repr

/-- Invalid operation; the flag bits lie in the order of QSTATUS bits 12 to 8 (R422). -/
def fNV : Nat := 16
/-- Division by zero. -/
def fDZ : Nat := 8
/-- Overflow. -/
def fOF : Nat := 4
/-- Underflow. -/
def fUF : Nat := 2
/-- Inexact. -/
def fNX : Nat := 1

/-- A binary32 datum: a NaN (signalling or not), an infinity, or (−1)^neg × m × 2^e. -/
inductive Fp where
  | nan (signalling : Bool)
  | inf (neg : Bool)
  | fin (neg : Bool) (m : Nat) (e : Int)
deriving DecidableEq, Repr

/-- The canonical NaN (R458). -/
def canonNan : Nat := 0x7FC00000

/-- A bit pattern read as a datum. -/
def fpOf (w : Nat) : Fp :=
  let neg := bit w 31
  let ex := bits w 30 23
  let fr := bits w 22 0
  if ex = 255 then (if fr = 0 then .inf neg else .nan (!bit w 22))
  else if ex = 0 then .fin neg fr (-149)
  else .fin neg (fr + 2 ^ 23) ((ex : Int) - 150)

/-- The sign bit set or clear. -/
def signBit (neg : Bool) : Nat := if neg then 2 ^ 31 else 0

/-- How many bits a number has. -/
def bitLen (n : Nat) : Nat := if n = 0 then 0 else Nat.log2 n + 1

/-- Whether a truncated magnitude is rounded up: the kept part's low bit, and how the part cut off compares with half a
unit (`lt`, `eq`, `gt`), it being not zero. -/
def roundsUp (rm : Rm) (neg odd : Bool) (half : Ordering) : Bool :=
  match rm with
  | .nearestEven => half == .gt || (half == .eq && odd)
  | .towardZero => false
  | .up => !neg
  | .down => neg

/-- A magnitude m × 2^e (a little more when `sticky`) cut at 2^q: the kept units, rounded, and whether anything was cut. -/
def cutAt (rm : Rm) (neg : Bool) (m : Nat) (e q : Int) (sticky : Bool) : Nat × Bool :=
  if q ≤ e then (m * 2 ^ (e - q).toNat, sticky)
  else
    let sh := (q - e).toNat
    let kept := m / 2 ^ sh
    let cut := m % 2 ^ sh
    if cut = 0 ∧ sticky = false then (kept, false)
    else
      let c := compare cut (2 ^ (sh - 1))
      let half := if c == .eq && sticky then .gt else c
      (if roundsUp rm neg (kept % 2 == 1) half then kept + 1 else kept, true)

/-- A magnitude rounded to binary32: bit pattern and flags. -/
def roundFp (rm : Rm) (neg : Bool) (m : Nat) (e : Int) (sticky : Bool := false) : Nat × Nat :=
  if m = 0 then (signBit neg, 0)
  else
    let q24 : Int := e + (bitLen m : Int) - 24
    let q := max q24 (-149)
    let r := cutAt rm neg m e q sticky
    let u := cutAt rm neg m e q24 sticky
    let tiny := decide (q24 + (bitLen u.1 : Int) ≤ -126)
    let big := decide (128 < q + (bitLen r.1 : Int))
    if big then
      let toInf := match rm with
        | .nearestEven => true
        | .towardZero => false
        | .up => !neg
        | .down => neg
      (signBit neg + (if toInf then 0x7F800000 else 0x7F7FFFFF), fOF + fNX)
    else
      let fl := if r.2 then fNX + (if tiny then fUF else 0) else 0
      let bitsOf := if r.1 < 2 ^ 23 then r.1
        else if r.1 = 2 ^ 24 then ((q + 151).toNat) * 2 ^ 23
        else ((q + 150).toNat) * 2 ^ 23 + (r.1 - 2 ^ 23)
      (signBit neg + bitsOf, fl)

/-- A signed integer times 2^e rounded; an exact zero takes the sign given. -/
def roundInt (rm : Rm) (zeroNeg : Bool) (n : Int) (e : Int) : Nat × Nat :=
  if n = 0 then (signBit zeroNeg, 0) else roundFp rm (decide (n < 0)) n.natAbs e

/-- A finite datum's integer at exponent e. -/
def intAt (neg : Bool) (m : Nat) (e0 e : Int) : Int :=
  let v : Int := ((m * 2 ^ (Int.toNat (e0 - e)) : Nat) : Int)
  if neg then -v else v

/-- The sign of an exact zero sum: that of both operands where they agree, else − only when rounding down. -/
def zeroSign (rm : Rm) (a b : Bool) : Bool := if a = b then a else decide (rm = .down)

/-- Sum of two data already known to hold no NaN. -/
def addFp (rm : Rm) (x y : Fp) : Nat × Nat :=
  match x, y with
  | .inf a, .inf b => if a = b then (signBit a + 0x7F800000, 0) else (canonNan, fNV)
  | .inf a, _ => (signBit a + 0x7F800000, 0)
  | _, .inf b => (signBit b + 0x7F800000, 0)
  | .fin a m e, .fin b n f =>
    let g := min e f
    roundInt rm (zeroSign rm a b) (intAt a m e g + intAt b n f g) g
  | _, _ => (canonNan, 0)

/-- Whether a datum is a signalling NaN. -/
def Fp.snan : Fp → Bool
  | .nan s => s
  | _ => false

/-- Whether a datum is a NaN. -/
def Fp.isNan : Fp → Bool
  | .nan _ => true
  | _ => false

/-- A datum with its sign inverted. -/
def Fp.neg : Fp → Fp
  | .nan s => .nan s
  | .inf a => .inf (!a)
  | .fin a m e => .fin (!a) m e

/-- The flag of a NaN operand: NV for a signalling one. -/
def nanFlag (xs : List Fp) : Nat := if xs.any Fp.snan then fNV else 0

/-- FADD (R447). -/
def fadd (rm : Rm) (a b : Nat) : Nat × Nat :=
  let x := fpOf a; let y := fpOf b
  if x.isNan || y.isNan then (canonNan, nanFlag [x, y]) else addFp rm x y

/-- FSUB (R447). -/
def fsub (rm : Rm) (a b : Nat) : Nat × Nat :=
  let x := fpOf a; let y := (fpOf b).neg
  if x.isNan || y.isNan then (canonNan, nanFlag [x, y]) else addFp rm x y

/-- A product of data that are no NaN: exact, or an infinity, or invalid. -/
def mulExact (x y : Fp) : Option Fp :=
  match x, y with
  | .inf a, .inf b => some (.inf (a != b))
  | .inf a, .fin b m _ => if m = 0 then none else some (.inf (a != b))
  | .fin a m _, .inf b => if m = 0 then none else some (.inf (a != b))
  | .fin a m e, .fin b n f => some (.fin (a != b) (m * n) (e + f))
  | _, _ => none

/-- A datum rounded to binary32. -/
def packFp (rm : Rm) : Fp → Nat × Nat
  | .nan _ => (canonNan, 0)
  | .inf a => (signBit a + 0x7F800000, 0)
  | .fin a m e => roundFp rm a m e

/-- FMUL (R447). -/
def fmul (rm : Rm) (a b : Nat) : Nat × Nat :=
  let x := fpOf a; let y := fpOf b
  if x.isNan || y.isNan then (canonNan, nanFlag [x, y])
  else match mulExact x y with
  | none => (canonNan, fNV)
  | some p => packFp rm p

/-- ±(a × b) ± c with one rounding: FMADD and its variants (R447). ∞ × 0 is invalid whatever the addend (R459). -/
def fma (rm : Rm) (negProd negAdd : Bool) (a b c : Nat) : Nat × Nat :=
  let x := fpOf a; let y := fpOf b
  let z := if negAdd then (fpOf c).neg else fpOf c
  if x.isNan || y.isNan then (canonNan, nanFlag [x, y, z])
  else match mulExact x y with
  | none => (canonNan, fNV)
  | some p =>
    if z.isNan then (canonNan, nanFlag [z]) else addFp rm (if negProd then p.neg else p) z

/-- FDIV (R447). -/
def fdiv (rm : Rm) (a b : Nat) : Nat × Nat :=
  let x := fpOf a; let y := fpOf b
  match x, y with
  | .nan _, _ => (canonNan, nanFlag [x, y])
  | _, .nan _ => (canonNan, nanFlag [x, y])
  | .inf _, .inf _ => (canonNan, fNV)
  | .inf p, .fin q _ _ => (signBit (p != q) + 0x7F800000, 0)
  | .fin p _ _, .inf q => (signBit (p != q), 0)
  | .fin p m e, .fin q n f =>
    if n = 0 then (if m = 0 then (canonNan, fNV) else (signBit (p != q) + 0x7F800000, fDZ))
    else
      let k := 28 + bitLen n
      let num := m * 2 ^ k
      roundFp rm (p != q) (num / n) (e - f - (k : Int)) (decide (num % n ≠ 0))

/-- The integer square root, bit by bit from bit k down. -/
def isqrtFrom (n : Nat) : Nat → Nat → Nat
  | 0, r => if (r + 1) * (r + 1) ≤ n then r + 1 else r
  | k + 1, r => let r' := r + 2 ^ (k + 1); isqrtFrom n k (if r' * r' ≤ n then r' else r)

/-- The integer square root. -/
def isqrt (n : Nat) : Nat := isqrtFrom n (bitLen n / 2 + 1) 0

/-- FSQRT (R447). -/
def fsqrt (rm : Rm) (a : Nat) : Nat × Nat :=
  match fpOf a with
  | .nan s => (canonNan, if s then fNV else 0)
  | .inf n => if n then (canonNan, fNV) else (0x7F800000, 0)
  | .fin n m e =>
    if m = 0 then (signBit n, 0)
    else if n then (canonNan, fNV)
    else
      let k : Nat := if (e - 60) % 2 = 0 then 60 else 61
      let big := m * 2 ^ k
      let r := isqrt big
      roundFp rm false r ((e - (k : Int)) / 2) (decide (r * r ≠ big))

/-- 1 / √a with one rounding (R483). -/
def frsqrt (rm : Rm) (a : Nat) : Nat × Nat :=
  match fpOf a with
  | .nan s => (canonNan, if s then fNV else 0)
  | .inf n => if n then (canonNan, fNV) else (0, 0)
  | .fin n m e =>
    if m = 0 then (signBit n + 0x7F800000, fDZ)
    else if n then (canonNan, fNV)
    else
      let odd := e % 2 ≠ 0
      let m' : Nat := if odd then 2 * m else m
      let e' : Int := if odd then e - 1 else e
      let q : Nat := (2 ^ 120 : Nat) / m'
      let r := isqrt q
      roundFp rm false r (-60 - e' / 2) (decide (r * r * m' ≠ (2 ^ 120 : Nat)))

/-- The order of two data that are no NaN, −0 equal to +0. -/
def Fp.cmp (x y : Fp) : Ordering :=
  match x, y with
  | .inf a, .inf b => if a = b then .eq else if a then .lt else .gt
  | .inf a, _ => if a then .lt else .gt
  | _, .inf b => if b then .gt else .lt
  | .fin a m e, .fin b n f =>
    let g := min e f
    compare (intAt a m e g) (intAt b n f g)
  | _, _ => .eq

/-- FEQ: 1 when equal; NV for a signalling NaN (R447, R459). -/
def feq (a b : Nat) : Bool × Nat :=
  let x := fpOf a; let y := fpOf b
  if x.isNan || y.isNan then (false, nanFlag [x, y]) else (x.cmp y == .eq, 0)

/-- FLT: 1 when a < b; NV for any NaN (R459). -/
def flt (a b : Nat) : Bool × Nat :=
  let x := fpOf a; let y := fpOf b
  if x.isNan || y.isNan then (false, fNV) else (x.cmp y == .lt, 0)

/-- FLE: 1 when a ≤ b; NV for any NaN (R459). -/
def fle (a b : Nat) : Bool × Nat :=
  let x := fpOf a; let y := fpOf b
  if x.isNan || y.isNan then (false, fNV) else (x.cmp y != .gt, 0)

/-- minimumNumber, maximumNumber (R447, R459): a NaN gives way to a number, −0 is below +0. -/
def fminmax (isMax : Bool) (a b : Nat) : Nat × Nat :=
  let x := fpOf a; let y := fpOf b
  let fl := nanFlag [x, y]
  if x.isNan then (if y.isNan then canonNan else b, fl)
  else if y.isNan then (a, fl)
  else match x.cmp y with
  | .lt => (if isMax then b else a, 0)
  | .gt => (if isMax then a else b, 0)
  | .eq => if bit a 31 = bit b 31 then (a, 0) else if bit a 31 = isMax then (b, 0) else (a, 0)

/-- A datum times 2^k rounded to an integer in [lo, hi], saturating; a NaN gives hi (R459, R492). -/
def toInt (rm : Rm) (a : Nat) (k : Int) (lo hi : Int) : Int × Nat :=
  match fpOf a with
  | .nan _ => (hi, fNV)
  | .inf n => (if n then lo else hi, fNV)
  | .fin n m e =>
    let r := cutAt rm n m (e + k) 0 false
    let v : Int := if n then -(r.1 : Int) else r.1
    if v < lo then (lo, fNV) else if hi < v then (hi, fNV) else (v, if r.2 then fNX else 0)

/-- FCVTWS (R447). -/
def fcvtws (rm : Rm) (a : Nat) : Nat × Nat :=
  let r := toInt rm a 0 (-(2 ^ 31)) (2 ^ 31 - 1)
  (wrap 32 r.1, r.2)

/-- FCVTWUS (R447). -/
def fcvtwus (rm : Rm) (a : Nat) : Nat × Nat :=
  let r := toInt rm a 0 0 (2 ^ 32 - 1)
  (wrap 32 r.1, r.2)

/-- An integer times 2^k converted to binary32 (FCVTSW, FCVTSWU, CVT TO_F32). -/
def fromInt (rm : Rm) (n : Int) (k : Int := 0) : Nat × Nat := roundInt rm false n k

end Sys2Proof.Machine
end

