-- ==== Sys2Proof/Machine/SlotOps.lean ====
section
/-!
DEFINITION. Channel slots as the feeder table and the imposition table in force make them (spec/03, R161 to R164), and
the Frisket trigger taps that watch them (R825).
-/
namespace Sys2Proof.Machine

/-! ## Slots -/

/-- Slot k of the table in force. -/
def State.slot (s : State) (k : Nat) : SlotImage := (SMap.get SlotCopy.none s.impose.copyA k).image

/-- The counters of slot k. -/
def State.dynOf (s : State) (k : Nat) : SlotDyn := SMap.get SlotDyn.zero s.impose.dyn k

/-- The counters of slot k set. -/
def State.setDyn (s : State) (k : Nat) (d : SlotDyn) : State :=
  { s with impose := { s.impose with dyn := SMap.set SlotDyn.zero s.impose.dyn k d } }

/-- The valid slots of the table in force, rising. -/
def State.validSlots (s : State) : List Nat := (s.impose.copyA.filter (·.2.image.valid)).map (·.1)

/-- The BOUND entry of a serial. -/
def State.boundEntry (s : State) (serial : Nat) : Option FtEntry :=
  (s.feed.table.find? fun x => x.2.state == .bound && x.2.serial == serial).map (·.2)

/-- A stream of an entry covers a channel as an input (R161). -/
def covers (e : StreamEntry) (ch : Nat) : Bool := e.dir == 1 && decide (e.first ≤ ch) && decide (ch < e.first + e.channels)

/-- The stream with the lowest STREAM_ID among some. -/
def lowestStream : List StreamEntry → Option StreamEntry
  | [] => none
  | e :: es => match lowestStream es with
    | none => some e
    | some b => some (if e.id ≤ b.id then e else b)

/-- The stream a channel is bound to: of the BOUND entry of its serial, the input stream of lowest STREAM_ID that covers
it (R161). -/
def State.binding (s : State) (serial ch : Nat) : Option StreamEntry :=
  match s.boundEntry serial with
  | none => none
  | some e => lowestStream (e.streams.filter (covers · ch))

/-- STATE of a slot (R164): 0 UNUSED, 1 WAITING, 2 ACTIVE, 3 RATE_MISMATCH, 4 FAULTED. -/
def State.slotState (s : State) (k : Nat) : Nat :=
  let im := s.slot k
  let d := s.dynOf k
  if im.valid = false then 0
  else if d.faulted then 4
  else match s.binding im.serial im.channel with
  | none => 1
  | some e => if e.rate ≠ im.rate then 3 else if d.active then 2 else 1

/-! ## Trigger taps (R825) -/

/-- Trigger tap j is configured for a kind on a slot, and its tree gives edges (R818, R825). -/
def State.tapOn (s : State) (j kind slot : Nat) : Bool :=
  s.get pgFRISKET (FRISKET_TRIG_CFG_KIND.at j) == kind && s.get pgFRISKET (FRISKET_TRIG_CFG_SLOT.at j) == slot &&
  bits (s.get pgFRISKET FRISKET_TREE_SRC) (2 * s.get pgFRISKET FRISKET_SYNC_TRIG_TREE + 1)
    (2 * s.get pgFRISKET FRISKET_SYNC_TRIG_TREE) != 0

/-- The taps of a kind on a slot pulse. -/
def State.taps (s : State) (kind slot : Nat) : State :=
  ((List.range 32).filter fun j => s.tapOn j kind slot).foldl (fun s j => s.pulseTap j) s

/-- The taps of kind SAMPLE_ABOVE on a slot whose LEVEL a received word exceeds pulse. -/
def State.tapsAbove (s : State) (slot : Nat) (w : W32) : State :=
  ((List.range 32).filter fun j => s.tapOn j 1 slot &&
    (let lv := s.get pgFRISKET (FRISKET_TRIG_LEVEL.at j)
     if s.on pgFRISKET (FRISKET_TRIG_CFG_F32.at j) then (flt lv w.toNat).1
     else decide (signed 32 lv < signed 32 w.toNat))).foldl (fun s j => s.pulseTap j) s

/-- Every slot a NOT_ACTIVE tap watches that was ACTIVE in `old` and is not in `s` pulses its taps. -/
def State.leftActive (s old : State) : State :=
  ((List.range 32).filter fun j =>
    let k := s.get pgFRISKET (FRISKET_TRIG_CFG_SLOT.at j)
    s.tapOn j 5 k && old.slotState k == 2 && s.slotState k != 2).foldl (fun s j => s.pulseTap j) s

end Sys2Proof.Machine
end

