-- ==== Sys2Proof/Machine/FeederOps.lean ====
section
/-!
DEFINITION. Shared operations of the feeder ports: transmitting, link and SECURED changes, the feeder table, Sheet
hello answers (spec/02_feeder_ports.md).
-/
namespace Sys2Proof.Machine

/-! ## Addresses, first octet in the low bits (R86) -/

/-- LLDP nearest-bridge and PTP peer-delay address 01-80-C2-00-00-0E. -/
def macLldp : Nat := 0x0E0000C28001
/-- PAE group address 01-80-C2-00-00-03. -/
def macPae : Nat := 0x030000C28001
/-- MAC control address 01-80-C2-00-00-01. -/
def macControl : Nat := 0x010000C28001
/-- PTP primary address 01-1B-19-00-00-00. -/
def macPtp : Nat := 0x000000191B01
/-- EtherTypes of R82. -/
def etLldp : Nat := 0x88CC
def etEapol : Nat := 0x888E
def etPtp : Nat := 0x88F7

/-- The Sheet EtherType in force. -/
def State.sheetType (s : State) : Nat := s.get pgSHEET SHEET_ETHERTYPE_ETHERTYPE

/-- A port's MAC address register pair. -/
def State.portMac (s : State) (p : Nat) : Nat := s.pair (pgFEED p) FEED_MAC_LO FEED_MAC_HI

/-- What a port holds beside its page. -/
def State.port (s : State) (p : Nat) : PortSt := SMap.get PortSt.reset s.feed.ports p

/-- The state with a port's own part set. -/
def State.setPort (s : State) (p : Nat) (x : PortSt) : State :=
  { s with feed := { s.feed with ports := SMap.set PortSt.reset s.feed.ports p x } }

/-- An entry of the feeder table. -/
def State.ft (s : State) (i : Nat) : FtEntry := SMap.get FtEntry.reset s.feed.table i

/-- The state with an entry of the feeder table set. -/
def State.setFt (s : State) (i : Nat) (e : FtEntry) : State :=
  { s with feed := { s.feed with table := SMap.set FtEntry.reset s.feed.table i e } }

/-- A feeder's handle: generation in bits [15:8], index in bits [7:0] (R103). -/
def FtEntry.handle (e : FtEntry) (i : Nat) : Nat := e.gen * 256 + i

/-- The generation after this one: 255 is followed by 1 (R104). -/
def nextGen (g : Nat) : Nat := if 255 ≤ g then 1 else g + 1

/-- An entry passing to FREE: its generation advances, and it keeps the port last bound (R104, R112). -/
def FtEntry.freed (e : FtEntry) : FtEntry := { FtEntry.reset with gen := nextGen e.gen, port := e.port }

/-- The entry freed. -/
def State.freeFt (s : State) (i : Nat) : State := (s.setFt i (s.ft i).freed).leftActive s

/-- A BOUND entry becomes STALE, keeps its handle and streams, and FEEDER_LOST is raised on its port's page
(R88, R105). -/
def State.staleFt (s : State) (i : Nat) : State :=
  let e := s.ft i
  if e.state = .bound then
    ((s.setFt i { e with state := .stale, staleSince := s.mono }).leftActive s).event (pgFEED e.port) 3
  else s

/-- Every BOUND entry of a port becomes STALE (R105). -/
def State.stalePort (s : State) (p : Nat) : State :=
  (SMap.keys s.feed.table).foldl (fun s i => if (s.ft i).port = p then s.staleFt i else s) s

/-- How many entries are BOUND to a port: FEED_STATUS.FEEDERS (R86). -/
def State.feeders (s : State) (p : Nat) : Nat :=
  (s.feed.table.filter fun x => x.2.state == .bound && x.2.port == p).length

/-- LINK of a port set; a change raises LINK_CHANGE, a fall counts in FEED_LINK_LOSSES (R83, R87, R88). -/
def State.setLink (s : State) (p : Nat) (v : Bool) : State :=
  if s.on (pgFEED p) FEED_STATUS_LINK = v then s
  else
    let s1 := (s.put (pgFEED p) FEED_STATUS_LINK (b2n v)).event (pgFEED p) 0
    if v then s1 else s1.count (pgFEED p) FEED_LINK_LOSSES

/-- Block lock of a port is lost or given up: LINK falls, a frame cut by it counts in FEED_RX_FCS_ERR, RS-FEC is not in use,
and under SPEED = 2 the next search starts at 25GBASE-R where the lock had held 10 ms, and goes on at the other speed where it
had not (R83, R84). A fall of LINK makes the port's feeders stale (R105). `cut` is whether a frame was being received. -/
def State.dropLink (s : State) (p : Nat) (cut : Bool) : State :=
  if s.on (pgFEED p) FEED_STATUS_LINK then
    let s1 := if cut then s.count (pgFEED p) FEED_RX_FCS_ERR else s
    let s2 := (s1.setLink p false).put (pgFEED p) FEED_STATUS_FEC_ACTIVE 0
    let speed := s2.get (pgFEED p) FEED_STATUS_SPEED_ACTIVE
    let s3 := if s2.get (pgFEED p) FEED_CTRL_SPEED = 2 then
        s2.put (pgFEED p) FEED_STATUS_SPEED_ACTIVE (if (s2.port p).held then 0 else 1 - speed)
      else s2
    (s3.setPort p { s3.port p with held := false }).stalePort p
  else s

/-- The port itself gives up its lock (ENABLE cleared, a soft reset, Hold, another speed): whether a frame was being received
then the specification ties to nothing the model holds, so it is a free value (R84; notes/assumptions/51.md). -/
def State.giveUpLink (s : State) (p : Nat) : State :=
  if s.on (pgFEED p) FEED_STATUS_LINK then
    let (n, s1) := s.takeFree
    s1.dropLink p ((Config.freeByte n).getLsbD 0)
  else s

/-- SECURED of a port set; a change raises SECURED_CHANGE (R86, R88). -/
def State.setSecured (s : State) (p : Nat) (v : Bool) : State :=
  if s.on (pgFEED p) FEED_STATUS_SECURED = v then s
  else (s.put (pgFEED p) FEED_STATUS_SECURED (b2n v)).event (pgFEED p) 1

/-- The SecTAG of the next protected frame of a port, whose user data has `len` bytes: the SAK's number as AN and the next
packet number (R79, R120, R122). -/
def State.secTag (s : State) (p len : Nat) : List Byte :=
  secTagBytes (s.port p).sak ((s.port p).txPn + 1) (s.portMac p) len

/-- A frame leaves a port and is counted (R87). -/
def State.transmit (s : State) (p : Nat) (secured : Bool) (bytes : List Byte) : State :=
  (s.emit (.frame p secured bytes)).count64 (pgFEED p) FEED_TX_FRAMES_LO FEED_TX_FRAMES_HI

/-- A fresh SAK installed and distributed on a port to the PAE group address: packet numbers start anew (R120, R122, R124). -/
def State.freshSak (s : State) (p : Nat) : State :=
  let (n, s1) := s.takeFree
  let q := s1.port p
  let s2 := s1.setPort p { q with sak := q.sak + 1, sakKey := Config.freshSak n, rxHigh := 0, txPn := 0 }
  s2.transmit p false (ethBytes macPae (s.portMac p) [] [] etEapol (Config.freshSak n))

/-- The packet number at which a fresh SAK is due (R120). -/
def pnLimit : Nat := 0xC000000000000000

/-- A protected frame takes the next packet number of its port (R122); a number that reaches the limit of R120 brings a
fresh SAK. -/
def State.takePn (s : State) (p : Nat) : State :=
  let q := s.port p
  let s1 := s.setPort p { q with txPn := q.txPn + 1 }
  if pnLimit ≤ q.txPn + 1 then s1.freshSak p else s1

/-- A frame sent on a port, protected or not (R87, R122). -/
def State.sendFrame (s : State) (p : Nat) (secured : Bool) (dst : Nat) (tags : List Tag) (et : Nat) (body : List Byte) : State :=
  let sec := if secured then s.secTag p (body.length + 2) else []
  let s1 := s.transmit p secured (ethBytes dst (s.portMac p) tags sec et body)
  if secured then s1.takePn p else s1

/-- The bytes after the Sheet EtherType of a hello that the device sends: the header with its free bytes from number n on,
then the body (R95, R137). -/
def helloFrame (n : Nat) (h : Hello) : List Byte := helloHeader n h.handle (helloBytes h).length ++ helloBytes h

/-- A hello sent in answer to a frame: to its source, on its port and with its tags (R925). -/
def State.sendHello (s : State) (p : Nat) (f : EthFrame) (h : Hello) : State :=
  (s.skipFree 26).sendFrame p f.sec.isSome f.src f.tags s.sheetType (helloFrame s.free h)

/-- A hello of the device with no stream entries. -/
def helloAnswer (step reason handle serial : Nat) (key : List Byte) : Hello :=
  { step, reason, handle, serial, caps := 0, streams := 0, entries := [], bodyLen := 32 + key.length, key }

/-- A refuse: REASON is the code, counted in SHEET_HELLO_REFUSED (R99, R112). -/
def State.refuseHello (s : State) (p : Nat) (f : EthFrame) (serial code : Nat) : State :=
  (s.sendHello p f (helloAnswer 4 code 0 serial [])).count pgSHEET SHEET_HELLO_REFUSED

/-- A frame the port passed on has been taken up. -/
def State.takePassed (s : State) (p : Nat) (f : EthFrame) : State :=
  { s with feed := { s.feed with passed := s.feed.passed.erase (p, f) } }

/-- The index of the entry, not FREE, that holds a serial. -/
def State.ftOfSerial (s : State) (serial : Nat) : Option Nat :=
  (s.feed.table.find? fun x => decide (x.2.state ≠ .free) && x.2.serial == serial).map (·.1)

/-- The lowest-indexed FREE entry (R107). -/
def State.ftFree (s : State) : Option Nat := firstBelow 256 fun i => decide ((s.ft i).state = .free)

/-- The STALE entry that has been stale longest (R107). DESIGN CHOICE: of entries stale equally long, the one of lowest index
(notes/assumptions/51.md). -/
def State.ftOldestStale (s : State) : Option Nat :=
  (s.feed.table.foldl (fun (best : Option (Nat × Nat)) x =>
    if x.2.state = .stale then
      match best with
      | none => some (x.1, x.2.staleSince)
      | some (_, t) => if x.2.staleSince < t then some (x.1, x.2.staleSince) else best
    else best) none).map (·.1)

/-- SHEET_FT_LIVE_MS in ns. -/
def State.liveNs (s : State) : Nat := s.get pgSHEET SHEET_FT_CTRL_LIVE_MS * 1000000

/-- The age of an entry: time since its feeder's last frame, in ns (R105). -/
def State.ageNs (s : State) (e : FtEntry) : Nat := s.mono - e.lastFrame

/-- How an offer resolves (R107): an entry to assign, or a refusal code. -/
inductive Resolved where
  | assign (i : Nat) (reclaim : Bool)
  | refuse (code : Nat)
deriving DecidableEq, Repr

/-- The resolution of R107. -/
def State.resolveOffer (s : State) (p serial : Nat) : Resolved :=
  match s.ftOfSerial serial with
  | none =>
    match s.ftFree with
    | some i => .assign i false
    | none => match s.ftOldestStale with
      | some i => .assign i true
      | none => .refuse 1
  | some i =>
    let e := s.ft i
    match e.state with
    | .stale => .assign i false
    | .bound => if s.liveNs ≤ s.ageNs e then .assign i false else .refuse 2
    | .offered => if e.port = p then .assign i false else .refuse 2
    | .free => .refuse 1

/-- The FORMAT codes a stream may declare (R139). -/
def formatOk (f : Nat) : Bool := 1 ≤ f && f ≤ 4

/-- Bytes per sample of a FORMAT code (R139). -/
def formatSize (f : Nat) : Nat := if f = 1 then 2 else if f = 2 then 3 else 4

/-- The stream list of an offer is bad (R99 code 4). -/
def badList (h : Hello) : Bool :=
  (h.entries.any fun e => decide (63 < e.id) || !(e.dir == 1 || e.dir == 2) || !formatOk e.format ||
    e.channels == 0 || e.rate == 0) ||
  !decide ((h.entries.map (·.id)).Nodup) || h.bodyLen != 32 + 16 * h.streams

/-- A frame accepted from an entry's feeder renews the entry's last-frame time (R105), its tags (R186) and its address. -/
def State.renewFt (s : State) (i : Nat) (f : EthFrame) : State :=
  s.setFt i { s.ft i with lastFrame := s.mono, tags := f.tags, mac := f.src }

/-- The entry a hello's HANDLE and SERIAL name, in one of the states given. -/
def State.ftMatch (s : State) (h : Hello) (ok : FtState → Bool) : Option Nat :=
  let i := h.handle % 256
  let e := s.ft i
  if ok e.state && e.handle i == h.handle && e.serial == h.serial then some i else none

/-- A hello reaches the hello engine: through MACsec on a secured port (R94). -/
def State.helloSecured (s : State) (p : Nat) (f : EthFrame) : Bool :=
  f.sec.isSome && s.on (pgFEED p) FEED_STATUS_SECURED

/-- An unprotected hello that is no pairing step on an open port is discarded and counted (R94). -/
def State.helloUnsecured (s : State) (p : Nat) : State := s.count (pgFEED p) FEED_RX_UNSECURED

/-- A pairing ends: PAIRING and PAIRING_ACTIVE clear, the secret goes, PAIRING_DONE is raised (R86, R115). -/
def State.endPairing (s : State) (p : Nat) : State :=
  let s1 := s.setPort p { s.port p with ceremony := none }
  ((s1.put (pgFEED p) FEED_CTRL_PAIRING 0).put (pgFEED p) FEED_STATUS_PAIRING_ACTIVE 0).event (pgFEED p) 4

/-- The confirmation code of a shared secret (R114). -/
def confirmCode (x : List Byte) : Nat := ofLE ((sha384 (ascii "EVS-CONFIRM" ++ x)).take 4) % 1000000

/-- The pairing of R116. -/
def pairingOf (x : List Byte) (dev feeder : Nat) : Pairing :=
  { serial := feeder
    cak := (sha384 (ascii "EVS-PAIR" ++ x ++ bytesLE 8 dev ++ bytesLE 8 feeder)).take 32
    ckn := (sha384 (ascii "EVS-CKN" ++ bytesLE 8 feeder ++ bytesLE 8 dev)).take 16 }

end Sys2Proof.Machine
end

