-- ==== Sys2Proof/Machine/SheetOps.lean ====
section
/-!
DEFINITION. Shared operations of Sheet streams, channel slots, blocks and rings (spec/03, first half).
-/
namespace Sys2Proof.Machine

/-! ## Placing samples (R168 to R177) -/

/-- The changed slots of a waiting table: new, or with another FEEDER_SERIAL, CHANNEL or RATE (R159). -/
def State.slotChanged (s : State) (k : Nat) (im : SlotImage) : Bool :=
  let o := s.slot k
  !o.valid || o.serial != im.serial || o.channel != im.channel || o.rate != im.rate

/-- The slot image that governs index i of a slot k of the table in force: the table's in force, and that of a waiting table
that holds the slot unchanged, so with the same BLOCK, from its first block on (R157, R159). -/
def State.imageAt (s : State) (k i : Nat) : SlotImage :=
  match s.impose.waiting with
  | some p => match p.firstBlock with
    | some b =>
      let im := SMap.get SlotImage.none p.table k
      if im.valid ∧ s.slotChanged k im = false ∧ b * im.block ≤ i then im else s.slot k
    | none => s.slot k
  | none => s.slot k

/-- The gathered bytes of a ring codeword written by feed ingest: a whole codeword, or a merge of those it holds (R541). -/
def State.ringWrite (s : State) (cw : Nat) : State :=
  (runsOf (SMap.get [] s.impose.gather cw)).foldl (fun s x => (s.write 11 x.1 x.2).2) s

/-- A word for a slot's ring: gathered with the other words of its codeword, which is written when it fills (R173, R541). -/
def State.ringStore (s : State) (a : Nat) (bs : List Byte) : State :=
  let cw := a / 64 * 64
  let g := bs.zipIdx.foldl (fun m y => SMap.set none m (a + y.2) (some y.1)) (SMap.get [] s.impose.gather cw)
  let s1 := s.onImpose fun i => { i with gather := SMap.set [] i.gather cw g }
  if a % 64 = 60 then (s1.ringWrite cw).onImpose fun i => { i with gather := SMap.set [] i.gather cw [] } else s1

/-- Sample i of a slot with image `im` stored as a word: in the Stone block buffer when STONE is set, and in the ring, by feed
ingest (R172, R173). -/
def State.storeSample (s : State) (im : SlotImage) (i : Nat) (w : W32) : State :=
  let bs := bytesLE 4 w.toNat
  let s1 := if im.stone then
      (s.write 11 (0x03400000 + (i / im.block % 4) * 0x100000 + 4 * (im.stoneWord + i % im.block)) bs).2
    else s
  s1.ringStore (im.ringBase + 4 * (i % 2 ^ im.ringLog2)) bs

/-- `n` samples of slot k gap-filled from index i on, each with the image that governs its index (R157, R176). -/
def State.gapStore (s : State) (im : Nat → SlotImage) (k : Nat) : Nat → Nat → State
  | _, 0 => s
  | i, n + 1 => ((s.storeSample (im i) i (im i).marker).taps 2 k).gapStore im k (i + 1) n

/-- Gap-filling of indices NX to j − 1 with the counters given (R168, R170, R178). -/
def gapTo (d : SlotDyn) (j : Nat) : SlotDyn := { d with nx := max d.nx j, gapfill := d.gapfill + (j - d.nx) }

/-- The word stored for a received word: GAP_MARKER is displaced by its low bit, and the clash counted (R177). -/
def State.unclash (s : State) (marker w : W32) : W32 × State :=
  if w = marker then (marker ^^^ 1#32, s.count pgSHEET SHEET_MARKER_CLASH) else (w, s)

/-- One received sample of index i for slot k with counters d (R168): late, early, or stored after the gap before it. `at_`
gives the image that governs an index of the slot. -/
def State.placeSample (s : State) (at_ : Nat → SlotImage) (k i : Nat) (w : W32) (d : SlotDyn) (overrun unlocked : Bool) :
    SlotDyn × State :=
  let im := at_ i
  if i < d.nx then (d, s.count64 pgSHEET SHEET_LATE_SAMPLES_LO SHEET_LATE_SAMPLES_HI)
  else if (match s.impose.openBlock with | some m => decide (i < (m + 2) * im.block) | none => false) = false then
    (d, s.count64 pgSHEET SHEET_EARLY_SAMPLES_LO SHEET_EARLY_SAMPLES_HI)
  else
    let s1 := s.gapStore at_ k d.nx (i - d.nx)
    let r := s1.unclash im.marker w
    let s2 := (r.2.storeSample im i r.1).tapsAbove k w
    let s3 := if overrun then s2.taps 3 k else s2
    let s4 := if unlocked then s3.taps 4 k else s3
    let d1 := gapTo d i
    ({ d1 with nx := i + 1, received := d1.received + 1, active := true, ovr := d1.ovr || overrun }, s4)

/-- The slot of a table that names a channel. -/
def slotNaming (t : SMap SlotImage) (serial ch : Nat) : Option Nat :=
  (t.find? fun x => x.2.valid && x.2.serial == serial && x.2.channel == ch).map (·.1)

/-- The slot of the table in force that names a channel. -/
def State.slotFor (s : State) (serial ch : Nat) : Option Nat :=
  (s.impose.copyA.find? fun x => x.2.image.valid && x.2.image.serial == serial && x.2.image.channel == ch).map (·.1)

/-- A sample of a channel that no slot takes (R149, R161, R163). -/
def State.unbound (s : State) : State := s.count64 pgSHEET SHEET_UNBOUND_SAMPLES_LO SHEET_UNBOUND_SAMPLES_HI

/-- Where a sample of a channel goes by the tables (R157): a slot of the waiting table that the table in force does not
hold alike, a slot of the table in force, or none. Index i belongs to the waiting table from its first block on. -/
inductive Target where
  | waiting (p : ImposePending) (k : Nat)
  | inForce (k : Nat)
  | none
deriving DecidableEq, Repr

/-- The target of index i of a channel. -/
def State.target (s : State) (serial ch i : Nat) : Target :=
  let old := match s.slotFor serial ch with
    | some k => Target.inForce k
    | none => Target.none
  match s.impose.waiting with
  | none => old
  | some p => match p.firstBlock with
    | none => old
    | some b => match slotNaming p.table serial ch with
      | some k =>
        let im := SMap.get SlotImage.none p.table k
        if i < b * im.block then old else if s.slotChanged k im then .waiting p k else old
      | none => match s.slotFor serial ch with
        | some k => if i < b * (s.slot k).block then old else .none
        | none => .none

/-- One sample of a channel of a feeder's stream: nothing of a stream that does not bind the channel, or whose RATE is
not the slot's, is placed (R157, R161, R163). The slot is ACTIVE from the first accepted frame that carries the channel
(R162). -/
def State.takeSample (s : State) (serial : Nat) (st : StreamEntry) (ch i : Nat) (w : W32) (overrun unlocked : Bool) : State :=
  if (s.binding serial ch).map (·.id) ≠ some st.id then s.unbound
  else match s.target serial ch i with
  | .none => s.unbound
  | .waiting p k =>
    if (SMap.get SlotImage.none p.table k).rate ≠ st.rate then s.unbound
    else
      let im := SMap.get SlotImage.none p.table k
      let r := s.placeSample (fun _ => im) k i w { SMap.get SlotDyn.zero p.dyn k with active := true } overrun unlocked
      { r.2 with impose := { r.2.impose with waiting := some { p with dyn := SMap.set SlotDyn.zero p.dyn k r.1 } } }
  | .inForce k =>
    if (s.slot k).rate ≠ st.rate ∨ (s.dynOf k).faulted then s.unbound
    else
      let r := s.placeSample (s.imageAt k) k i w { s.dynOf k with active := true } overrun unlocked
      r.2.setDyn k r.1

/-- A sample widened to the stored word of its FORMAT (R139). -/
def widen (format : Nat) (bs : List Byte) : W32 :=
  if format = 1 then BitVec.ofInt 32 (signed 16 (ofLE bs))
  else if format = 2 then BitVec.ofInt 32 (signed 24 (ofLE bs))
  else BitVec.ofNat 32 (ofLE bs)

end Sys2Proof.Machine
end

