-- ==== Sys2Proof/Machine/Impose.lean ====
section
/-!
DEFINITION. The imposition table: validation, taking effect, ticks of its blocks, the copy scrub, slot capture
(spec/03, R150 to R180).
-/
namespace Sys2Proof.Machine

/-! ## The image (R153, R154) -/

/-- An image entry read from its 64 bytes. -/
def imageOf (b : List Byte) : SlotImage :=
  { serial := fieldLE b 0 8, channel := fieldLE b 8 2, valid := bit (fieldLE b 10 1) 0, stone := bit (fieldLE b 10 1) 1
    ringLog2 := fieldLE b 11 1, rate := fieldLE b 12 4, block := fieldLE b 16 4, column := bits (fieldLE b 20 2) 12 0
    phase := bits (fieldLE b 20 2) 15 13, stoneWord := fieldLE b 24 4, marker := BitVec.ofNat 32 (fieldLE b 28 4)
    ringBase := fieldLE b 32 6 }

/-- The bytes of an entry that its stored CRC-32 covers (R160): its fields in the image's layout. -/
def imageBytes (x : SlotImage) : List Byte :=
  bytesLE 8 x.serial ++ bytesLE 2 x.channel ++ bytesLE 1 (b2n x.valid + 2 * b2n x.stone) ++ bytesLE 1 x.ringLog2 ++
  bytesLE 4 x.rate ++ bytesLE 4 x.block ++ bytesLE 2 (x.column + x.phase * 8192) ++ bytesLE 2 0 ++
  bytesLE 4 x.stoneWord ++ bytesLE 4 x.marker.toNat ++ bytesLE 6 x.ringBase

/-- An image of n entries of `size` bytes from `base` on, read by the table engine (master 17) entry by entry in
increasing order: the entries, or the first entry that lies outside memory, is refused or is uncorrectable
(R154, R155 code 1, R183 code 1). -/
def State.readImage (s : State) (base size : Nat) : Nat → Nat → List (Nat × List Byte) → Except Nat (List (Nat × List Byte)) × State
  | _, 0, acc => (.ok acc.reverse, s)
  | k, n + 1, acc =>
    let a := base + k * size
    if s.extentOk a size = false then (.error k, s)
    else match s.read 17 a size with
    | (.ok bs, s1) => s1.readImage base size (k + 1) n ((k, bs) :: acc)
    | (_, s1) => (.error k, s1)

/-! ## The causes of R155: each gives the lowest failing slot -/

/-- A valid slot of an image. -/
abbrev SlotEntry := Nat × SlotImage

/-- Code 2. -/
def badEntry (x : SlotImage) : Bool :=
  x.rate == 0 || decide (204800 < x.rate) || decide (x.ringLog2 < 10) || decide (30 < x.ringLog2) || x.ringBase % 256 != 0

/-- Code 3: another valid entry names the same channel. -/
def dupBinding (es : List SlotEntry) (e : SlotEntry) : Bool :=
  es.any fun f => f.1 != e.1 && f.2.serial == e.2.serial && f.2.channel == e.2.channel

/-- Code 4. -/
def badGeometry (p : Nat) (x : SlotImage) : Bool := p == 0 || x.rate * p != x.block * 1000000000

/-- Code 5. -/
def ringShort (x : SlotImage) : Bool :=
  decide (2 ^ x.ringLog2 < max (256 * x.block) (ceilDiv (x.rate * 64) 1000) + 2 * x.block)

/-- Two extents overlap. -/
def overlap (a n b m : Nat) : Bool := decide (a < b + m) && decide (b < a + n)

/-- Code 6. -/
def badRing (top : Nat) (es : List SlotEntry) (e : SlotEntry) : Bool :=
  let n := 4 * 2 ^ e.2.ringLog2
  decide (e.2.ringBase < reelBase) || decide (top < e.2.ringBase + n) ||
  es.any fun f => f.1 != e.1 && overlap e.2.ringBase n f.2.ringBase (4 * 2 ^ f.2.ringLog2)

/-- Code 7. -/
def badStoneWord (es : List SlotEntry) (e : SlotEntry) : Bool :=
  e.2.stone && (decide (262144 < e.2.stoneWord + e.2.block) ||
    es.any fun f => f.1 != e.1 && f.2.stone && overlap e.2.stoneWord e.2.block f.2.stoneWord f.2.block)

/-- Code 8: 512 logical columns make a logical galley row. -/
def badForme (rows : Nat) (es : List SlotEntry) (e : SlotEntry) : Bool :=
  decide (rows ≤ e.2.column / 512) ||
  es.any fun f => f.1 != e.1 && f.2.column == e.2.column && f.2.phase == e.2.phase

/-- The input budget of one galley row (R76). -/
def rowBudget : Nat := 209715200

/-- Code 9. -/
def rowOver (es : List SlotEntry) (e : SlotEntry) : Bool :=
  decide (rowBudget < ((es.filter fun f => f.2.column / 512 == e.2.column / 512).map (·.2.rate)).sum)

/-- The sum of RATE over valid slots. -/
def rateSum (es : List SlotEntry) : Nat := (es.map (·.2.rate)).sum

/-- Capacity of a port in Sa/s for a sample size (R76). A port whose feeders declare no input stream counts at the
smallest sample size. -/
def portCapacity (tenG : Bool) (size : Nat) : Nat :=
  1000000 * (if tenG then (if size = 4 then 309 else if size = 3 then 412 else 618)
             else (if size = 4 then 772 else if size = 3 then 1030 else 1545))

/-- The largest sample size among the input streams of the BOUND feeders of a port; none where no feeder is BOUND. -/
def State.portSampleSize (s : State) (p : Nat) : Option Nat :=
  match s.feed.table.filter fun x => x.2.state == .bound && x.2.port == p with
  | [] => none
  | es => some ((es.flatMap fun x => (x.2.streams.filter (·.dir == 1)).map fun e => formatSize e.format).foldl max 0)

/-- The port term of R78; none where no port carries a BOUND feeder. -/
def State.portTerm (s : State) : Option Nat :=
  (List.range 16).foldl (fun acc p => match s.portSampleSize p with
    | none => acc
    | some z => some (acc.getD 0 + portCapacity (s.on (pgFEED p) FEED_STATUS_SPEED_ACTIVE) z)) none

/-- The admitted input budget (R78). -/
def State.inputBudget (s : State) : Nat :=
  let rows := s.get pgFORME FORME_STATUS_ROWS * rowBudget
  match s.portTerm with
  | none => rows
  | some t => min rows t

/-- The ring-write reservation in MB/s (R156, R556). -/
def ringReservation (es : List SlotEntry) : Nat := ceilDiv (rateSum es * 4) 1000000

/-- The first of the entries that a cause holds of. -/
def firstBad (es : List SlotEntry) (p : SlotEntry → Bool) : Option Nat := (es.find? p).map (·.1)

/-- The first failing cause of codes 2 to 10 with its lowest slot (R155). Codes 10 and 11 fail no single slot; the lowest
valid slot is reported. -/
def State.imposeFault (s : State) (es : List SlotEntry) : Option (Nat × Nat) :=
  let rows := s.get pgFORME FORME_STATUS_ROWS
  let lowest := (es.head?.map (·.1)).getD 0
  let causes : List (Nat × Option Nat) :=
    [(2, firstBad es fun e => badEntry e.2), (3, firstBad es (dupBinding es)),
     (4, firstBad es fun e => badGeometry s.period e.2), (5, firstBad es fun e => ringShort e.2),
     (6, firstBad es (badRing (reelBase + s.reelBytes) es)), (7, firstBad es (badStoneWord es)),
     (8, firstBad es (badForme rows es)), (9, firstBad es (rowOver es)),
     (10, if s.inputBudget < rateSum es then some lowest else none)]
  causes.findSome? fun c => c.2.map fun k => (c.1, k)

/-! ## Taking effect (R157, R159) -/

/-- The counters of a slot at the first index of block b (R159). -/
def freshDyn (x : SlotImage) (b : Nat) : SlotDyn := { SlotDyn.zero with nx := b * x.block, n0 := b * x.block }

/-- The table copies of an image: each entry with its CRC-32 (R160). -/
def copiesOf (t : SMap SlotImage) : SMap SlotCopy := t.map fun x => (x.1, { image := x.2, crc := crc32 (imageBytes x.2) })

/-- A table takes effect: changed slots take the counters given, the others keep theirs, no slot stays FAULTED; entry 0
takes its new value (R157, R159, R160, R561). -/
def State.applyTable (s : State) (t : SMap SlotImage) (dyn : SMap SlotDyn) (block : Nat) : State :=
  let new := t.foldl (fun (d : SMap SlotDyn) x =>
    if s.slotChanged x.1 x.2 then SMap.set SlotDyn.zero d x.1 (SMap.get SlotDyn.zero dyn x.1) else d) s.impose.dyn
  let clear := SMap.mapVals SlotDyn.zero (fun _ d => { d with faulted := false }) new
  let s1 := s.onImpose fun i => { i with copyA := copiesOf t, copyB := copiesOf t, dyn := clear, waiting := none }
  let s2 := (s1.put pgIMPOSE IMPOSE_STATUS_WAITING 0).put pgIMPOSE IMPOSE_GENERATION_GENERATION
    (s1.get pgIMPOSE IMPOSE_GENERATION_GENERATION + 1)
  let s3 := s2.putPair pgIMPOSE IMPOSE_APPLIED_BLOCK_LO IMPOSE_APPLIED_BLOCK_HI (block % 2 ^ 64)
  ((s3.entry0Take).event pgIMPOSE 0).leftActive s

/-- The changed slots of a table at the first index of block b. -/
def State.changedDyn (s : State) (t : SMap SlotImage) (b : Nat) : SMap SlotDyn :=
  t.foldl (fun d x => if s.slotChanged x.1 x.2 then SMap.set SlotDyn.zero d x.1 (freshDyn x.2 b) else d) []

/-- A refused imposition commit (R154). -/
def State.imposeRefused (s : State) (code slot : Nat) : State :=
  let s1 := (s.put pgIMPOSE IMPOSE_STATUS_ERROR code).put pgIMPOSE IMPOSE_STATUS_ERR_SLOT slot
  (s1.event pgIMPOSE 1).ignored pgIMPOSE 0x04C .commitRefused

/-- A table that waits takes effect where no program runs any more (R157; notes/assumptions/12.md). -/
def State.imposeStop (s : State) : State :=
  let s1 := s.onImpose fun i => { i with openBlock := none }
  match s1.impose.waiting with
  | some p => s1.applyTable p.table p.dyn (p.firstBlock.getD 0)
  | none => s1

/-! ## Commands -/

/-- The image base: bits [5:0] of the address are disregarded. -/
def State.imposeBase (s : State) : Nat := s.pair pgIMPOSE IMPOSE_IMAGE_LO IMPOSE_IMAGE_HI / 64 * 64

/-- IMPOSE_COMMIT (R154, R158): GO starts validation of the image that IMPOSE_IMAGE and IMPOSE_IMAGE_SLOTS name then; while one
validates or waits the write is ignored. -/
def execImposeCommit (m : Nat) (s : State) : Result :=
  .next (s.tryWrite m pgIMPOSE 0x04C
    (reasonIf (s.on pgIMPOSE IMPOSE_STATUS_VALIDATING || s.on pgIMPOSE IMPOSE_STATUS_WAITING) .busy) fun s =>
    (s.put pgIMPOSE IMPOSE_STATUS_VALIDATING 1).onImpose fun i =>
      { i with image := (s.imposeBase, s.get pgIMPOSE IMPOSE_IMAGE_SLOTS_SLOTS) })

/-- Entries that pass the causes of R155 meet admission and take effect or wait (R157, R560, R561). -/
def State.imposeAdmit (s : State) (es : List SlotEntry) : State :=
  let s1 := s.ledgerCheckEnd
  let need := ringReservation es
  if s1.admission need = false then s1.imposeRefused 11 ((es.head?.map (·.1)).getD 0)
  else
    let s2 := s1.entry0Wait need
    let t : SMap SlotImage := es
    if s2.running then
      (s2.onImpose fun i => { i with waiting := some { table := t, firstBlock := none, dyn := [] } }).put pgIMPOSE
        IMPOSE_STATUS_WAITING 1
    else s2.applyTable t (s2.changedDyn t 0) 0

/-- IMPOSE_VALIDATION_DONE (R154, R155): the engine has read the image, each entry once; its contents are judged. -/
def execImposeValidationDone (s : State) : Result :=
  if s.on pgIMPOSE IMPOSE_STATUS_VALIDATING = false then .next s
  else
    let s1 := s.put pgIMPOSE IMPOSE_STATUS_VALIDATING 0
    let n := s1.impose.image.2
    if n = 0 ∨ 65536 < n then .next (s1.imposeRefused 1 0)
    else match s1.readImage s1.impose.image.1 64 0 n [] with
    | (.error k, s2) => .next (s2.imposeRefused 1 k)
    | (.ok bs, s2) =>
      let es := (bs.map fun x => (x.1, imageOf x.2)).filter (·.2.valid)
      match s2.imposeFault es with
      | some (c, k) => .next (s2.imposeRefused c k)
      | none => .next (s2.imposeAdmit es)

/-- A copy of an entry fails its CRC-32 (R160). An entry never stored has nothing to fail. -/
def SlotCopy.fails (c : SlotCopy) : Bool := decide (c ≠ SlotCopy.none) && c.crc != crc32 (imageBytes c.image)

/-- A copy that an upset has struck: its CRC-32 no longer fits. -/
def SlotCopy.struck (c : SlotCopy) (hit : Bool) : SlotCopy :=
  if hit && !c.fails then { c with crc := (crc32 (imageBytes c.image) + 1) % 2 ^ 32 } else c

/-- The copies of slot k struck by upsets since the pass before. -/
def State.strikeSlot (s : State) (hit : Nat × Bool × Bool) : State :=
  let (k, a, b) := hit
  s.onImpose fun i =>
    { i with copyA := SMap.set SlotCopy.none i.copyA k ((SMap.get SlotCopy.none i.copyA k).struck a)
             copyB := SMap.set SlotCopy.none i.copyB k ((SMap.get SlotCopy.none i.copyB k).struck b) }

/-- The scrub of one slot: a copy that fails its CRC-32 is rewritten from the other, TABLE_COPY from source 0x03A, and of two
that pass and differ copy B from copy A; with both failing the slot is FAULTED, TABLE_COPY from source 0x03B. The detail is the
slot (R160, R664). -/
def State.scrubSlot (s : State) (k : Nat) : State :=
  let a := SMap.get SlotCopy.none s.impose.copyA k
  let b := SMap.get SlotCopy.none s.impose.copyB k
  if a.fails && b.fails then
    let s1 := (s.setDyn k { s.dynOf k with faulted := true }).leftActive s
    (s1.event pgIMPOSE 2).report pgIMPOSE 0x03B 20 0 k
  else if a = b then s
  else
    let good := if a.fails then b else a
    let s1 := s.onImpose fun i =>
      { i with copyA := SMap.set SlotCopy.none i.copyA k good, copyB := SMap.set SlotCopy.none i.copyB k good }
    (s1.event pgIMPOSE 2).report pgIMPOSE 0x03A 20 0 k

/-- IMPOSE_TABLE_SCRUB (R160): a full pass over copies A and B in order of slot. `hits` are the slots whose copy A or copy B an
upset has struck since the pass before. -/
def execImposeTableScrub (hits : List (Nat × Bool × Bool)) (s : State) : Result :=
  let s1 := hits.foldl State.strikeSlot s
  .next ((SMap.keysOf s1.impose.copyA s1.impose.copyB).foldl State.scrubSlot s1)

/-- SLOT_INDEX_CAPTURE (R164, R178): a consistent copy of the slot's state and counters; OVR starts anew. -/
def execSlotIndexCapture (m k : Nat) (s : State) : Result :=
  .next (s.tryWrite m pgIMPOSE 0x060 [] fun s =>
    let k := k % 65536
    let d := s.dynOf k
    let s1 := (s.put pgIMPOSE IMPOSE_SLOT_INDEX_INDEX k).put pgIMPOSE IMPOSE_SLOT_STATE_STATE (s.slotState k)
    let s2 := (s1.put pgIMPOSE IMPOSE_SLOT_STATE_OVR (b2n d.ovr)).putPair pgIMPOSE IMPOSE_SLOT_EXPECTED_LO
      IMPOSE_SLOT_EXPECTED_HI (d.nx - d.n0)
    let s3 := s2.putPair pgIMPOSE IMPOSE_SLOT_RECEIVED_LO IMPOSE_SLOT_RECEIVED_HI d.received
    let s4 := s3.putPair pgIMPOSE IMPOSE_SLOT_GAPFILL_LO IMPOSE_SLOT_GAPFILL_HI d.gapfill
    (s4.putPair pgIMPOSE IMPOSE_SLOT_NEXT_LO IMPOSE_SLOT_NEXT_HI d.nx).setDyn k { d with ovr := false })

/-! ## Blocks (R166 to R171) -/

/-- Program start opens blocks m0 and m0 + 1 (R794). DESIGN CHOICE: NX of a valid slot stands at the first index of block m0 at
least, and N0 moves with it, so that indices before block m0 are never expected (notes/assumptions/51.md). -/
def State.openBlocks (s : State) (m0 : Nat) : State :=
  let s1 := s.onImpose fun i => { i with openBlock := some m0, ready := none, gather := [] }
  s1.validSlots.foldl (fun s k =>
    let d := s.dynOf k
    let base := m0 * (s.slot k).block
    s.setDyn k { d with nx := max d.nx base, n0 := d.n0 + (max d.nx base - d.nx) }) s1

/-- Slot k gap-filled to the end of block m, and the ring codeword of the block's last sample written (R170, R541). -/
def State.closeSlot (s : State) (m k : Nat) : State :=
  let d := s.dynOf k
  let stop := (m + 1) * (s.slot k).block
  let s1 := (s.gapStore (s.imageAt k) k d.nx (stop - d.nx)).setDyn k (gapTo d stop)
  let im := s1.imageAt k (stop - 1)
  s1.ringWrite ((im.ringBase + 4 * ((stop - 1) % 2 ^ im.ringLog2)) / 64 * 64)

/-- The tick that closes block m (R157, R167, R170): every valid slot is gap-filled to its end, block m + 1 becomes
current; a validated table governs blocks from m + 2 on, and takes effect when its first block becomes current. DESIGN CHOICE:
where one tick closes several blocks, m is the oldest (notes/assumptions/51.md). -/
def State.closeBlock (s : State) (m : Nat) : State :=
  let s1 := s.validSlots.foldl (fun s k => s.closeSlot m k) s
  let s2 := s1.onImpose fun i => { i with openBlock := some (m + 1) }
  match s2.impose.waiting with
  | none => s2
  | some p => match p.firstBlock with
    | none =>
      s2.onImpose fun i => { i with waiting := some { p with firstBlock := some (m + 2), dyn := s2.changedDyn p.table (m + 2) } }
    | some b => if b = m + 1 then s2.applyTable p.table p.dyn b else s2

end Sys2Proof.Machine
end

