-- ==== Sys2Proof/Machine/DriveOps.lean ====
section
/-!
DEFINITION. Drive egress: conversion, frames, multicast, the fade (spec/03, R181 to R203), and the fabric's reset GR1.
-/
namespace Sys2Proof.Machine

/-! ## GR1 of the fabric (R820) -/

/-- The device event of FRISKET_RESET_SRC: 1 the start of the fatal reaction, 2 a FADE_START. -/
def State.gr1Event (s : State) (code : Nat) : State :=
  if s.get pgFRISKET FRISKET_RESET_SRC_GR1_SRC = code then s.assertGr1 else s

/-! ## Conversion (R188, R197): exact until the one rounding (notes/assumptions/13.md) -/

/-- The gain of a frame sent now at drive index i of a stream, as a fraction: 1 before t0, then max(0, 1 − (t − t0) / T), and 0
in every frame sent from t0 + T on (R197). -/
def State.gain (s : State) (i rate : Nat) : Nat × Nat :=
  if s.get pgDRIVE DRIVE_FADE_STATUS_STATE ≠ 0 ∧
      (s.get pgDRIVE DRIVE_FADE_STATUS_STATE = 2 ∨ s.drive.t0 + s.drive.fadeT ≤ s.dev) then (0, 1)
  else if s.get pgDRIVE DRIVE_FADE_STATUS_STATE = 0 ∨ i * 1000000000 < s.drive.t0 * rate then (1, 1)
  else ((s.drive.fadeT + s.drive.t0) * rate - i * 1000000000, s.drive.fadeT * rate)

/-- ⌊n / d⌋ or the integer above, to nearest even. -/
def roundEven (n d : Nat) : Nat :=
  let q := n / d
  match compare (2 * (n % d)) d with
  | .lt => q
  | .gt => q + 1
  | .eq => if q % 2 = 0 then q else q + 1

/-- A binary32 sample times a gain in a stream's format: the word sent, saturated, NaN (R188). -/
def convert (format : Nat) (g : Nat × Nat) (w : Nat) : Nat × Bool × Bool :=
  match fpOf w with
  | .nan _ => (0, false, true)
  | x =>
    if g.1 = 0 then (0, false, false)
    else if format = 4 then
      match x with
      | .fin neg m e =>
        if g.1 = g.2 then (w, false, false)
        else
          let num := m * g.1 * 2 ^ 128
          ((roundFp .nearestEven neg (num / g.2) (e - 128) (decide (num % g.2 ≠ 0))).1, false, false)
      | _ => (w, false, false)
    else
      let n := 8 * formatSize format
      let top : Int := 2 ^ (n - 1) - 1
      match x with
      | .fin neg m e =>
        let k := e + (n : Int) - 1
        let a := roundEven (m * g.1 * 2 ^ k.toNat) (g.2 * 2 ^ (-k).toNat)
        let v : Int := if neg then -(a : Int) else a
        if top < v then (wrap n top, true, false)
        else if v < -top - 1 then (wrap n (-top - 1), true, false)
        else (wrap n v, false, false)
      | .inf neg => (wrap n (if neg then -top - 1 else top), true, false)
      | .nan _ => (0, false, true)

/-! ## Drive frames (R182 to R190) -/

/-- The drive table's source word of a channel. -/
def State.driveSource (s : State) (serial ch : Nat) : Option Nat :=
  (s.drive.table.find? fun x => x.2.valid && x.2.serial == serial && x.2.channel == ch).map (·.2.srcWord)

/-- B_d: samples a drive stream holds per impression (R184). -/
def State.driveBlock (s : State) (st : StreamEntry) : Nat := st.rate * s.period / 1000000000

/-- Samples of one frame of a stream: ⌊M / (CHANNELS × size)⌋, M = 9,134 less 4 for each tag (R185). -/
def frameSamples (tags : Nat) (st : StreamEntry) : Nat := (9134 - 4 * tags) / (st.channels * formatSize st.format)

/-- The drive samples of one channel of a frame: n words of the buffer, or zeros where no entry is valid; none where the
read fails (R182, R185). -/
def State.readDrive (s : State) (serial ch buf j0 n : Nat) : Option (List Nat) × State :=
  match s.driveSource serial ch with
  | none => (some (List.replicate n 0), s)
  | some src =>
    let a := s.pair pgDRIVE DRIVE_AREA_LO DRIVE_AREA_HI + 4 * (src + buf * s.get pgDRIVE DRIVE_BUF_WORDS + j0)
    match s.read 12 a (4 * n) with
    | (.ok bs, s1) => (some ((List.range n).map fun j => fieldLE bs (4 * j) 4), s1)
    | (_, s1) => (none, s1)

/-- The channels of a frame in order; none where a read fails. -/
def State.readChannels (s : State) (serial buf j0 n : Nat) : List Nat → Option (List (List Nat)) × State
  | [] => (some [], s)
  | c :: cs =>
    match s.readDrive serial c buf j0 n with
    | (none, s1) => (none, s1)
    | (some ws, s1) =>
      let r := s1.readChannels serial buf j0 n cs
      (r.1.map (ws :: ·), r.2)

/-- The body of a frame from its converted samples, sample by sample and channel by channel (R140). -/
def driveBody (format n : Nat) (chans : List (List (Nat × Bool × Bool))) : List Byte :=
  (List.range n).flatMap fun j => chans.flatMap fun ch => bytesLE (formatSize format) (ch.getD j (0, false, false)).1

/-- One drive frame of entry i: samples j0 to j0 + n − 1 of the block at drive index `base` (R185, R186, R202). A frame
whose samples cannot be read is not sent and counted in DRIVE_UNDELIVERED (R701). -/
def State.driveFrame (s : State) (i base buf : Nat) (st : StreamEntry) (j0 n : Nat) : State :=
  let e := s.ft i
  match s.readChannels e.serial buf j0 n ((List.range st.channels).map (st.first + ·)) with
  | (none, s1) => s1.count pgDRIVE DRIVE_UNDELIVERED
  | (some ws, s1) =>
    let chans := ws.map fun ch => (List.range n).map fun j =>
      convert st.format (s1.gain (base + j0 + j) st.rate) (ch.getD j 0)
    let sat := (chans.map fun c => (c.filter (·.2.1)).length).sum
    let nan := (chans.map fun c => (c.filter (·.2.2)).length).sum
    let body := driveBody st.format n chans
    let seq := SMap.get 0 e.txSeq st.id
    let resume := s1.drive.cleared && !(st.id ∈ e.sentSince)
    let first := base + j0
    let h : SheetHdr :=
      { version := 1, kind := 2, flags := if resume then 4 else 0, handle := e.handle i, stream := st.id
        format := st.format, seq := seq, first := first, samples := n, channels := st.channels, len := body.length
        chOff := 0, ts := first * 1000000000 / st.rate }
    let s2 := (s1.count pgDRIVE DRIVE_SATURATED sat).count pgDRIVE DRIVE_NAN nan
    let s3 := s2.setFt i { s2.ft i with txSeq := SMap.set 0 e.txSeq st.id ((seq + 1) % 65536)
                                        sentSince := if resume then e.sentSince ++ [st.id] else e.sentSince }
    s3.sendFrame e.port true e.mac e.tags s3.sheetType (sheetHdrBytes h ++ body)

/-- A port carries drive frames: LINK and SECURED (R189). -/
def State.canSend (s : State) (p : Nat) : Bool := s.on (pgFEED p) FEED_STATUS_LINK && s.on (pgFEED p) FEED_STATUS_SECURED

/-- A drive stream of entry i sent in full at a release tick, or its frames counted undelivered (R185, R189). -/
def State.driveStream (s : State) (i m buf : Nat) (st : StreamEntry) : State :=
  let e := s.ft i
  let bd := s.driveBlock st
  let k := frameSamples e.tags.length st
  if bd = 0 ∨ k = 0 then s
  else
    let frames := ceilDiv bd k
    if e.state = .bound ∧ s.canSend e.port then
      let base := (m + s.get pgDRIVE DRIVE_LEAD_BLOCKS) * bd
      (List.range frames).foldl (fun s f => s.driveFrame i base buf st (f * k) (min k (bd - f * k))) s
    else s.count pgDRIVE DRIVE_UNDELIVERED frames

/-- Every drive stream of every feeder table entry in use. -/
def State.driveAll (s : State) (m buf : Nat) : State :=
  (s.feed.table.filter fun x => decide (x.2.state ≠ .free)).foldl (fun s x =>
    (x.2.streams.filter (·.dir == 2)).foldl (fun s st => s.driveStream x.1 m buf st) s) s

/-! ## Multicast (R191 to R195, R198, R199) -/

/-- One multicast frame of a group to its member ports that can accept it; the others count in DRIVE_GRP_MISSED. -/
def State.sendGroup (s : State) (g kind ts : Nat) (body : List Byte) : State :=
  let seq := SMap.get 0 s.drive.grpSeq g
  let h : SheetHdr := { version := 1, kind := kind, flags := 0, handle := 0, stream := g, format := 0, seq := seq, first := 0
                        samples := 0, channels := 0, len := body.length, chOff := 0, ts := ts }
  let dst := s.pair pgDRIVE DRIVE_GRP_MAC_LO DRIVE_GRP_MAC_HI (g + 1)
  let s1 := s.onDrive fun d => { d with grpSeq := SMap.set 0 d.grpSeq g ((seq + 1) % 65536) }
  (bitList 16 (s.get pgDRIVE DRIVE_GRP_CFG_PORTS (g + 1))).foldl (fun s p =>
    if s.canSend p && (s.port p).txRoom then s.sendFrame p true dst [] s.sheetType (sheetHdrBytes h ++ body)
    else s.count pgDRIVE DRIVE_GRP_MISSED 1 (g + 1)) s1

/-- A multicast frame of every valid group that carries a kind. -/
def State.sendGroups (s : State) (carries : Fld) (kind ts : Nat) (body : List Byte) : State :=
  ((List.range 64).filter fun g => s.on pgDRIVE DRIVE_GRP_CFG_VALID (g + 1) && s.on pgDRIVE carries (g + 1)).foldl
    (fun s g => s.sendGroup g kind ts body) s

/-- Sheet time at every DRIVE_TIME_EVERY-th tick, counted from the device reset, the first one sending (R192). -/
def State.sheetTime (s : State) (count : Nat) : State :=
  let n := s.drive.timeTicks
  let s1 := s.onDrive fun d => { d with timeTicks := d.timeTicks + 1 }
  if n % max 1 (s.get pgDRIVE DRIVE_TIME_EVERY_EVERY) = 0 then
    s1.sendGroups DRIVE_GRP_CFG_TIME 4 s.dev
      (bytesLE 4 count ++ bytesLE 8 s.dev ++ bytesLE 4 s.period ++ List.replicate 16 0)
  else s1

/-- The Sheet fade frame: the same body every time (R198, R199). -/
def State.sheetFade (s : State) : State :=
  s.sendGroups DRIVE_GRP_CFG_FADE 5 s.drive.t0
    (bytesLE 1 s.drive.fadeCause ++ bytesLE 1 0 ++ bytesLE 2 (s.drive.fadeT / 1000000) ++ bytesLE 4 0 ++
     bytesLE 8 s.drive.t0 ++ List.replicate 16 0)

/-! ## Fade requests (R196 to R203) -/

/-- The causes of the fade requests that commands of the same time, waiting behind this one, are about to make (R196, R201):
DRIVE_CTRL.FADE_REQ, the fabric's request, an OR_ABORT result of 1, a fatal fault message, and an overrun after an overrun. -/
def State.fadesNow (s : State) : List Nat :=
  s.pending.flatMap fun c => match c with
    | .fadeReqWrite _ _ t => if t ≤ s.mono then [4] else []
    | .frisketFadeRequest t => if t ≤ s.mono ∧ s.frisket.fadeReq = false ∧ s.configured ∧ s.fabricRun.fabricOut .fade then [3] else []
    | .platenResult t => if t ≤ s.mono ∧ s.seq.platen.any (fun x => x.op == 3 && x.result == 1) then [2] else []
    | .faultMessage n t => if t ≤ s.mono ∧ (s.fault.net[n]?).any (fun x =>
        bits (s.get pgFAULT (FAULT_SEV.at (x.src / 16))) (2 * (x.src % 16) + 1) (2 * (x.src % 16)) == 3) then [1] else []
    | .impressionTick t => if t ≤ s.mono ∧ 1 ≤ s.drive.missed ∧ s.running ∧ s.comp.ended = false then [5] else []
    | _ => []

/-- A fade request accepted with a cause (R196, R201): it starts a fade where none is, with the lowest code among the requests
of its cycle, and else sets its bit only. -/
def State.requestFade (s : State) (cause : Nat) : State :=
  let s1 := s.put pgDRIVE DRIVE_FADE_STATUS_CAUSES (setBit (s.get pgDRIVE DRIVE_FADE_STATUS_CAUSES) (cause - 1) true)
  if s.get pgDRIVE DRIVE_FADE_STATUS_STATE ≠ 0 then s1
  else
    let t := s1.get pgDRIVE DRIVE_FADE_MS_RAMP_MS * 1000000
    let s2 := s1.onDrive fun d => { d with t0 := s.dev, fadeT := t, fadeCause := s.fadesNow.foldl min cause, afterRamp := 3 }
    (((s2.put pgDRIVE DRIVE_FADE_STATUS_STATE 1).event pgDRIVE 0).gr1Event 2).sheetFade

/-- A FADE_CLEAR that is ignored: STATE is not FADED, the abort plane is set, or a fatal fault is among the causes
(R202). -/
def State.clearForbidden (s : State) : Bool :=
  s.get pgDRIVE DRIVE_FADE_STATUS_STATE != 2 || s.drive.abortPlane || bit (s.get pgDRIVE DRIVE_FADE_STATUS_CAUSES) 0

/-- The fade cleared: the first frame of each stream sent from now on carries RESUME; a fabric request still 1 is taken
after the clear (R202, R203, R824). -/
def State.clearFade (s : State) : State :=
  let s1 := (s.put pgDRIVE DRIVE_FADE_STATUS_STATE 0).put pgDRIVE DRIVE_FADE_STATUS_CAUSES 0
  let table := SMap.mapVals FtEntry.reset (fun _ e => { e with sentSince := [] }) s1.feed.table
  let s2 := (s1.onFeed fun f => { f with table := table }).onDrive fun d => { d with cleared := true, afterRamp := 0 }
  if s2.frisket.fadeReq then s2.requestFade 3 else s2

/-! ## The release tick (R39 to R41, R183, R190) -/

/-- A validated drive table in force (R183). -/
def State.applyDrive (s : State) : State :=
  match s.drive.waiting with
  | none => s
  | some t => (s.onDrive fun d => { d with table := t, waiting := none }).event pgDRIVE 3

/-- The release of impression n, computed from block m; `ended` is whether its compute stage ended (R40). Two
consecutive stages not ended start a fade (R41). DESIGN CHOICE: START leaves the count of stages not ended and the buffer sent
last as the run before left them (notes/assumptions/51.md). -/
def State.release (s : State) (n m : Nat) (ended : Bool) : State :=
  let s1 := s.applyDrive
  let buf := if ended then n % 2 else s1.drive.lastBuf.getD ((n + 1) % 2)
  let s2 := if ended then s1.onDrive fun d => { d with lastBuf := some buf, missed := 0 }
    else (s1.count pgDRIVE DRIVE_REPEATS).onDrive fun d => { d with missed := d.missed + 1 }
  let s3 := if 2 ≤ s2.drive.missed then s2.requestFade 5 else s2
  if s3.on pgDRIVE DRIVE_CTRL_ENABLE then s3.driveAll m buf else s3

end Sys2Proof.Machine
end

