-- ==== Sys2Proof/Machine/Event.lean ====
section
/-!
DEFINITION. The Event Controller: sources, coalescing, external lines, presented levels, the in-service stacks, delivery to
the host, and its commands (spec/11). Processor 0 is the Compositor, 1 the Colophon.
-/
namespace Sys2Proof.Machine

/-! ## MSI-X (R647, R771) -/

/-- A vector is masked: by its table entry or by the function mask. -/
def State.vectorMasked (s : State) (v : Nat) : Bool := bit (s.reg 0x3FFE (16 * v + 12)).toNat 0 || s.msixFmask

/-- The message of a vector, as its table entry directs. -/
def State.sendMsix (s : State) (v : Nat) : State :=
  s.emit (.msix v ((s.reg 0x3FFE (16 * v)).toNat + (s.reg 0x3FFE (16 * v + 4)).toNat * 2 ^ 32)
    (s.reg 0x3FFE (16 * v + 8)).toNat)

/-- The pending bit of a vector. -/
def State.msixPending (s : State) (v : Nat) : Bool := bit (s.reg 0x3FFF (v / 32 * 4)).toNat (v % 32)

/-- The pending bit of a vector set. -/
def State.setMsixPending (s : State) (v : Nat) (b : Bool) : State :=
  s.setReg 0x3FFF (v / 32 * 4) (BitVec.ofNat 32 (setBit (s.reg 0x3FFF (v / 32 * 4)).toNat (v % 32) b))

/-- A request for a vector: a message, or its pending bit while it is masked (R647). -/
def State.hostRequest (s : State) (v : Nat) : State :=
  if s.vectorMasked v then s.setMsixPending v true else s.sendMsix v

/-- A vector that is no longer masked sends the message its pending bit holds. -/
def State.flushVector (s : State) (v : Nat) : State :=
  if s.msixPending v && !s.vectorMasked v then (s.setMsixPending v false).sendMsix v else s

/-! ## Sources (R621 to R628) -/

/-- PENDING of a source. -/
def State.srcPending (s : State) (k : Nat) : Bool := bit (s.get pgEVTCFG (EVT_SRC_PEND.at (k / 32))) (k % 32)

/-- ENABLE of a source. -/
def State.srcEnabled (s : State) (k : Nat) : Bool := bit (s.get pgEVTCFG (EVT_SRC_EN.at (k / 32))) (k % 32)

/-- A source requests its target: PENDING and ENABLE (R626). -/
def State.srcRequests (s : State) (k : Nat) : Bool := s.srcPending k && s.srcEnabled k

/-- The sources that request. -/
def State.requesting (s : State) : List Nat :=
  (List.range 16).flatMap fun i =>
    (bitList 32 (s.get pgEVTCFG (EVT_SRC_PEND.at i) &&& s.get pgEVTCFG (EVT_SRC_EN.at i))).map (32 * i + ·)

/-- In-service levels of a processor, top first. -/
def State.stack (s : State) (proc : Nat) : List Nat := if proc = 0 then s.evt.comp else s.evt.colo

/-- The presented level of a processor and class, none without a request (R635, R643). -/
def State.presented (s : State) (proc : Nat) (fast : Bool) : Option Nat :=
  let ks := s.requesting.filter fun k =>
    s.get pgEVTCFG (EVT_SRC_CFG_TARGET.at k) == proc + 1 && s.on pgEVTCFG (EVT_SRC_CFG_CLASS.at k) == fast
  if ks = [] ∨ s.on pgEVT (EVT_PX_STATUS_STACK_ERROR.at proc) = true then none
  else
    let l := (ks.map fun k => s.get pgEVTCFG (EVT_SRC_CFG_PRIO.at k)).foldl max 0
    if l < s.get pgEVT (EVT_PX_THRESH.at proc) then none
    else match s.stack proc with
    | [] => some l
    | t :: _ => if t < l then some l else none

/-- A request to the Compositor wakes its domain (R646); the source code of that wake is 5, the arrival at a sleeping
endpoint (notes/assumptions/15.md). -/
def State.presentWake (s : State) : State :=
  if s.asleep 1 && ((s.presented 0 false).isSome || (s.presented 0 true).isSome) then s.wake 1 5 else s

/-- A delivery (R625, R626, R647): ACC and AGE start anew, PENDING is set, and a host source that is enabled asks for its
message. -/
def State.deliver (s : State) (k : Nat) : State :=
  let s1 := s.onEvt fun e => { e with acc := SMap.set 0 e.acc k 0, age := SMap.set 0 e.age k 0 }
  let w := s1.get pgEVTCFG (EVT_SRC_PEND.at (k / 32))
  let s2 := s1.put pgEVTCFG (EVT_SRC_PEND.at (k / 32)) (setBit w (k % 32) true)
  if s2.srcEnabled k && s2.get pgEVTCFG (EVT_SRC_CFG_TARGET.at k) == 3 then
    s2.hostRequest (s2.get pgEVTCFG (EVT_SRC_CFG_VECTOR.at k))
  else s2.presentWake

/-- AGE of a source in Ac cycles: boundaries passed since its first raise (R625). -/
def State.srcAge (s : State) (k : Nat) : Nat := s.mono / 40 - SMap.get 0 s.evt.age k / 40

/-- The test of R625. -/
def State.srcDue (s : State) (k : Nat) : Bool :=
  let acc := SMap.get 0 s.evt.acc k
  let time := s.get pgEVTTIME (EVT_SRC_COAL_TIME_AC.at k)
  decide (s.get pgEVTCFG (EVT_SRC_CFG_COUNT.at k) ≤ acc) || (time != 0 && acc != 0 && decide (time ≤ s.srcAge k))

/-- A raise counted (R624, R625): CNT saturates at 255 and raises no event. -/
def State.countRaise (s : State) (k : Nat) : State :=
  let cnt := min 255 (s.get pgEVTCNT (EVT_SRC_CNT.at k) + 1)
  let s1 := s.put pgEVTCNT (EVT_SRC_CNT.at k) cnt
  let acc := SMap.get 0 s1.evt.acc k
  let s2 := s1.onEvt fun e => { e with acc := SMap.set 0 e.acc k (acc + 1)
                                       age := if acc = 0 then SMap.set 0 e.age k s1.mono else e.age }
  if s2.srcDue k then s2.deliver k else s2

/-- A source is raised (R621): 450 to 511 never are; while the network domain sleeps the raise is held in order (R633). -/
def State.raiseSource (s : State) (k : Nat) : State :=
  if 450 ≤ k then s
  else if s.asleep 3 then s.onEvt fun e => { e with held := e.held ++ [k] }
  else s.countRaise k

/-- The raises held while the network slept, counted when its wake completes (R633). -/
def State.releaseRaises (s : State) : State :=
  s.evt.held.foldl State.countRaise (s.onEvt fun e => { e with held := [] })

/-- EVENT_RAISE (R622, R624, R625): a raise reaches the controller; a page's EVENT packet on its way is taken. -/
def execEventRaise (k t : Nat) (s : State) : Result :=
  let s := s.advance t
  .next ((s.onEvt fun e => { e with incoming := e.incoming.erase k }).raiseSource k)

/-- COALESCE_TIMEOUT (R625): AGE has reached TIME with raises waiting. -/
def execCoalesceTimeout (k t : Nat) (s : State) : Result :=
  let s := s.advance t
  if s.srcDue k then .next (s.deliver k) else .next s

/-! ## External lines (R630 to R633) -/

/-- A line's state. -/
def State.line (s : State) (n : Nat) : EvtLine := SMap.get EvtLine.reset s.evt.lines n

/-- A line's state set, and its levels shown (R651). -/
def State.setLine (s : State) (n : Nat) (l : EvtLine) : State :=
  let s1 := s.onEvt fun e => { e with lines := SMap.set EvtLine.reset e.lines n l }
  (s1.put pgEVT (EVT_FILT_LEVEL.at n) (b2n l.filtered)).put pgEVT EVT_LEVELS
    (setBit (s1.get pgEVT EVT_LEVELS) n l.filtered)

/-- An edge is selected by EVT_FILT.EDGE: 0 rising, 1 falling, 2 both. -/
def edgeSelected (edge : Nat) (level : Bool) : Bool := edge == 2 || edge == (if level then 0 else 1)

/-- The filter of line n takes the level that the line has held for N Ac cycles; the first setting after a reset raises
nothing; an edge selected raises source n and wakes a sleeping network; a line of POWER_EVT_WAKE wakes its map (R630 to
R633, R854). -/
def State.settleLine (s : State) (n : Nat) : State :=
  let l := s.line n
  if s.mono < l.since + 40 * s.get pgEVT (EVT_FILT_STABLE_AC.at n) then s
  else if l.settled = false then s.setLine n { l with filtered := l.sync, timing := false, settled := true }
  else if l.timing = false ∨ l.filtered = l.sync then s.setLine n { l with timing := false }
  else
    let s1 := s.setLine n { l with filtered := l.sync, timing := false }
    let sel := edgeSelected (s1.get pgEVT (EVT_FILT_EDGE.at n)) l.sync
    let s2 := if sel && s1.asleep 3 then s1.wakeOne 3 1 else s1
    let s3 := if bit (s2.get pgPOWER POWER_EVT_WAKE_LINES) n then (s2.wake 3 1).wakeMap 1 else s2
    if sel then s3.raiseSource n else s3

/-- EVT_LINE_CHANGE (R630, R631): the synchronised line takes a level; a change that reverts before it has held N Ac
cycles is rejected and counted. -/
def execEvtLineChange (n : Nat) (level : Bool) (t : Nat) (s : State) : Result :=
  let s := (s.advance t).settleLine n
  let l := s.line n
  if level = l.sync then .next s
  else
    let s1 := s.setLine n { l with sync := level, since := s.mono, timing := !l.timing }
    .next (if l.timing then s1.count pgEVT EVT_FILTER_REJECTS else s1)

/-- EVT_FILTER_SETTLE (R630 to R633): the line has held its level for N Ac cycles. -/
def execEvtFilterSettle (n t : Nat) (s : State) : Result := .next ((s.advance t).settleLine n)

/-! ## Mailbox rings (R634, R738, R739) -/

/-- The device address of a mailbox: 0 of host software, 1 of the Compositor. -/
def mbBase (box : Nat) : Nat := 0x03E00000 + box * 0x100000

/-- A mailbox is rung: firmware takes its command, which STATUS 255 shows, or counts a ring that finds one in progress. -/
def State.mbRing (s : State) (box : Nat) : State :=
  if s.firmware then
    match s.readRaw 1 (mbBase box) 64 with
    | (.ok h, s1) =>
      if fieldLE h 8 1 = 255 ∨ box ∈ s1.colo.taken then s1.count pgCOLOPHON COLOPHON_MB_BUSY_RINGS
      else (s1.writeRaw 1 (mbBase box + 8) [255#8]).2.onColo fun c => { c with taken := c.taken ++ [box] }
    | (_, s1) => s1
  else s

/-- A software source raised; 64 and 66 ring the mailboxes. -/
def State.softRaise (s : State) (idx : Nat) : State :=
  let s1 := s.raiseSource (64 + idx)
  if idx = 0 then s1.mbRing 0 else if idx = 2 then s1.mbRing 1 else s1

/-- SOFT_RAISE (R634): software source 64 + INDEX is raised once. -/
def execSoftRaise (m idx t : Nat) (s : State) : Result :=
  let s := s.advance t
  .next (s.tryWrite m pgEVT 0x084 [] fun s => s.softRaise (idx % 64))

/-! ## The in-service stacks (R636 to R644) -/

/-- A stack set, and shown in EVT_Px_STACK (R651). -/
def State.setStack (s : State) (proc : Nat) (st : List Nat) : State :=
  let s1 := s.onEvt fun e => if proc = 0 then { e with comp := st } else { e with colo := st }
  let s2 := (s1.put pgEVT (EVT_PX_STACK_IN_SERVICE.at proc) (maskOf 16 (· ∈ st))).put pgEVT (EVT_PX_STACK_DEPTH.at proc) st.length
  (s2.put pgEVT (EVT_PX_STACK_EMPTY.at proc) (b2n st.isEmpty)).put pgEVT (EVT_PX_STACK_TOP.at proc) (st.headD 0)

/-- The detail of a stack fault (R645). -/
def stackDetail (written top proc : Nat) : Nat := written + top * 16 + proc * 256

/-- A check of the stack fails: no request is presented to the processor until its stack is reset (R643). -/
def State.stackFault (s : State) (proc : Nat) : State :=
  let s1 := (s.put pgEVT (EVT_PX_STATUS_STACK_ERROR.at proc) 1).count pgEVT EVT_STACK_ERRORS
  (s1.event pgEVT 1).report pgEVT 0x03E 24 0 (stackDetail 0 ((s.stack proc).headD 0) proc)

/-- The levels of a stack, top first, rise strictly from bottom to top (R643). -/
def rises : List Nat → Bool
  | a :: b :: l => decide (b < a) && rises (b :: l)
  | _ => true

/-- The level an acceptance pushes: the one its class presents, else the one presented when the core took the interrupt, whose
request software has cleared since (R636, R637). -/
def State.acceptedLevel (s : State) (proc : Nat) (fast : Bool) : Option Nat :=
  match s.presented proc fast with
  | some l => some l
  | none => (s.evt.accepting.find? fun x => x.1 == proc && x.2.1 == fast).map (·.2.2)

/-- EVT_ACCEPTANCE (R636, R643): the level is pushed and the stack checked; with no level nothing is pushed. -/
def execEvtAcceptance (proc : Nat) (fast : Bool) (s : State) : Result :=
  let proc := proc % 2
  let s1 := s.onEvt fun e => { e with accepting := e.accepting.eraseP fun x => x.1 == proc && x.2.1 == fast }
  match s.acceptedLevel proc fast with
  | none => .next s1
  | some l =>
    let s2 := s1.setStack proc (l :: s.stack proc)
    .next (if rises (s2.stack proc) then s2 else s2.stackFault proc)

/-- A failed completion: EOI_ERROR, the level written and the top, the counter, the event and the fault (R638, R639). -/
def State.eoiError (s : State) (proc level top kind : Nat) : State :=
  let s1 := (s.put pgEVT (EVT_PX_STATUS_EOI_ERROR.at proc) 1).put pgEVT (EVT_PX_STATUS_EOI_WRITTEN.at proc) level
  let s2 := s1.put pgEVT (EVT_PX_STATUS_EOI_TOP.at proc) top
  ((s2.count pgEVT EVT_EOI_ERRORS).event pgEVT 0).report pgEVT 0x03E kind 0 (stackDetail level top proc)

/-- EOI_WRITE (R638 to R640): the level at the top is popped; another level, and a completion on an empty stack, are
errors; a completion from another master is ignored. -/
def execEoiWrite (m proc level : Nat) (s : State) : Result :=
  let level := level % 16
  .next (s.tryWrite m pgEVT (0x0AC + proc * 0x20) (reasonIf (m != proc) .wrongMaster) fun s =>
    match s.stack proc with
    | [] => ((s.put pgEVT (EVT_PX_STATUS_EOI_EMPTY.at proc) 1)).eoiError proc level 0 23
    | top :: rest => if top = level then (s.setStack proc rest).presentWake else s.eoiError proc level top 22)

/-- A stack emptied and its errors cleared; an acceptance on its way goes with it (R644). -/
def State.resetStack (s : State) (proc : Nat) : State :=
  let s1 := (s.setStack proc []).onEvt fun e => { e with accepting := e.accepting.filter fun x => x.1 != proc }
  let s2 := s1.put pgEVT (EVT_PX_STATUS_STACK_ERROR.at proc) 0
  (s2.put pgEVT (EVT_PX_STATUS_EOI_ERROR.at proc) 0).put pgEVT (EVT_PX_STATUS_EOI_EMPTY.at proc) 0

/-- STACK_RESET (R644). -/
def execStackReset (m proc : Nat) (s : State) : Result :=
  let proc := proc % 2
  .next (s.tryWrite m pgEVT (0x0B4 + proc * 0x20) [] fun s => (s.resetStack proc).presentWake)

/-- EVT_STACK_UPSET (R643): parity of an entry, or the two copies of the depth, fail the check. -/
def execEvtStackUpset (proc : Nat) (s : State) : Result := .next (s.stackFault (proc % 2))

/-! ## The copy compare (R629) -/

/-- The configuration registers of a source in copy i. -/
def State.srcCopy (s : State) (k i : Nat) : W32 × W32 :=
  (s.reg pgEVTCFG (EVT_SRC_CFG_TARGET.at k).off i, s.reg pgEVTTIME (EVT_SRC_COAL_TIME_AC.at k).off i)

/-- Copy i of a source's configuration set. -/
def State.setSrcCopy (s : State) (k i : Nat) (c : W32 × W32) : State :=
  (s.setReg pgEVTCFG (EVT_SRC_CFG_TARGET.at k).off c.1 i).setReg pgEVTTIME (EVT_SRC_COAL_TIME_AC.at k).off c.2 i

/-- The flips that fall on bits a copy has: TIME_AC [55:32] and EVT_SRC_CFG [31:9]. -/
def heldFlips (f : BitVec 64) : BitVec 64 := f &&& 0x00FFFFFFFFFFFE00#64

/-- Both words of a copy with bits flipped. -/
def flipCopy (c : W32 × W32) (f : BitVec 64) : W32 × W32 :=
  (c.1 ^^^ (heldFlips f).setWidth 32, c.2 ^^^ (heldFlips f >>> 32).setWidth 32)

/-- A copy's one parity bit fails after an odd number of flips. -/
def parityFails (f : BitVec 64) : Bool := ((List.range 64).filter fun i => (heldFlips f).getLsbD i).length % 2 == 1

/-- The copies of a source as an upset leaves them. -/
def State.strikeSrc (s : State) (h : SrcHit) : State :=
  let k := h.source % 512
  (s.setSrcCopy k 0 (flipCopy (s.srcCopy k 0) h.flipsA)).setSrcCopy k 1 (flipCopy (s.srcCopy k 1) h.flipsB)

/-- One source compared: the copy that fails its parity is rewritten from the other; where both fail, or both pass and
differ, TARGET becomes 0 in both (R629). -/
def State.scrubSource (hits : List SrcHit) (s : State) (k : Nat) : State :=
  let hs := hits.filter fun h => h.source % 512 == k
  let a := parityFails (hs.foldl (fun f h => f ^^^ h.flipsA) 0)
  let b := parityFails (hs.foldl (fun f h => f ^^^ h.flipsB) 0)
  if s.srcCopy k 0 = s.srcCopy k 1 ∧ a = false then s
  else
    let s1 := (s.count pgEVT EVT_CONFIG_COPY).event pgEVT 3
    if a != b then
      (if a then s1.setSrcCopy k 0 (s1.srcCopy k 1) else s1.setSrcCopy k 1 (s1.srcCopy k 0)).report pgEVT 0x03C 21 0 k
    else
      ((s1.put pgEVTCFG (EVT_SRC_CFG_TARGET.at k) 0).put pgEVTCFG (EVT_SRC_CFG_TARGET.at k) 0 1).report pgEVT 0x03D 21 0 k

/-- EVT_CONFIG_SCRUB (R629): the 1 ms compare of the two copies of every source, after the upsets that struck them since the
compare before. -/
def execEvtConfigScrub (hits : List SrcHit) (s : State) : Result :=
  .next ((List.range 512).foldl (State.scrubSource hits) (hits.foldl State.strikeSrc s)).presentWake

/-- MSIX_UNMASK (R647): the mask of a vector, or the function mask, clears; vectors that are no longer masked send the
message their pending bit holds. -/
def execMsixUnmask (vector : Option Nat) (s : State) : Result :=
  match vector with
  | some v =>
    let v := v % 256
    let off := 16 * v + 12
    .next ((s.setReg 0x3FFE off (BitVec.ofNat 32 (setBit (s.reg 0x3FFE off).toNat 0 false))).flushVector v)
  | none => .next ((List.range 256).foldl State.flushVector { s with msixFmask := false })

end Sys2Proof.Machine
end

