-- ==== Sys2Proof/Machine/Frisket.lean ====
section
/-!
DEFINITION. The commands of the Frisket fabric (spec/16, R819 to R836). The levels it drives are those its cells give (Machine/Fabric.lean).
-/
namespace Sys2Proof.Machine

/-- What pin n does: a level driven, or high impedance (R822). -/
inductive PinDrive where
  | level (v : Bool) | highZ
deriving DecidableEq, Repr

/-- The drive of pin n (R822): the fabric's value while it is RUNNING and its output enable is 1, else the safe state; high
impedance until a boundary block has been applied. -/
def State.pin (s : State) (n : Nat) : PinDrive :=
  if s.frisket.boundary = false then .highZ
  else if s.fabric = 3 ∧ s.frisket.wakeScrub = false then if s.fabricOut (.enable n) then .level (s.fabricOut (.value n)) else .highZ
  else if s.on pgFRISKET (FRISKET_GPIO_CFG_SAFE_OE.at n) then .level (s.on pgFRISKET (FRISKET_GPIO_CFG_SAFE_VALUE.at n))
  else .highZ

/-- FRISKET_EVENT_LINE (R823): the level of line i is seen; each change from 0 to 1 that is seen raises source 16 + i once. -/
def execFrisketEventLine (i : Nat) (t : Nat) (s : State) : Result :=
  let s := (s.advance t).fabricRun
  let i := i % 32
  if s.configured = false then .next s
  else
    let level := s.fabricOut (.line i)
    let was := SMap.get false s.frisket.lines i
    let s1 := s.onFrisket fun f => { f with lines := SMap.set false f.lines i level }
    .next (if level && !was then s1.raiseSource (16 + i) else s1)

/-- FRISKET_FADE_REQUEST (R824): the level of the request is seen; a change from 0 to 1 is counted, and while it is 1 a fade
with CAUSE 3 is requested. -/
def execFrisketFadeRequest (t : Nat) (s : State) : Result :=
  let s := (s.advance t).fabricRun
  if s.configured = false then .next s
  else
    let level := s.fabricOut .fade
    let was := s.frisket.fadeReq
    let s1 := s.onFrisket fun f => { f with fadeReq := level }
    .next (if level && !was then (s1.count pgFRISKET FRISKET_FADE_REQUESTS).requestFade 3 else s1)

/-- FRISKET_RESET1 (R820): a write of 1 asserts GR1 for 4 edges of every running tree. -/
def execFrisketReset1 (m : Nat) (s : State) : Result :=
  .next (s.tryWrite m pgFRISKET 0x044 [] State.assertGr1)

/-- The fabric enters FAULTED: GR0, pins safe, a fade with CAUSE 3, FRISKET_CONFIG from source 0x03F (R832). -/
def State.fabricFault (s : State) : State :=
  ((s.setFabric 4).requestFade 3).report pgFRISKET 0x03F 39 0 0

/-- FRISKET_CONFIG_SCRUB (R832, R833): a 10 ms pass corrected `n` words; an uncorrectable word faults the fabric until a
device reset. -/
def execFrisketConfigScrub (n : Nat) (uncorrectable : Bool) (t : Nat) (s : State) : Result :=
  let s := s.advance t
  if s.configured = false then .next s
  else
    let s1 := if n = 0 then s else (s.count pgFRISKET FRISKET_CFG_CORRECTED n).event pgFRISKET 1
    .next (if uncorrectable && s1.fabric != 4 then s1.fabricFault else s1)

/-- FRISKET_WAKE_RELEASE (R819, R834): after a wake the configuration has been scrubbed in full and GR0 is released. -/
def execFrisketWakeRelease (s : State) : Result :=
  if s.frisket.wakeScrub then
    .next (s.fabricRun.onFrisket fun f =>
      { f with wakeScrub := false, gr0 := if s.fabric = 3 then false else f.gr0
               gr0Left := if s.fabric = 3 then [(0, 1), (1, 1), (2, 1), (3, 1)] else f.gr0Left })
  else .next s

/-- GPIO_INPUT_CHANGE (R818, R821): input n takes a level, which its synchroniser takes at the next edges of SYNC_TREE, or
which reaches the fabric at once where RAW = 1; a rise of GP00 to GP03 is an edge of the tree it clocks. -/
def execGpioInputChange (n : Nat) (level : Bool) (t : Nat) (s : State) : Result :=
  let s := (s.advance t).fabricRun
  let n := n % 64
  let rise := level && !SMap.get false s.frisket.gpioIn n
  let s1 := if rise && decide (n < 4) && s.treeSrc n == 3 && s.configured && !s.frisket.wakeScrub then s.fabricEdge (· == n) else s
  .next (s1.onFrisket fun f => { f with gpioIn := SMap.set false f.gpioIn n level })

/-- The boundary block applied: byte k of the block is byte k mod 4 of offset 0x080 + 4 × ⌊k / 4⌋ (R826). -/
def State.applyBoundary (s : State) (b : List Byte) : State :=
  ((List.range 256).foldl (fun s k => s.setReg pgFRISKET (0x080 + 4 * k) (BitVec.ofNat 32 (fieldLE b (4 * k) 4))) s).onFrisket
    fun f => { f with boundary := true }

end Sys2Proof.Machine
end

