-- ==== Sys2Proof/Machine/FormeOps.lean ====
section
/-!
DEFINITION. The Forme array: places and maps, fields of case memory, flags, the E latch, and galley transfers
(spec/04, spec/05).
-/
namespace Sys2Proof.Machine

/-! ## Places (R206 to R211, R253 to R255) -/

/-- The key of a physical sort: row, physical galley, physical column, row within the galley, as R244 lays them out. -/
def sortKey (row p q r : Nat) : Nat := ((row * 32 + p) * 64 + q) * 32 + r

/-- Logical galley rows in service, n. -/
def State.rows (s : State) : Nat := s.get pgFORME FORME_STATUS_ROWS

/-- Physical row of logical row L (R210, FORME_ROWMAP). -/
def State.physRow (s : State) (l : Nat) : Nat :=
  if l < 8 then bits (s.get pgFORME FORME_ROWMAP_LO) (4 * l + 3) (4 * l)
  else bits (s.get pgFORME FORME_ROWMAP_HI) (4 * (l - 8) + 3) (4 * (l - 8))

/-- The retired galley of a row whose migration is done; 31 none (R254). -/
def State.retiredGalley (s : State) (row : Nat) : Nat :=
  if s.on (pgGALLEY row) GALLEY_REMAP_PENDING then 31 else s.get (pgGALLEY row) GALLEY_REMAP_RETIRED

/-- The retired column of a galley whose migration is done; 63 none (R253). -/
def State.retiredColumn (s : State) (row p : Nat) : Nat :=
  if s.on (pgGALLEY row) (GALLEY_COL_RETIRED_PENDING.at p) then 63
  else s.get (pgGALLEY row) (GALLEY_COL_RETIRED_COLUMN.at p)

/-- Physical galley of logical galley gx (R254). -/
def State.physGalley (s : State) (row gx : Nat) : Nat := if gx < s.retiredGalley row then gx else gx + 1

/-- Physical column of logical column c (R253). -/
def State.physColumn (s : State) (row p c : Nat) : Nat := if c < s.retiredColumn row p then c else c + 1

/-- The physical place of column c, row r of logical galley (gx, gy). -/
def State.cellKey (s : State) (gx gy c r : Nat) : Nat :=
  let row := s.physRow gy
  let p := s.physGalley row gx
  sortKey row p (s.physColumn row p c) r

/-- The physical place of logical sort (x, y) (R206). -/
def State.place (s : State) (x y : Nat) : Nat := s.cellKey (x / 32) (y / 32) (x % 32) (y % 32)

/-- The logical sorts in service, in order of their linear index (R207). -/
def State.logical (s : State) : List (Nat × Nat) :=
  (List.range (512 * (32 * s.rows))).map fun k => (k % 512, k / 512)

/-- A physical sort is in service (R211). -/
def State.inService (s : State) (key : Nat) : Bool :=
  let row := key / 65536
  let p := key / 2048 % 32
  let q := key / 32 % 64
  (List.range s.rows).any (fun l => s.physRow l == row) &&
  (p != s.retiredGalley row && (decide (p < 16) || decide (s.retiredGalley row < 16))) &&
  (q != s.retiredColumn row p && (decide (q < 32) || decide (s.retiredColumn row p < 32)))

/-- A physical galley is in service (R211, R386). -/
def State.galleyUp (s : State) (row p : Nat) : Bool :=
  (List.range s.rows).any (fun l => s.physRow l == row) && p != s.retiredGalley row &&
  (decide (p < 16) || decide (s.retiredGalley row < 16))

/-- A sort. -/
def State.sort (s : State) (key : Nat) : SortSt := SMap.get SortSt.reset s.forme.sorts key

/-- The state with a sort set. -/
def State.setSort (s : State) (key : Nat) (m : SortSt) : State :=
  s.onForme fun f => { f with sorts := SMap.set SortSt.reset f.sorts key m }

/-! ## Case memory fields (R224, R225) -/

/-- A case word. -/
def SortSt.word (m : SortSt) (k : Nat) : Nat := SMap.get 0 m.mem k

/-- The words a field touches. -/
def fieldWords (a w : Nat) : List Nat :=
  if w = 0 then [] else (List.range ((a + w - 1) / 32 - a / 32 + 1)).map (a / 32 + ·)

/-- The value of a field: bit k is case memory bit a + k (R225). -/
def SortSt.field (m : SortSt) (a w : Nat) : Nat :=
  (m.word (a / 32) + m.word (a / 32 + 1) * 2 ^ 32 + m.word (a / 32 + 2) * 2 ^ 64) / 2 ^ (a % 32) % 2 ^ w

/-- The part of word k that field [a, a + w) covers, replaced by the bits of v that fall in it. -/
def mergeWord (old a w v k : Nat) : Nat :=
  let lo := max a (32 * k)
  let hi := min (a + w) (32 * k + 32)
  if lo < hi then setBits old (hi - 1 - 32 * k) (lo - 32 * k) (bits v (hi - 1 - a) (lo - a)) else old

/-- A field stored: each word it touches gets fresh check bits (R227, R302). -/
def SortSt.setField (m : SortSt) (a w v : Nat) : SortSt :=
  (fieldWords a w).foldl (fun m k =>
    { m with mem := SMap.set 0 m.mem k (mergeWord (m.word k) a w v k), bad := m.bad.filter (· != k)
             weak := m.weak.filter (· != k), fixes := m.fixes.filter (· != k) }) m

/-! ## Flags and context (R215 to R219) -/

/-- Flag i of a sort: C, K, X, P, T0 to T3 from 0 upwards. -/
def SortSt.flag (m : SortSt) (i : Nat) : Bool := bit m.flags i

/-- A flag set. -/
def SortSt.setFlag (m : SortSt) (i : Nat) (b : Bool) : SortSt := { m with flags := setBit m.flags i b }

/-- The flag a FLAG code names (R298). -/
def flagOf (code : Nat) : Nat := if code = 0 then 3 else if code ≤ 4 then code + 3 else if code = 5 then 2
  else if code = 6 then 1 else 0

/-- A sort is enabled under a context selector: K = 1 and the condition (R217, R296). -/
def SortSt.enabled (m : SortSt) (ctx : Nat) : Bool :=
  m.flag 1 && (if ctx = 0 then true else if ctx = 1 then m.flag 2 else !m.flag 2)

/-! ## The instruction word (R291 to R293, R297) -/

def fmScalar (i : Nat) : Nat := bits i 127 96
def fmFdAddr (i : Nat) : Nat := bits i 95 82
def fmFdWidth (i : Nat) : Nat := bits i 81 75
def fmFbAddr (i : Nat) : Nat := bits i 74 61
def fmFbWidth (i : Nat) : Nat := bits i 60 54
def fmFaAddr (i : Nat) : Nat := bits i 53 40
def fmFaWidth (i : Nat) : Nat := bits i 39 33
def fmGreg (i : Nat) : Nat := bits i 32 28
def fmCtx (i : Nat) : Nat := bits i 27 26
def fmMod (i : Nat) : Nat := bits i 25 10
def fmOp (i : Nat) : Nat := bits i 9 0
def fmCond (i : Nat) : Nat := bits (fmMod i) 15 13
def fmFop (i : Nat) : Nat := bits (fmMod i) 12 11
def fmFlag (i : Nat) : Nat := bits (fmMod i) 10 8
def fmGlobal (i : Nat) : Bool := bit (fmMod i) 7
def fmDir (i : Nat) : Nat := bits (fmMod i) 6 5
def fmImmb (i : Nat) : Bool := bit (fmMod i) 4
def fmSigna (i : Nat) : Bool := bit (fmMod i) 3
def fmSignb (i : Nat) : Bool := bit (fmMod i) 2
def fmSignd (i : Nat) : Bool := bit (fmMod i) 1

/-- A w-bit value read as an n-bit operand: cut, or extended by its sign or by zero (R299, R300). -/
def extend (w n : Nat) (sgn : Bool) (v : Nat) : Nat := wrap n (if sgn then signed w v else (v : Int))

/-- The A operand as an n-bit value (R299). -/
def SortSt.opA (m : SortSt) (i n : Nat) : Nat := extend (fmFaWidth i) n (fmSigna i) (m.field (fmFaAddr i) (fmFaWidth i))

/-- The A operand shifted left under R301. -/
def SortSt.opAShifted (m : SortSt) (i n : Nat) : Nat :=
  if fmImmb i then m.opA i n else m.opA i n * 2 ^ bits (fmScalar i) 5 0 % 2 ^ n

/-- The B operand as an n-bit value: a field, or SCALAR (R299, R300). -/
def SortSt.opB (m : SortSt) (i n : Nat) : Nat :=
  if fmImmb i then extend 32 n (fmSignb i) (fmScalar i)
  else extend (fmFbWidth i) n (fmSignb i) (m.field (fmFbAddr i) (fmFbWidth i))

/-- The width of the B operand: 32 under IMMB. -/
def fmWb (i : Nat) : Nat := if fmImmb i then 32 else fmFbWidth i

/-- The value an n-bit operand represents. -/
def valueOf (n : Nat) (sgn : Bool) (v : Nat) : Int := if sgn then signed n v else (v : Int)

/-- FOP of a flag and a result (R298, R303). -/
def fopOf (fop : Nat) (old r : Bool) : Bool :=
  if fop = 0 then r else if fop = 1 then old && r else if fop = 2 then old || r else old && !r

/-! ## The E latch (R241 to R245, R285) -/

/-- Galley pages and counts of corrected words: `row` with n corrections (R228, R286, R288). -/
def State.caseCorrected (s : State) (row n : Nat) : State :=
  if n = 0 then s else (s.count (pgGALLEY row) GALLEY_CORRECTED n).count pgFORME FORME_CORRECTED n

/-- One galley's message of R243, for the lowest column and row among those that rose. -/
def State.galleyMessage (s : State) (key code uaddr : Nat) : State :=
  let row := key / 65536
  let p := key / 2048 % 32
  let g := row * 17 + p
  if g ∈ s.forme.told then s
  else (s.report (pgGALLEY row) (0x100 + g) 1 key (code * 2 ^ 16 + uaddr)).onForme fun f => { f with told := g :: f.told }

/-- A galley has sent its message since E_CLEAR: later rises in it are counted only (R243). -/
def State.galleyTold (s : State) (key : Nat) : Bool := s.forme.told.contains (key / 65536 * 17 + key / 2048 % 32)

/-- E rises in sorts at one time: (place, check code, microaddress), places rising (R241 to R245, R285 to R289). The E flags
themselves are already set. -/
def State.raiseE (s : State) (rises : List (Nat × Nat × Nat)) : State :=
  match rises with
  | [] => s
  | (k, c, u) :: _ =>
    let s1 := s.count pgFORME FORME_E_COUNT (rises.filter fun x => s.inService x.1).length
    let s2 := if s1.on pgFORME FORME_E_FIRST_VALID then s1
      else (((s1.put pgFORME FORME_E_FIRST_VALID 1).put pgFORME FORME_E_FIRST_CHECK c).put pgFORME
        FORME_E_FIRST_POSITION k).put pgFORME FORME_E_UADDR_UADDR u
    let first := rises.filter fun x => !s.galleyTold x.1
    let s3 := if first.isEmpty then s2 else s2.event pgFORME 0
    let s4 := ((first.map fun x => x.1 / 65536).eraseDups).foldl (fun s r => s.event (pgGALLEY r) 0) s3
    first.foldl (fun s x => s.galleyMessage x.1 x.2.1 x.2.2) s4

/-- E of one sort set by a check; answers whether it rose. -/
def State.setE (s : State) (key : Nat) : Bool × State :=
  let m := s.sort key
  if m.e then (false, s) else (true, s.setSort key { m with e := true })

/-- E cleared in every sort, FORME_E_FIRST cleared, galleys may send again (R241, R243, R284). -/
def State.clearE (s : State) : State :=
  let s1 := ((s.put pgFORME FORME_E_FIRST_VALID 0).put pgFORME FORME_E_FIRST_CHECK 0).put pgFORME FORME_E_FIRST_POSITION 0
  s1.onForme fun f => { f with sorts := SMap.mapVals SortSt.reset (fun _ m => { m with e := false }) f.sorts,
                               told := [], eClear := false }

/-- E_ANY: E = 1 in some sort in service (R284). -/
def State.eAny (s : State) : Bool := s.forme.sorts.any fun x => x.2.e && s.inService x.1

/-- GALLEY_E_MAP of a row, spares included (R288). -/
def State.eMap (s : State) (row : Nat) : Nat :=
  s.forme.sorts.foldl (fun n x => if x.2.e && x.1 / 65536 == row then setBit n (x.1 / 2048 % 32) true else n) 0

/-- A migration waits or runs (R259). -/
def State.migrating (s : State) : Bool :=
  (List.range 16).any fun r => s.on (pgGALLEY r) GALLEY_REMAP_PENDING ||
    (List.range 17).any fun p => s.on (pgGALLEY r) (GALLEY_COL_RETIRED_PENDING.at p)

/-! ## Galley transfers (R269 to R281, R332 to R339, R926, R927) -/

/-- The parameters of an instruction word (R332). -/
def transferOf (i : Nat) (inbound : Bool) : Transfer :=
  { inbound := inbound, mode := bits (fmMod i) 1 0, base := fmScalar i, stride := bits i 74 54,
    colFirst := bits (fmMod i) 10 6, colCount := bits (fmFaWidth i) 4 0 + 1, depth := fmFaAddr i + 1,
    caseBase := fmFdAddr i, phases := 2 ^ bits (fmMod i) 3 2, buffer := bits (fmMod i) 5 4, moved := 0, filled := 0 }

/-- A parameter outside the limits of R334. -/
def Transfer.badRange (t : Transfer) : Bool :=
  if t.mode = 2 then decide (511 < t.caseBase)
  else decide (t.base % 4 ≠ 0) || decide (32 < t.colFirst + t.colCount) ||
    (if t.mode = 0 then decide (512 < t.caseBase + t.depth) || decide (511 < t.caseBase)
     else decide (16384 < t.caseBase + t.depth))

/-- Stone words per galley in WORD and PLANE mode (R336). -/
def Transfer.words (t : Transfer) : Nat := (if t.mode = 0 then 32 else 1) * t.colCount * t.depth

/-- The Stone extent of a WORD or PLANE transfer (R336): its length from STONE_BASE. -/
def State.transferLen (s : State) (t : Transfer) : Nat := (16 * s.rows - 1) * 4 * t.stride + 4 * t.words

/-- The lowest address of an extent that lies outside Stone in service (R336), if any. -/
def State.outsideStone (s : State) (a len : Nat) : Option Nat :=
  if a < 0x04000000 then
    let n := ceilDiv (min (a + len) 0x04000000) (2 ^ 21) - a / 2 ^ 21
    match (List.range n).find? (fun k => s.bankOwner (a / 2 ^ 21 + k) == 31) with
    | some k => some (max a ((a / 2 ^ 21 + k) * 2 ^ 21))
    | none => if 0x04000000 < a + len then some 0x04000000 else none
  else some a

/-- The sample words a galley's port loads in SLOT mode, in the order of R275: slot, sample. -/
def State.slotLoads (s : State) (t : Transfer) (g : Nat) : List (Nat × Nat) :=
  (s.validSlots.filter fun k => let im := s.slot k
    im.stone && im.column / 32 == g && decide (im.phase < t.phases)).flatMap fun k =>
      ((List.range (s.slot k).block).filter fun j =>
        decide (t.caseBase + (t.phases * j + (s.slot k).phase) / 32 ≤ 511)).map fun j => (k, j)

/-- Words each galley's port moves: in SLOT mode the most that any galley has. -/
def State.transferWords (s : State) (t : Transfer) : Nat :=
  if t.mode = 2 then (List.range (16 * s.rows)).foldl (fun n g => max n (s.slotLoads t g).length) 0 else t.words

/-- Word k of galley g of a transfer: its Stone address and the cells it maps to (place, case memory bit address): 32 bits
of one sort, or one bit of each of 32 sorts (R272, R274, R275). -/
def State.transferWord (s : State) (t : Transfer) (g k : Nat) : Option (Nat × List Nat × Nat) :=
  let gx := g % 16
  let gy := g / 16
  if t.mode = 0 then
    some (t.base + g * 4 * t.stride + 4 * k, [s.cellKey gx gy (t.colFirst + k / (32 * t.depth)) (k % 32)],
      32 * (t.caseBase + k % (32 * t.depth) / 32))
  else if t.mode = 1 then
    some (t.base + g * 4 * t.stride + 4 * k,
      (List.range 32).map (fun r => s.cellKey gx gy (t.colFirst + k / t.depth) r), t.caseBase + k % t.depth)
  else match (s.slotLoads t g)[k]? with
    | none => none
    | some (n, j) =>
      let im := s.slot n
      let q := t.phases * j + im.phase
      some (0x03400000 + t.buffer * 0x100000 + 4 * (im.stoneWord + j), [s.cellKey gx gy (im.column % 32) (q % 32)],
        32 * (t.caseBase + q / 32))

/-- E raised in the sorts of a list by check code 3, outside any microword (R244). -/
def State.raiseCase (s : State) (keys : List Nat) : State :=
  let r := keys.foldl (fun (x : List (Nat × Nat × Nat) × State) k =>
    let e := x.2.setE k
    (if e.1 then x.1 ++ [(k, 3, 0xFFFF)] else x.1, e.2)) ([], s)
  r.2.raiseE r.1

/-! ### Idle port slots (R228, R231, R232, R278) -/

/-- No routine runs, so both ports of every sort are idle (R279). -/
def State.portsFree (s : State) : Bool := s.seq.cur.isNone

/-- A case word read with a correctable error: the corrected word waits for an idle write slot, or is rewritten at once where
the ports are `free` (R228). -/
def SortSt.readWeak (m : SortSt) (free : Bool) (k : Nat) : SortSt :=
  if !m.weak.contains k then m
  else if free then { m with weak := m.weak.filter (· != k), fixes := m.fixes.filter (· != k) }
  else { m with fixes := if m.fixes.contains k then m.fixes else m.fixes ++ [k] }

/-- Case word k read in the sorts of a list, outside any microword: a correctable error is corrected and counted, an
uncorrectable one sets E (R228, R229). -/
def State.caseRead (s : State) (keys : List Nat) (k : Nat) : State :=
  let s1 := keys.foldl (fun s key =>
    let m := s.sort key
    if m.weak.contains k then (s.setSort key (m.readWeak s.portsFree k)).caseCorrected (key / 65536) 1 else s) s
  s1.raiseCase (keys.filter fun key => (s1.sort key).bad.contains k)

/-- Masked bits stored in a case word: the other bits stay, and the check bits are fresh (R227). -/
def SortSt.storeWord (m : SortSt) (k v mask : Nat) : SortSt :=
  let old := m.word k
  { m with mem := SMap.set 0 m.mem k (maskOf 32 fun j => if bit mask j then bit v j else bit old j)
           bad := m.bad.filter (· != k), weak := m.weak.filter (· != k), fixes := m.fixes.filter (· != k) }

/-- An idle write slot in one sort: a full latch commits, else the oldest corrected word is rewritten (R228, R278). -/
def SortSt.writeSlot (m : SortSt) : SortSt :=
  if m.latchFull then { m.storeWord m.latchWord m.latch m.latchMask with latchFull := false, latchMask := 0, latchBad := false }
  else match m.fixes with
    | k :: ks => { m with weak := m.weak.filter (· != k), fixes := ks }
    | [] => m

/-- An idle write slot in every sort: a latch that took a bad Stone word, or part of a case word that is bad, sets E as it
commits (R227, R926). -/
def State.writeSlot (s : State) : State :=
  let inbound := match s.forme.io with
    | some t => t.inbound
    | none => false
  let ready := s.forme.sorts.filter fun x => (x.2.latchFull && inbound) || !x.2.fixes.isEmpty
  let bad := ready.filter fun x => x.2.latchFull &&
    (x.2.latchBad || (x.2.latchMask != 0xFFFFFFFF && x.2.bad.contains x.2.latchWord))
  (ready.foldl (fun s x => s.setSort x.1 x.2.writeSlot) s).raiseCase (bad.map (·.1))

/-- A scrub read of the due word in every sort, spares included, of rows that are awake; a retired galley is powered off
(R231, R233, R262). -/
def State.scrubRead (s : State) : State :=
  let a := s.forme.scrubAddr
  let keys := (s.forme.sorts.map (·.1)).filter fun key =>
    !(s.asleep (36 + key / 65536)) && key / 2048 % 32 != s.retiredGalley (key / 65536)
  let weak := keys.any fun key => (s.sort key).weak.contains a
  let s1 := (s.caseRead keys a).onForme fun f =>
    { f with scrubAddr := (a + 1) % 512, scrubDue := false, scrubFix := if weak && !s.portsFree then some a else f.scrubFix }
  if a = 511 then s1.count pgFORME FORME_SCRUB_PASSES else s1

/-- The scrub rewrite that waits is done in every sort (R232). -/
def State.scrubRewrite (s : State) : State :=
  match s.forme.scrubFix with
  | none => s
  | some a => s.onForme fun f =>
      { f with scrubFix := none
               sorts := SMap.mapVals SortSt.reset (fun _ m =>
                 if m.fixes.contains a then { m with weak := m.weak.filter (· != a), fixes := m.fixes.filter (· != a) } else m) f.sorts }

/-- A scrub rewrite still waits in some sort. -/
def State.scrubWaits (s : State) : Bool :=
  match s.forme.scrubFix with
  | none => false
  | some a => s.forme.sorts.any fun x => x.2.fixes.contains a

/-! ### Words on their way (R273, R278, R279, R926, R927) -/

/-- The words from k on that a port moves as one turn of its latches: the 32 words of a column and case word in WORD mode, the
planes of a column that lie in one case word in PLANE mode (R273, R274). -/
def Transfer.turn (t : Transfer) (k : Nat) : Nat × Nat :=
  if t.mode = 0 then (k / 32, 0) else if t.mode = 1 then (k / t.depth, (t.caseBase + k % t.depth) / 32) else (k, 0)

/-- The sorts that word k of the transfer touches, over all galleys. -/
def State.wordSorts (s : State) (t : Transfer) (k : Nat) : List Nat :=
  (List.range (16 * s.rows)).flatMap fun g => match s.transferWord t g k with
    | some (_, keys, _) => keys
    | none => []

/-- One Stone word arrives in the latches of its sorts: the word of one sort, or one bit in each of 32, which gather until the
case word's last plane (R273, R274, R926). The words of a SLOT load are checked one by one against the galley I/O region
registers (R271); those of the other modes were checked as a whole (R336). -/
def State.latchIn (s : State) (t : Transfer) (k a : Nat) (keys : List Nat) (ca : Nat) : State :=
  let w := s.numAt a 4
  let r := if t.mode = 2 then s.read 10 a 4 else s.readRaw 10 a 4
  let plane := decide (t.mode = 1)
  let last := !plane || ca % 32 == 31 || k % t.depth + 1 == t.depth
  let bad := decide (r.1 = .uncorr)
  if r.1 = .refused then r.2
  else (keys.zipIdx).foldl (fun s x =>
    let m := s.sort x.1
    s.setSort x.1 { m with
      latch := if plane then setBit (if m.latchMask = 0 then 0 else m.latch) (ca % 32) (bit w x.2) else w
      latchMask := if plane then setBit m.latchMask (ca % 32) true else 0xFFFFFFFF
      latchWord := ca / 32, latchFull := last, latchBad := m.latchBad || bad }) r.2

/-- The latches of a turn of an outbound transfer fill from case memory; a bad word is delivered as stored and sets E (R229,
R273, R278). -/
def State.latchFill (s : State) (t : Transfer) : State :=
  let k := t.moved
  (List.range (s.transferWords t - k)).foldl (fun s j =>
    if t.turn (k + j) ≠ t.turn k then s
    else (List.range (16 * s.rows)).foldl (fun s g =>
      match s.transferWord t g (k + j) with
      | none => s
      | some (_, keys, ca) =>
        let s1 := if j = 0 ∨ t.mode = 0 then s.caseRead keys (ca / 32) else s
        keys.foldl (fun s key => let m := s.sort key; s.setSort key { m with latch := m.word (ca / 32), latchWord := ca / 32 }) s1) s) s

/-- One word leaves its latches for Stone. -/
def State.latchOut (s : State) (t : Transfer) (a : Nat) (keys : List Nat) (ca : Nat) : State :=
  let w := if t.mode = 1 then (List.range keys.length).foldl (fun n k => n + b2n (bit (s.sort (keys.getD k 0)).latch (ca % 32)) * 2 ^ k) 0
    else (s.sort (keys.getD 0 0)).latch
  (s.writeRaw 10 a (bytesLE 4 w)).2

/-- Word k of every galley's port (R927). -/
def State.moveWord (s : State) (t : Transfer) (k : Nat) : State :=
  (List.range (16 * s.rows)).foldl (fun s g =>
    match s.transferWord t g k with
    | none => s
    | some (a, keys, ca) => if t.inbound then s.latchIn t k a keys ca else s.latchOut t a keys ca) s

/-- The ports can move the next word: inbound its latches are empty, outbound they have filled (R278). -/
def State.portReady (s : State) (t : Transfer) : Bool :=
  decide (t.moved < s.transferWords t) &&
  (if t.inbound then (s.wordSorts t t.moved).all fun key => !(s.sort key).latchFull else decide (t.moved < t.filled))

/-- An idle read slot: the latches of the next turn of an outbound transfer fill, else a due scrub read is done (R231,
R278). -/
def State.readSlot (s : State) : State :=
  match s.forme.io with
  | some t =>
    if !t.inbound && decide (t.filled ≤ t.moved) && decide (t.moved < s.transferWords t) then
      let n := ((List.range (s.transferWords t - t.moved)).takeWhile fun j => decide (t.turn (t.moved + j) = t.turn t.moved)).length
      (s.latchFill t).onForme fun f => { f with io := some { t with filled := t.moved + n } }
    else if s.forme.scrubDue then s.scrubRead else s
  | none => if s.forme.scrubDue then s.scrubRead else s

/-- Galley I/O done where every port has moved its last word and every latch has committed (R280). -/
def State.ioSettle (s : State) : State :=
  match s.forme.io with
  | none => s
  | some t => if s.transferWords t ≤ t.moved && !(t.inbound && s.forme.sorts.any (·.2.latchFull)) then
      s.onForme fun f => { f with io := none } else s

/-- Up to n words that the ports can move, one after another; with `free` the sorts' ports are idle all the while, so that
every latch commits or fills as soon as it may (R278, R279). -/
def State.moveWords (s : State) (free : Bool) : Nat → State
  | 0 => s
  | n + 1 =>
    let s1 := if free then s.writeSlot.readSlot else s
    match s1.forme.io with
    | none => s1
    | some t =>
      if s1.portReady t then
        ((s1.moveWord t t.moved).onForme fun f => { f with io := some { t with moved := t.moved + 1 } }).moveWords free n
      else s1

/-- The transfer goes on: how many words its ports have moved by now is open (R279, R927), so a free number of those they
could (notes/assumptions/17.md). -/
def State.ioProgress (s : State) (free : Bool) : State :=
  match s.forme.io with
  | none => s
  | some t =>
    let r := s.takeFree
    let s1 := r.2.moveWords free (min (Config.freeWord r.1).toNat (r.2.transferWords t - t.moved))
    (if free then s1.writeSlot else s1).ioSettle

/-- Time passes for a transfer between the commands of other masters (R927): while no routine runs its latches commit. -/
def State.ioTouch (s : State) : State := s.ioProgress s.portsFree

/-- The transfer's remaining words moved and every latch committed: galley I/O done (R280). -/
def State.ioFinish (s : State) : State :=
  match s.forme.io with
  | none => s
  | some t => ((s.moveWords true (s.transferWords t - t.moved)).writeSlot).onForme fun f => { f with io := none }

/-- The ports of every sort stand idle while no routine runs: corrected words and a due scrub read are done (R228, R231). -/
def State.portsIdle (s : State) : State :=
  let s1 := s.onForme fun f =>
    { f with scrubFix := none
             sorts := SMap.mapVals SortSt.reset (fun _ m =>
               { m with weak := m.weak.filter (fun k => !m.fixes.contains k), fixes := [] }) f.sorts }
  (if s1.forme.scrubDue then s1.scrubRead else s1).onSeq fun q => { q with news := [], ridle := 0, widle := 0 }

/-- A SLOT load's slots that lose a sample to R276, each counted once. -/
def State.truncated (s : State) (t : Transfer) : Nat :=
  (s.validSlots.filter fun k => let im := s.slot k
    im.stone && decide (im.column / 32 < 16 * s.rows) &&
    (decide (t.phases ≤ im.phase) ||
     decide (0 < im.block ∧ 511 < t.caseBase + (t.phases * (im.block - 1) + im.phase) / 32))).length

/-- A transfer that passed its checks starts, or is refused as in R52 (R336, R276). -/
def State.ioStart (s : State) (t : Transfer) : State :=
  let go := fun (s : State) => s.onForme fun f => { f with io := some t }
  if t.mode = 2 then
    let n := s.truncated t
    let s1 := if n = 0 then s else (s.count pgFORME FORME_IO_TRUNC n).event pgFORME 3
    go s1
  else if s.rows = 0 then go s
  else
    let len := s.transferLen t
    match s.outsideStone t.base len with
    | some a => s.refuseAddress 10 a (!t.inbound)
    | none => if s.regionOk 10 t.base len (!t.inbound) then go s else s.refuseRegion 10 t.base (!t.inbound)

end Sys2Proof.Machine
end

