-- ==== Sys2Proof/Machine/Memory.lean ====
section
/-!
DEFINITION. The commands of Stone and Reel memory: bank arbitration, scrub, corrections, refresh, retraining, and the
region registers (spec/09, R519 to R554, R564 to R571).
-/
namespace Sys2Proof.Machine

/-! ## Stone banks -/

/-- Answer a read result to its master. -/
def State.answerRead (m : Nat) (r : ReadResult × State) : State :=
  match r.1 with
  | .ok bs => r.2.emit (.memory m true bs)
  | _ => r.2.emit (.memory m false [])

/-- Answer a write result to its master. -/
def State.answerWrite (m : Nat) (r : WriteResult × State) : State :=
  r.2.emit (.memory m (r.1 == .ok) [])

/-- One access of a master to memory: webs and galley I/O were checked against their regions at the start of the chain or
transfer, every other master is checked here (R529). -/
def State.access (s : State) (q : ReelReq) : State :=
  let pre := 2 ≤ q.master ∧ q.master ≤ 10
  match q.data with
  | none => State.answerRead q.master (if pre then s.readRaw q.master q.addr q.len else s.read q.master q.addr q.len)
  | some bs => State.answerWrite q.master (if pre then s.writeRaw q.master q.addr bs else s.write q.master q.addr bs)

/-- The owner claims of a bank: its owner, and both log ports on bank 30 (R525). -/
def State.owns (s : State) (b m : Nat) : Bool :=
  s.bankOwner b == m || (s.bankOwner b == 15 && m == 16)

/-- Round robin by master ID after the master last granted: how far after it a master comes (R526). -/
def roundDistance (last m : Nat) : Nat := (m + 31 - last % 32) % 32

/-- The claim a bank grants among masters other than processors and owner: the nearest after the last (R526). -/
def nearest (last : Nat) : List ReelReq → Option ReelReq
  | [] => none
  | q :: qs => match nearest last qs with
    | none => some q
    | some r => some (if roundDistance last q.master ≤ roundDistance last r.master then q else r)

/-- The claimants of a bank, first to last (R526); claims of one master stand in the order it issued them (R528). -/
inductive Grant where
  | master (q : ReelReq)
  | scrub
  | rewrite (w : Nat)
  | idle
deriving DecidableEq, Repr

/-- The lowest bank line the pass has read in every bank: STONE_SCRUB_STATUS.POS (R565). -/
def State.scrubPos (s : State) : Nat :=
  ((List.range 32).filter (fun b => s.bankOwner b != 31)).foldl (fun n b => min n (SMap.get 0 s.mem.scrubRead b)) 32768

/-- The grant of R526. -/
def State.grant (s : State) (b : Nat) (claims : List ReelReq) : Grant :=
  let cs := claims.filter fun q => decide (q.addr / 2 ^ 21 = b)
  match cs.find? (·.master == 0) with
  | some q => .master q
  | none => match cs.find? (·.master == 1) with
    | some q => .master q
    | none =>
      if 0 < SMap.get 0 s.mem.scrubOver b then .scrub
      else match cs.find? (s.owns b ·.master) with
        | some q => .master q
        | none => match nearest (SMap.get 0 s.mem.lastGrant b + 31) cs with
          | some q => .master q
          | none =>
            match s.mem.stoneRewrites.find? (fun w => decide (w / 2 ^ 21 = b)) with
            | some w => .rewrite w
            | none => if 0 < SMap.get 0 s.mem.scrubDue b then .scrub else .idle

/-- A queued correction is rewritten: the word is sound again (R521, R540). -/
def State.rewriteWord (s : State) (w : Nat) : State := s.clearWord w

/-- A scrub read of the next line of a bank: errors are reported as a foreground read reports them, with the scrub bit
(R551, R552). A pass that every bank has completed is counted, late when it took more than 2 s (R551). -/
def State.scrubLine (s : State) (b : Nat) : State :=
  let line := SMap.get 0 s.mem.scrubRead b
  let late := SMap.get 0 s.mem.scrubOver b
  let s1 := (s.readWords 31 true (wordsTouched (b * 2 ^ 21 + line * 64) 64)).2
  let s2 := s1.onMem fun m => { m with
    scrubRead := SMap.set 0 m.scrubRead b (line + 1)
    scrubDue := SMap.set 0 m.scrubDue b (SMap.get 0 m.scrubDue b - 1)
    scrubOver := SMap.set 0 m.scrubOver b (late - 1) }
  let s3 := s2.put pgSTONE STONE_SCRUB_STATUS_LATE (b2n (!s2.mem.scrubOver.isEmpty))
  let pos := s3.scrubPos
  if pos < 32768 then s3.put pgSTONE STONE_SCRUB_STATUS_POS pos
  else
    let s4 := (s3.put pgSTONE STONE_SCRUB_STATUS_POS 0).count pgSTONE STONE_SCRUB_PASSES
    let late := decide (s4.mem.scrubStart + 2000000000 < s4.mono)
    let s5 := s4.onMem fun m => { m with scrubRead := [], scrubStart := s4.mono }
    if late then (s5.count pgSTONE STONE_SCRUB_LATE).event pgSTONE 4 else s5

/-- STONE_ACCESS (R526, R528): a bank grants one access of those that claim it in this Nc cycle. -/
def execStoneAccess (b : Nat) (claims : List ReelReq) (t : Nat) (s : State) : Result :=
  let s := s.advance t
  match s.grant b claims with
  | .master q =>
    .next ((s.ioTouch.onMem fun m => { m with lastGrant := SMap.set 0 m.lastGrant b (q.master + 1) }).access q)
  | .scrub => .next (s.scrubLine b)
  | .rewrite w => .next (s.rewriteWord w)
  | .idle => .next s

/-- STONE_CORRECTION_REWRITE (R521, R553): the corrected word is rewritten, unless a write to it came first and dropped
the rewrite. -/
def execStoneCorrectionRewrite (w : Nat) (s : State) : Result :=
  if w ∈ s.mem.stoneRewrites ∧ w < reelBase then .next (s.rewriteWord w) else .next s

/-- STONE_SCRUB_DUE (R551): one line of each bank in service falls due; scrub pauses while the Stone domain sleeps. -/
def execStoneScrubDue (t : Nat) (s : State) : Result :=
  let s := s.advance t
  if s.asleep 2 then .next s
  else
    let due := (List.range 32).foldl (fun (m : SMap Nat) b =>
      if s.bankOwner b = 31 ∨ 32768 ≤ SMap.get 0 s.mem.scrubRead b + SMap.get 0 m b then m
      else SMap.set 0 m b (SMap.get 0 m b + 1)) s.mem.scrubDue
    .next (s.onMem fun m => { m with scrubDue := due })

/-- STONE_SCRUB_OVERDUE (R551): a due read of the bank has waited 1 ms. -/
def execStoneScrubOverdue (b : Nat) (s : State) : Result :=
  let late := SMap.get 0 s.mem.scrubOver b
  if late < SMap.get 0 s.mem.scrubDue b then
    .next ((s.onMem fun m => { m with scrubOver := SMap.set 0 m.scrubOver b (late + 1) }).put pgSTONE
      STONE_SCRUB_STATUS_LATE 1)
  else .next s

/-! ## Reel memory -/

/-- The codeword times of an access: one for each codeword read or written whole, two for a merge (R539). -/
def codewordTimes (a len : Nat) (write : Bool) : Nat :=
  (wordsTouched a len).length + (if write then (wordsMerged a len).length else 0)

/-- The stack of a Reel access serves no access now: its retrain window is open (R545). -/
def State.stackBusy (s : State) (a : Nat) : Bool := s.on (pgREEL (s.stackOf a)) REEL_STATUS_RETRAINING

/-- A Reel request served: metered against its master's tokens, then done (R538, R562). -/
def State.reelServe (s : State) (q : ReelReq) : State :=
  let n := codewordTimes q.addr (match q.data with | some bs => bs.length | none => q.len) q.data.isSome
  (s.meter q.master n).2.access q

/-- The physical stack and the pseudo-channel of a Reel address, as one number (R514). -/
def State.channelOf (s : State) (a : Nat) : Nat := s.stackOf a * 32 + (reelPlace (max 1 s.stacks.length) a).2.1

/-- The request finds enough tokens: it is guaranteed (R562). -/
def State.guaranteed (s : State) (q : ReelReq) : Bool :=
  (s.meter q.master (codewordTimes q.addr (match q.data with | some bs => bs.length | none => q.len) q.data.isSome)).1

/-- The request a pseudo-channel takes of those that claim it: a guaranteed one, in order of arrival, else a best-effort one in
round robin by master ID (R547). -/
def State.reelGrant (s : State) (cs : List ReelReq) : Option ReelReq :=
  match cs.find? s.guaranteed with
  | some q => some q
  | none => match cs with
    | [] => none
    | q :: _ => nearest (SMap.get 0 s.mem.lastReel (s.channelOf q.addr) + 31) cs

/-- REEL_ACCESS (R538 to R540, R545, R547, R562): the pseudo-channel of the first claim takes one of its claims; claims that
meet an open retrain window wait. -/
def execReelAccess (claims : List ReelReq) (t : Nat) (s : State) : Result :=
  let s := s.advance t
  match claims with
  | [] => .next s
  | q :: _ =>
    let cs := claims.filter fun r => s.channelOf r.addr == s.channelOf q.addr
    if reelBase ≤ q.addr ∧ s.stackBusy q.addr then .next (s.onMem fun m => { m with reelWait := m.reelWait ++ cs })
    else match s.reelGrant cs with
      | none => .next s
      | some r =>
        .next ((s.onMem fun m => { m with lastReel := SMap.set 0 m.lastReel (s.channelOf q.addr) (r.master + 1) }).reelServe r)

/-- REEL_CORRECTION_REWRITE (R540, R553). -/
def execReelCorrectionRewrite (w : Nat) (s : State) : Result :=
  if w ∈ s.mem.reelRewrites ∧ reelBase ≤ w then .next (s.rewriteWord w) else .next s

/-- REEL_REFRESH (R542 to R544): an interval ends; a band change that a reading asked for takes effect. -/
def execReelRefresh (k : Nat) (s : State) : Result :=
  match SMap.get 0 s.mem.nextBand k with
  | 0 => .next s
  | b + 1 =>
    let s1 := s.onMem fun m => { m with nextBand := SMap.set 0 m.nextBand k 0 }
    .next (((s1.put (pgREEL k) REEL_STATUS_BAND b).count (pgREEL k) REEL_BAND_CHANGES).event (pgREEL k) 1)

/-- The refresh band of a temperature in °C (R542). -/
def bandOf (c : Int) : Nat := if c ≤ 85 then 0 else if c ≤ 105 then 1 else 2

/-- The upper limit of a band in °C (R542). -/
def bandLimit (b : Nat) : Int := if b = 0 then 85 else 105

/-- REEL_TEMP_READING (R542, R543): the first reading above the band's limit asks for the higher band; 100 consecutive
readings at or below 3 °C under the lower band's limit ask for the lower. -/
def execReelTempReading (k : Nat) (temp : BitVec 8) (s : State) : Result :=
  let c := temp.toInt
  let s1 := s.put (pgREEL k) REEL_STATUS_TEMP_C temp.toNat
  let cur := s1.get (pgREEL k) REEL_STATUS_BAND
  let setMem := fun (low next : Nat) => s1.onMem fun m =>
    { m with lowReadings := SMap.set 0 m.lowReadings k low, nextBand := SMap.set 0 m.nextBand k next }
  if cur < bandOf c then .next (setMem 0 (bandOf c + 1))
  else if 0 < cur ∧ c ≤ bandLimit (cur - 1) - 3 then
    let n := SMap.get 0 s1.mem.lowReadings k + 1
    if 100 ≤ n then .next (setMem 0 cur) else .next (setMem n (SMap.get 0 s1.mem.nextBand k))
  else .next (setMem 0 0)

/-- A retrain window opens (R545). -/
def State.openRetrain (s : State) (k : Nat) : State :=
  ((s.onMem fun m => { m with retrainDue := SMap.set false m.retrainDue k false
                              lastRetrain := SMap.set 0 m.lastRetrain k s.mono }).put (pgREEL k)
    REEL_STATUS_RETRAINING 1).count (pgREEL k) REEL_RETRAINS

/-- No retrain window is open. -/
def State.noRetrain (s : State) : Bool := (List.range 4).all fun k => !s.on (pgREEL k) REEL_STATUS_RETRAINING

/-- The calibration slot of a stack has begun: OFFSET_NS after the tick, or at the tick where that is no less than the period
(R546). -/
def State.slotBegun (s : State) (k : Nat) : Bool :=
  let off := s.get (pgREEL k) REEL_CAL_OFFSET_OFFSET_NS
  decide (s.sp.tickAt + (if off < s.period then off else 0) ≤ s.mono)

/-- The first stack in service whose retrain is due and whose slot of this impression it has not used. -/
def State.nextRetrain (s : State) : Option Nat :=
  firstBelow 4 fun k => s.on (pgREEL k) REEL_STATUS_IN_SERVICE && SMap.get false s.mem.retrainDue k && s.slotBegun k &&
    SMap.get 0 s.mem.calTaken k != s.sp.tickAt + 1

/-- In the calibration slot the next due stack retrains; with none due the slot ends (R546). -/
def State.calNext (s : State) : State :=
  match s.nextRetrain with
  | some k => (s.onMem fun m => { m with calTaken := SMap.set 0 m.calTaken k (s.sp.tickAt + 1) }).openRetrain k
  | none => s.onMem fun m => { m with calSlot := false }

/-- REEL_RETRAIN_DUE (R545, R546): RETRAIN_MS have passed since the stack's last window, so its retrain is due; with no standing
program running the window opens at once. -/
def execReelRetrainDue (k t : Nat) (s : State) : Result :=
  let s := s.advance t
  if s.on (pgREEL k) REEL_STATUS_IN_SERVICE = false ∨ s.on (pgREEL k) REEL_STATUS_RETRAINING = true ∨
      s.mono < SMap.get 0 s.mem.lastRetrain k + s.get (pgREEL k) REEL_CFG_RETRAIN_MS * 1000000 then .next s
  else if s.running then .next (s.onMem fun m => { m with retrainDue := SMap.set false m.retrainDue k true })
  else .next (s.openRetrain k)

/-- REEL_CAL_SLOT (R546): the slot opens after the tick and each due stack retrains in turn, lowest first. -/
def execReelCalSlot (t : Nat) (s : State) : Result :=
  let s := s.advance t
  if s.running ∧ s.noRetrain then .next (s.onMem fun m => { m with calSlot := true }).calNext else .next s

/-- REEL_RETRAIN_END (R545, R546): the window closes, the requests that waited for the stack proceed in order of arrival,
and the next due stack of the slot retrains. -/
def execReelRetrainEnd (k t : Nat) (s : State) : Result :=
  let s := s.advance t
  if s.on (pgREEL k) REEL_STATUS_RETRAINING then
    let s1 := s.put (pgREEL k) REEL_STATUS_RETRAINING 0
    let mine := s1.mem.reelWait.filter fun q => decide (s1.stackOf q.addr = k)
    let rest := s1.mem.reelWait.filter fun q => decide (s1.stackOf q.addr ≠ k)
    let s2 := mine.foldl State.reelServe (s1.onMem fun m => { m with reelWait := rest })
    .next (if s2.mem.calSlot then s2.calNext else s2)
  else .next s

/-- Hours of the patrol pass in progress (R548); a new value of SCRUB_H applies from the next pass (R569). -/
def State.passHours (s : State) (k : Nat) : Nat := SMap.get 24 s.mem.passHours k

/-- Patrol scrub is behind its pace: its position is below ⌊2^28 × t / (SCRUB_H × 3,600 s)⌋ (R548). Falling behind raises
SCRUB_BEHIND. -/
def State.patrolPace (s : State) (k : Nat) : State :=
  let el := s.mono - SMap.get 0 s.mem.passStart k
  let behind := decide (s.get (pgREEL k) REEL_SCRUB_POS_POS < 2 ^ 28 * el / (s.passHours k * 3600000000000))
  let was := s.on (pgREEL k) REEL_STATUS_SCRUB_BEHIND
  let s1 := s.put (pgREEL k) REEL_STATUS_SCRUB_BEHIND (b2n behind)
  if behind && !was then s1.event (pgREEL k) 3 else s1

/-- REEL_PATROL_SCRUB (R548 to R550, R552): the codeword the pass reaches next, at device address `a`, is read and checked
(the specification does not tie a position in the pass to an address); at the end of a pass the next starts. Scrub pauses
in self-refresh and while a retrain window is open. -/
def execReelPatrolScrub (k a t : Nat) (s : State) : Result :=
  let s := s.advance t
  if s.on (pgREEL k) REEL_STATUS_SELF_REFRESH = true ∨ s.on (pgREEL k) REEL_STATUS_RETRAINING = true ∨
      s.on (pgREEL k) REEL_STATUS_IN_SERVICE = false then .next s
  else
    let w := a / 64 * 64
    let s1 := (s.readWords 31 true [w]).2
    let pos := s1.get (pgREEL k) REEL_SCRUB_POS_POS + 1
    if pos < 2 ^ 28 then .next ((s1.put (pgREEL k) REEL_SCRUB_POS_POS pos).patrolPace k)
    else
      let s2 := (s1.put (pgREEL k) REEL_SCRUB_POS_POS 0).count (pgREEL k) REEL_SCRUB_PASSES
      let h := s2.get (pgREEL k) REEL_CFG_SCRUB_H
      .next ((s2.onMem fun m => { m with passStart := SMap.set 0 m.passStart k s2.mono,
                                         passHours := SMap.set 24 m.passHours k h }).patrolPace k)

/-- REEL_STACK_LOST (R564, R663, R664): the stack leaves service; STACK_LOST, detail the physical stack. -/
def execReelStackLost (k : Nat) (s : State) : Result :=
  if s.on (pgREEL k) REEL_STATUS_IN_SERVICE then
    let s1 := (s.put (pgREEL k) REEL_STATUS_IN_SERVICE 0).put (pgREEL k) PAGE_STATUS_IN_SERVICE 0
    .next ((s1.onMem fun m => { m with stackLost := SMap.set false m.stackLost k true }).report (pgREEL k) (0x036 + k)
      19 0 k)
  else .next s

/-! ## Region registers (R534, R535, R567) -/

/-- The selected region's index in the region registers. -/
def State.selRegion (s : State) : Nat × Nat :=
  (s.get pgSTONE STONE_REGION_SEL_MASTER, s.get pgSTONE STONE_REGION_SEL_REGION)

/-- A region set, in force for every access checked from now on (R535). -/
def State.setRegion (s : State) (m r : Nat) (g : Region) : State :=
  s.onMem fun x => { x with regions := SMap.set (regionReset (m * 16 + r)) x.regions (m * 16 + r) g }

/-- The staging registers loaded from the selected region in force (R567). -/
def State.stageRegion (s : State) : State :=
  let (m, r) := s.selRegion
  let g := s.region m r
  let s1 := (s.put pgSTONE STONE_REGION_BASE_LO_BASE_LO (g.base / 256)).put pgSTONE STONE_REGION_BASE_HI_BASE_HI (g.base / 2 ^ 32)
  let s2 := (s1.put pgSTONE STONE_REGION_SIZE_SIZE g.size).put pgSTONE STONE_REGION_RIGHTS_WHOLE (b2n g.whole)
  (s2.put pgSTONE STONE_REGION_RIGHTS_W (b2n g.w)).put pgSTONE STONE_REGION_RIGHTS_R (b2n g.r)

/-- The region the staging registers and a RIGHTS value make. -/
def State.stagedRegion (s : State) (v : Nat) : Region :=
  { base := s.get pgSTONE STONE_REGION_BASE_LO_BASE_LO * 256 + s.get pgSTONE STONE_REGION_BASE_HI_BASE_HI * 2 ^ 32
    size := s.get pgSTONE STONE_REGION_SIZE_SIZE
    r := bit v 0, w := bit v 1, whole := bit v 2 }

/-- A region reaches past the 48-bit space (R567). -/
def Region.tooHigh (g : Region) : Bool := !g.whole && decide (2 ^ 48 < g.base + 256 * g.size)

/-- REGION_RIGHTS_WRITE (R534, R567): the four staged values are applied as one change; only the Colophon writes. -/
def execRegionRightsWrite (m : Nat) (v : W32) (s : State) : Result :=
  .next (s.tryWrite m pgSTONE 0x094
    (reasonIf (m != 1) .wrongMaster ++ reasonIf (s.quoined pgSTONE) .quoined ++
     reasonIf (s.stagedRegion v.toNat).tooHigh .address) fun s =>
    let (mm, r) := s.selRegion
    (s.setRegion mm r (s.stagedRegion v.toNat)).stageRegion)

/-- REGION_SELECT (R565, R567): a master ID of 18 to 31 is ignored; else the staged values are those in force. -/
def execRegionSelect (m : Nat) (v : W32) (s : State) : Result :=
  let mm := bits v.toNat 12 8
  .next (s.tryWrite m pgSTONE 0x084 (reasonIf (decide (18 ≤ mm)) .outOfRange) fun s =>
    ((s.put pgSTONE STONE_REGION_SEL_MASTER mm).put pgSTONE STONE_REGION_SEL_REGION v.toNat).stageRegion)

end Sys2Proof.Machine
end

