-- ==== Sys2Proof/Machine/NocOps.lean ====
section
/-!
DEFINITION. Shared operations of the on-chip network: endpoints, headers, routing, buffers and credits, sequence numbers,
placement of flows (spec/10).
-/
namespace Sys2Proof.Machine

/-! ## Headers (R580, R581) -/

def hDestX (h : Nat) : Nat := bits h 2 0
def hDestY (h : Nat) : Nat := bits h 5 3
def hDestPort (h : Nat) : Nat := bits h 7 6
/-- The destination endpoint ID (R574). -/
def hDest (h : Nat) : Nat := bits h 7 0
def hSource (h : Nat) : Nat := bits h 15 8
def hVn (h : Nat) : Nat := bits h 17 16
def hCommand (h : Nat) : Nat := bits h 23 18
def hLength (h : Nat) : Nat := bits h 28 24
def hTag (h : Nat) : Nat := bits h 38 29
def hSeq (h : Nat) : Nat := bits h 54 39
def hSlotClass (h : Nat) : Nat := bits h 60 55
def hAddress (h : Nat) : Nat := bits h 111 64
def hBytes (h : Nat) : Nat := bits h 121 112

/-- The header with its SEQ set. -/
def withSeq (h seq : Nat) : Nat := setBits h 54 39 seq

/-- The virtual network of a command, none for a reserved code (R581). -/
def commandVn (c : Nat) : Option Nat :=
  if c = 1 ∨ c = 2 ∨ c = 3 then some 0
  else if c = 4 ∨ c = 5 ∨ c = 6 then some 1
  else if c = 7 then some 2
  else if c = 8 ∨ c = 9 then some 3
  else none

/-- A command carries data units. -/
def carriesData (c : Nat) : Bool := c == 2 || c == 3 || c == 4 || c == 7

/-- A command addresses memory: its BYTES are checked. -/
def addresses (c : Nat) : Bool := c == 1 || c == 2 || c == 3 || c == 4 || c == 7

/-- A packet is malformed (R583). -/
def malformed (h : Nat) : Bool :=
  let c := hCommand h
  let off := hAddress h % 32
  match commandVn c with
  | none => true
  | some vn =>
    vn != hVn h ||
    hLength h != (if carriesData c then ceilDiv (off + hBytes h) 32 else 0) ||
    (addresses c && (hBytes h == 0 || decide (512 < off + hBytes h)))

/-! ## Endpoints (R574) -/

/-- The router of an endpoint ID: 8y + x. -/
def epRouter (e : Nat) : Nat := bits e 5 3 * 8 + bits e 2 0

/-- The local port of an endpoint ID. -/
def epPort (e : Nat) : Nat := bits e 7 6

/-- An endpoint ID that R574 lists. -/
def epListed (e : Nat) : Bool :=
  match epPort e with
  | 0 => true
  | 1 => epRouter e == 24 || epRouter e == 25 || epRouter e / 8 == 4
  | 2 => true
  | _ => false

/-- The power domain of an endpoint, none for one that never sleeps by itself. -/
def epDomain (e : Nat) : Option Nat :=
  let x := epRouter e % 8
  let y := epRouter e / 8
  match epPort e with
  | 0 => if y < 4 then some 2 else if y = 4 then some (4 + x) else if y = 5 then some (16 + x)
         else if y = 6 then some (24 + x) else some (12 + x / 2)
  | 1 => if y = 3 then some 0
         else match x with
         | 0 => some 32
         | 1 => some 32
         | 2 => some 33
         | 3 => some 34
         | 4 => some 1
         | 7 => some 35
         | _ => none
  | _ => none

/-- A router is in service. -/
def State.routerUp (s : State) (r : Nat) : Bool := s.on (pgROUTER r) ROUTER_STATUS_IN_SERVICE

/-- An endpoint is in service: its unit is, and its router (R589). -/
def State.epUp (s : State) (e : Nat) : Bool :=
  let x := epRouter e % 8
  let y := epRouter e / 8
  epListed e && s.routerUp (epRouter e) &&
  (if epPort e = 0 then
     (if y < 4 then s.bankOwner (8 * y + x) != 31
      else if y = 4 then s.on (pgWEB x) PAGE_STATUS_IN_SERVICE
      else if y = 5 then s.on (pgFEED x) PAGE_STATUS_IN_SERVICE
      else if y = 6 then s.on (pgFEED (8 + x)) PAGE_STATUS_IN_SERVICE
      else s.on (pgREEL (x / 2)) REEL_STATUS_IN_SERVICE)
   else if epPort e = 1 ∧ (epRouter e = 34 ∨ epRouter e = 35) then s.on (pgLOGPORT (epRouter e - 34)) PAGE_STATUS_IN_SERVICE
   else true)

/-! ## Routing (R584 to R587) -/

/-- The neighbour of a router through a port 0 to 3 (R573). -/
def neighbour (r p : Nat) : Nat :=
  let x := r % 8
  let y := r / 8
  match p with
  | 0 => (y + 7) % 8 * 8 + x
  | 1 => y * 8 + (x + 1) % 8
  | 2 => (y + 1) % 8 * 8 + x
  | _ => y * 8 + (x + 7) % 8

/-- The port a link arrives at: the opposite one. -/
def opposite (p : Nat) : Nat := (p + 2) % 4

/-- The output a packet takes at router r: along its row, then along its column, then the local port. -/
def State.nextOut (s : State) (r h : Nat) : Nat :=
  let x := r % 8
  let y := r / 8
  if x ≠ hDestX h then (if bit (s.get (pgROUTER r) ROUTER_XDIR) (hDestX h) then 3 else 1)
  else if y ≠ hDestY h then (if bit (s.get (pgROUTER r) ROUTER_YDIR) (hDestY h) then 0 else 2)
  else 4 + hDestPort h

/-- The link of an output is its ring's dateline (R587). -/
def dateline (r out : Nat) : Bool :=
  (out == 1 && r % 8 == 7) || (out == 3 && r % 8 == 0) || (out == 2 && r / 8 == 7) || (out == 0 && r / 8 == 0)

/-- The virtual channel after an output: 0 on entering a ring, 1 from its dateline on (R587). -/
def nextVc (r inPort vc out : Nat) : Nat :=
  if 4 ≤ out then 0
  else if dateline r out then 1
  else if inPort < 4 ∧ inPort % 2 = out % 2 then vc else 0

/-- The outputs of a route from an endpoint's router: router and output port at each position, the local port last
(R597). -/
def State.routeFrom (s : State) (dst : Nat) : Nat → Nat → List (Nat × Nat)
  | 0, _ => []
  | fuel + 1, r =>
    let out := s.nextOut r dst
    if 4 ≤ out then [(r, out)] else (r, out) :: s.routeFrom dst fuel (neighbour r out)

/-- A link output is broken: the link is down, or the router beyond is out of service (R589). -/
def State.broken (s : State) (r out : Nat) : Bool :=
  decide (out < 4) && (bit (s.get (pgROUTER r) ROUTER_STATUS_LINK_DOWN) out || !s.routerUp (neighbour r out))

/-! ## Buffers and credits (R590) -/

/-- The key of a virtual channel of a router input. -/
def bkey (r p vn vc : Nat) : Nat := ((r * 8 + p) * 4 + vn) * 2 + vc

/-- Router, port, virtual network and channel of a key. -/
def keyRouter (k : Nat) : Nat := k / 64
def keyPort (k : Nat) : Nat := k / 8 % 8
def keyVn (k : Nat) : Nat := k / 2 % 4
def keyVc (k : Nat) : Nat := k % 2

/-- A unit as it is on a link: its 256 bits, then the sideband: VN, VC, HEAD and TAIL (R576). PRESUMED: the sideband's bits in
the order R576 names them (notes/assumptions/53.md). -/
def NocUnit.wire (u : NocUnit) : Nat :=
  u.data % 2 ^ 256 + 2 ^ 256 * (u.vn % 4 + 4 * (u.vc % 2) + 8 * b2n u.head + 16 * b2n u.tail)

/-- The unit that 261 bits of a link say. -/
def unitOf (x : Nat) : NocUnit :=
  { vn := bits x 257 256, vc := bits x 258 258, head := bit x 259, tail := bit x 260, data := x % 2 ^ 256 }

/-- What arrives of a unit sent with its CRC in bits 276 to 261, when the bits `errors` of it were changed on the link
(R576, R577). -/
def NocUnit.arrives (u : NocUnit) (errors : List Nat) : Nat :=
  (u.wire + 2 ^ 261 * crc16 261 u.wire) ^^^ maskOf 277 (fun k => errors.count k % 2 == 1)

/-- What arrived passes its CRC (R577, R578). -/
def crcPasses (x : Nat) : Bool := crc16 261 (x % 2 ^ 261) == x / 2 ^ 261

def NocSt.buffer (n : NocSt) (k : Nat) : List NocUnit := SMap.get [] n.buffers k
def NocSt.credit (n : NocSt) (k : Nat) : Nat := SMap.get 24 n.credits k
def NocSt.returning (n : NocSt) (k : Nat) : Nat := SMap.get 0 n.back k
def NocSt.onLink (n : NocSt) (l : Nat) : List NocUnit := SMap.get [] n.link l

/-- A unit is put into a buffer. -/
def NocSt.push (n : NocSt) (k : Nat) (u : NocUnit) : NocSt := { n with buffers := SMap.set [] n.buffers k (n.buffer k ++ [u]) }

/-- The first unit of a buffer leaves it; its credit starts back to the sender. -/
def NocSt.pop (n : NocSt) (k : Nat) : NocSt :=
  match n.buffer k with
  | [] => n
  | _ :: us => { n with buffers := SMap.set [] n.buffers k us, back := SMap.set 0 n.back k (n.returning k + 1) }

/-- The units of the packet at the front, up to its TAIL. -/
def frontPacket : List NocUnit → List NocUnit
  | [] => []
  | u :: us => if u.tail then [u] else u :: frontPacket us

/-- The packet at the front of a buffer taken out. -/
def NocSt.popPacket (n : NocSt) (k : Nat) : NocSt :=
  (frontPacket (n.buffer k)).foldl (fun n _ => n.pop k) n

/-- The sum of R591 for a virtual channel of a link: credits, units on the link, units buffered, credits on their way
back. -/
def NocSt.creditSum (n : NocSt) (k : Nat) : Nat :=
  n.credit k + ((n.onLink (k / 8)).filter fun u => u.vn == keyVn k && u.vc == keyVc k).length +
  (n.buffer k).length + n.returning k

/-! ## Probes and trace (R613, R614) -/

/-- A packet matches PROBE_FILTER of a router's page. -/
def State.nocMatch (s : State) (r h : Nat) : Bool :=
  let p := pgROUTER r
  bit (s.get p ROUTER_PROBE_FILTER_VN_MASK) (hVn h) &&
  (!s.on p ROUTER_PROBE_FILTER_SRC_EN || s.get p ROUTER_PROBE_FILTER_SRC == hSource h) &&
  (!s.on p ROUTER_PROBE_FILTER_DST_EN || s.get p ROUTER_PROBE_FILTER_DST == hDest h) &&
  (!s.on p ROUTER_PROBE_FILTER_CMD_EN || s.get p ROUTER_PROBE_FILTER_CMD == hCommand h)

/-- The router's probe counter advanced by d; a wrap sets OVF and raises PROBE_WRAP. -/
def State.nocCount (s : State) (r : Nat) (d : Nat := 1) : State :=
  let p := pgROUTER r
  let n := s.pair p PROBE_CNT_LO PROBE_CNT_HI + d
  if 2 ^ 48 ≤ n then ((s.putPair p PROBE_CNT_LO PROBE_CNT_HI (n % 2 ^ 48)).put p ROUTER_PROBE_SEL_OVF 1).event p 3
  else s.putPair p PROBE_CNT_LO PROBE_CNT_HI n

/-- One trace entry: header bits [63:0] and the Nc counter; the 64th raises TRACE_FULL. -/
def State.nocTrace (s : State) (r h nc : Nat) : State :=
  let p := pgROUTER r
  let n := s.get p ROUTER_TRACE_CTRL_COUNT
  if s.on p ROUTER_PROBE_SEL_TRACE = false ∨ 64 ≤ n then s
  else
    let s1 := (s.put p ROUTER_TRACE_HDR_LO h (n + 1)).put p ROUTER_TRACE_HDR_HI (h / 2 ^ 32) (n + 1)
    let s2 := (s1.put p ROUTER_TRACE_TIME nc (n + 1)).put p ROUTER_TRACE_CTRL_COUNT (n + 1)
    if n + 1 = 64 then s2.event p 4 else s2

/-- Event `ev` of a packet with header h at a port of a router: side 0 output, 1 input; `head` where its header unit passes,
which is when a traced packet is recorded. -/
def State.nocProbe (s : State) (r ev port side h : Nat) (head : Bool) (nc : Nat) : State :=
  let p := pgROUTER r
  let sd := s.get p ROUTER_PROBE_SEL_SIDE
  if s.get p ROUTER_PROBE_SEL_EVENT = ev ∧ s.get p ROUTER_PROBE_SEL_PORT = port ∧ (sd = side ∨ sd = 2) ∧
      (ev = 4 ∨ ev = 5 ∨ ev = 6 ∨ s.nocMatch r h = true) then
    let s1 := s.nocCount r
    if head && (ev == 1 || ev == 2 || ev == 7) then s1.nocTrace r h nc else s1
  else s

/-- A unit of the packet with header h passes a port: events 1 and, for its header unit, 2. -/
def State.unitProbe (s : State) (r port side h : Nat) (u : NocUnit) (nc : Nat) : State :=
  let s1 := s.nocProbe r 1 port side h u.head nc
  if u.head then s1.nocProbe r 2 port side h true nc else s1

/-! ## Packets stopped and answered -/

/-- The sender's next SEQ towards a router on a virtual network (R601). -/
def State.nextSeq (s : State) (ep router vn : Nat) : Nat × State :=
  let k := ep * 256 + router * 4 + vn
  let v := (SMap.get 0 s.noc.seqTx k + 1) % 65536
  (v, s.onNoc fun n => { n with seqTx := SMap.set 0 n.seqTx k v })

/-- The header of an ERROR_RESP to the request with header h, from endpoint ep (R580, R582). -/
def errorHeader (h ep code seq : Nat) : Nat :=
  hSource h + ep * 2 ^ 8 + 1 * 2 ^ 16 + 6 * 2 ^ 18 + hTag h * 2 ^ 29 + seq * 2 ^ 39 + hAddress h * 2 ^ 64 + code * 2 ^ 128

/-- An ERROR_RESP for a request, sent from the register endpoint of router r (R582). -/
def State.errorResp (s : State) (r h code : Nat) : State :=
  let ep := 128 + r
  let (q, s1) := s.nextSeq ep (epRouter (hSource h)) 1
  s1.onNoc fun n => n.push (bkey r 6 1 0) { vn := 1, vc := 0, head := true, tail := true, data := errorHeader h ep code q }

/-- The packet at the front of a buffer goes no further: units still to come are discarded as they arrive. -/
def State.discardFront (s : State) (k : Nat) : State :=
  let whole := (frontPacket (s.noc.buffer k)).any (·.tail)
  s.onNoc fun n =>
    let n1 := n.popPacket k
    { n1 with route := SMap.set none n1.route k none
              leaving := SMap.set 0 n1.leaving k 0
              dropping := if whole then n1.dropping else SMap.set false n1.dropping k true }

/-- A packet refused at router r: a READ or WRITE is answered with ERROR_RESP, any other is discarded with a fault; both
count in ROUTER_DISCARDS (R583, R589). `kind` is PACKET_MALFORMED or UNREACHABLE; a malformed READ or WRITE sends its
fault too. -/
def State.refusePacket (s : State) (r k h code kind detail : Nat) (always : Bool) : State :=
  let s1 := (s.count (pgROUTER r) ROUTER_DISCARDS).discardFront k
  let rw := hCommand h == 1 || hCommand h == 2
  let s2 := if rw then s1.errorResp r h code else s1
  if always || !rw then s2.report (pgROUTER r) (0x080 + r) kind (hAddress h) detail else s2

/-! ## Flows (R596 to R599) -/

/-- The staged flow k. -/
def State.stagedFlow (s : State) (k : Nat) : Flow :=
  { src := s.get pgNOC NOC_FLOW_CFG_SRC (k + 1), dst := s.get pgNOC NOC_FLOW_CFG_DST (k + 1)
    valid := s.on pgNOC NOC_FLOW_CFG_VALID (k + 1), slots := s.get pgNOC NOC_FLOW_CFG_SLOTS (k + 1) }

/-- The outputs of a flow's route. -/
def State.flowRoute (s : State) (f : Flow) : List (Nat × Nat) := s.routeFrom f.dst 17 (epRouter f.src)

/-- A route meets a break (R599 code 3). -/
def State.routeBroken (s : State) (route : List (Nat × Nat)) : Bool :=
  route.any fun x => s.broken x.1 x.2 || !s.routerUp x.1

/-- The slots an output gives away: for each flow placed, slot (s + 4j) mod 128 at position j of its route (R597). -/
def ownedAt (placed : List (List (Nat × Nat) × List Nat)) (o : Nat × Nat) : List Nat :=
  placed.flatMap fun x =>
    (List.range x.1.length).flatMap fun j =>
      if x.1.getD j (0, 0) = o then x.2.map fun v => (v + 4 * j) % 128 else []

/-- The lowest n slots free at every output of a route (R598). -/
def freeSlots (placed : List (List (Nat × Nat) × List Nat)) (route : List (Nat × Nat)) (n : Nat) : List Nat :=
  ((List.range 128).filter fun v =>
    (List.range route.length).all fun j => !((v + 4 * j) % 128 ∈ ownedAt placed (route.getD j (0, 0)))).take n

/-- The placement of flows in increasing order: the slots of each, or the first failing cause with its flow (R598, R599). -/
def State.placeFlow (s : State) : List (Nat × Flow) → List (List (Nat × Nat) × List Nat) → SMap (List Nat) →
    Except (Nat × Nat) (SMap (List Nat))
  | [], _, acc => .ok acc
  | (k, f) :: fs, placed, acc =>
    let route := s.flowRoute f
    let free := freeSlots placed route f.slots
    if free.length < f.slots then .error (4, k)
    else s.placeFlow fs (placed ++ [(route, free)]) (SMap.set [] acc k free)

/-- The flow check (R598, R599): BAD_ENDPOINT, then UNREACHABLE, then placement. -/
def State.checkFlows (s : State) (fs : List (Nat × Flow)) : Except (Nat × Nat) (SMap (List Nat)) :=
  match fs.find? fun x => !s.epUp x.2.src || !s.epUp x.2.dst with
  | some x => .error (2, x.1)
  | none => match fs.find? fun x => s.routeBroken (s.flowRoute x.2) with
    | some x => .error (3, x.1)
    | none => s.placeFlow fs [] []

/-- The staged flows that are valid, rising. -/
def State.stagedFlows (s : State) : List (Nat × Flow) :=
  ((List.range 63).map fun k => (k + 1, s.stagedFlow (k + 1))).filter (·.2.valid)

/-- The flow in force that owns a slot of an output (R597). -/
def State.slotOwner (s : State) (o : Nat × Nat) (slot : Nat) : Option Nat :=
  (s.noc.inForce.flows.find? fun x => x.2.valid && slot ∈
    ownedAt [(s.flowRoute x.2, SMap.get [] s.noc.inForce.placed x.1)] o).map (·.1)

end Sys2Proof.Machine
end

