-- ==== Sys2Proof/Machine/Noc.lean ====
section
/-!
DEFINITION. The commands of the on-chip network (spec/10): units on links, hops, ejection, credits, timeouts and flows.
-/
namespace Sys2Proof.Machine

/-! ## Links (R578, R579, R592) -/

/-- A link marked down in both directions (R579). -/
def State.linkDown (s : State) (r p : Nat) : State :=
  let q := neighbour r p
  let mark := fun (s : State) r p =>
    (s.put (pgROUTER r) ROUTER_STATUS_LINK_DOWN (setBit (s.get (pgROUTER r) ROUTER_STATUS_LINK_DOWN) p true)).event (pgROUTER r) 0
  (mark (mark s r p) q (opposite p)).report (pgROUTER r) (0x080 + r) 25 0 p

/-- The units of a buffer up to the last TAIL: without those of a packet still arriving. -/
def wholePackets (us : List NocUnit) : List NocUnit := us.take (us.length - (us.reverse.takeWhile (!·.tail)).length)

/-- A unit accepted from a link into its buffer; a full buffer is a credit fault, and the unit goes with the rest of its
packet, what waits of it included; the rest of a discarded packet is dropped; the credits of what is discarded return (R590,
R592). -/
def State.acceptUnit (s : State) (r p : Nat) (u : NocUnit) : State :=
  let k := bkey r p u.vn u.vc
  let us := s.noc.buffer k
  if SMap.get false s.noc.dropping k then
    s.onNoc fun n => { n with dropping := SMap.set false n.dropping k (!u.tail), back := SMap.set 0 n.back k (n.returning k + 1) }
  else if 24 ≤ us.length then
    let keep := if u.head then us else wholePackets us
    let s1 := s.onNoc fun n => { n with dropping := SMap.set false n.dropping k (!u.tail), buffers := SMap.set [] n.buffers k keep
                                        back := SMap.set 0 n.back k (n.returning k + (us.length - keep.length)) }
    (s1.count (pgROUTER r) ROUTER_CREDIT_FAULTS).report (pgROUTER r) (0x080 + r) 28 0 (p + u.vn * 8 + u.vc * 32)
  else s.onNoc fun n => n.push k u

/-- LINK_UNIT_RECEIVE (R577 to R579, R613): in Nc cycle `nc` the unit at the head of the replay buffer arrives at port p of
router r, with the bits `errors` of its 277 changed on the link. A unit that fails its CRC stays to be sent again, with
every later one; the eighth failure in a row takes the link down. -/
def execLinkUnitReceive (r p : Nat) (errors : List Nat) (nc : Nat) (s : State) : Result :=
  let r := r % 64
  let p := p % 4
  let l := r * 8 + p
  match s.noc.onLink l with
  | [] => .next s
  | u :: us =>
    if bit (s.get (pgROUTER r) ROUTER_STATUS_LINK_DOWN) p then .next s
    else if crcPasses (u.arrives errors) then
      let v := unitOf (u.arrives errors)
      let k := bkey r p v.vn v.vc
      let h := if v.head then v.data else SMap.get 0 s.noc.arriving k - 1
      let s1 := s.onNoc fun n => { n with link := SMap.set [] n.link l us, crcRun := SMap.set 0 n.crcRun l 0
                                          arriving := SMap.set 0 n.arriving k (if v.tail then 0 else h + 1) }
      .next ((s1.unitProbe r p 1 h v nc).acceptUnit r p v)
    else
      let run := SMap.get 0 s.noc.crcRun l + 1
      let s1 := (s.onNoc fun n => { n with crcRun := SMap.set 0 n.crcRun l run }).count (pgROUTER r) ROUTER_CRC_RETRIES
      let s2 := s1.nocProbe r 6 p 1 0 false nc
      .next (if run = 8 then s2.linkDown r p else s2)

/-- CREDIT_RETURN (R590, R592): a credit of a virtual channel comes back to the link's sender; one above 24 is a credit
fault and the count stays 24. -/
def execCreditReturn (r p vn vc : Nat) (s : State) : Result :=
  let r := r % 64
  let p := p % 8
  let k := bkey r p (vn % 4) (vc % 2)
  let s1 := s.onNoc fun n => { n with back := SMap.set 0 n.back k (n.returning k - 1) }
  let c := s1.noc.credit k
  if c < 24 then .next (s1.onNoc fun n => { n with credits := SMap.set 24 n.credits k (c + 1) })
  else
    let q := if p < 4 then neighbour r p else r
    let out := if p < 4 then opposite p else p
    .next ((s1.count (pgROUTER q) ROUTER_CREDIT_FAULTS).report (pgROUTER q) (0x080 + q) 28 0
      (out + vn % 4 * 8 + vc % 2 * 32))

/-! ## Injection (R601, R602) -/

/-- A packet that an endpoint puts on its way: SEQ is assigned, a READ or WRITE takes its TAG; VN3 packets come from the
blocks' own reports alone (R661). Without credits for it, or with its TAG outstanding or held back, nothing is sent. -/
def State.inject (s : State) (h : Nat) (data : List Nat) (nc : Nat) : State :=
  let ep := hSource h
  let k := bkey (epRouter ep) (4 + epPort ep) (hVn h) 0
  let tk := ep * 1024 + hTag h
  let rw := hCommand h == 1 || hCommand h == 2
  if hVn h = 3 ∨ epListed ep = false ∨ s.noc.credit k < data.length + 1 ∨
      (rw = true ∧ (SMap.get 0 s.noc.outstanding tk ≠ 0 ∨ s.mono < SMap.get 0 s.noc.tagHold tk)) then s
  else
    let (q, s1) := s.nextSeq ep (hDestY h * 8 + hDestX h) (hVn h)
    let unit := fun head tail (v : Nat) => ({ vn := hVn h, vc := 0, head := head, tail := tail, data := v } : NocUnit)
    let us := unit true data.isEmpty (withSeq h q) ::
      (List.range data.length).map fun i => unit false (decide (i + 1 = data.length)) (data.getD i 0)
    let s2 := s1.onNoc fun n =>
      let n1 := us.foldl (fun n u => n.push k u) n
      { n1 with credits := SMap.set 24 n1.credits k (n1.credit k - us.length)
                outstanding := if rw then SMap.set 0 n1.outstanding tk (withSeq h q + 1) else n1.outstanding
                sentAt := if rw then SMap.set 0 n1.sentAt tk s.mono else n1.sentAt }
    (us.foldl (fun s u => s.unitProbe (epRouter ep) (4 + epPort ep) 1 (withSeq h q) u nc) s2).emit (.packet (withSeq h q))

/-! ## Hops (R584, R594) -/

/-- The header of the packet in progress at the front of a buffer whose first unit is a head. -/
def frontHeader (b : List NocUnit) : Option Nat :=
  match b with
  | u :: _ => if u.head then some u.data else none
  | [] => none

/-- The output and channel the front unit of a buffer asks for. -/
def State.frontRoute (s : State) (k : Nat) : Option (Nat × Nat) :=
  match SMap.get none s.noc.route k with
  | some x => if (s.noc.buffer k).isEmpty then none else some x
  | none => match frontHeader (s.noc.buffer k) with
    | some h =>
      let out := s.nextOut (keyRouter k) h
      some (out, nextVc (keyRouter k) (keyPort k) (keyVc k) out)
    | none => none

/-- A front unit is ready for a link output: routed there, a credit held beyond, the replay buffer of 16 not full. -/
def State.ready (s : State) (out k : Nat) : Bool :=
  match s.frontRoute k with
  | some (o, v) =>
    let r := keyRouter k
    let n := neighbour r out
    o == out && decide (0 < s.noc.credit (bkey n (opposite out) (keyVn k) v)) &&
    decide ((s.noc.onLink (n * 8 + opposite out)).length < 16)
  | none => false

/-- The header of the packet whose unit stands at the front of a buffer. -/
def State.packetHeader (s : State) (k : Nat) : Option Nat :=
  match frontHeader (s.noc.buffer k), SMap.get 0 s.noc.leaving k with
  | some h, _ => some h
  | none, n + 1 => some n
  | none, 0 => none

/-- The guaranteed flow in which the packet at the front of a buffer travels (R595). -/
def State.flowOf (s : State) (k : Nat) : Option Nat :=
  match s.packetHeader k with
  | some h =>
    let f := SMap.get Flow.none s.noc.inForce.flows (hSlotClass h)
    if keyVn k = 2 ∧ hSlotClass h ≠ 0 ∧ f.valid = true ∧ f.src = hSource h ∧ f.dst = hDest h then some (hSlotClass h) else none
  | none => none

/-- The input virtual channels of a router. -/
def inputKeys (r : Nat) : List Nat := (List.range 64).map (r * 64 + ·)

/-- The input an output serves in a cycle (R594): the owning flow's unit, a VN3 unit, then the packet in progress of the
turn and the others in round robin. -/
def State.chooseInput (s : State) (r out slot : Nat) : Option Nat :=
  let ks := (inputKeys r).filter (s.ready out)
  match (s.slotOwner (r, out) slot).bind fun f => ks.find? fun k => s.flowOf k == some f with
  | some k => some k
  | none => match ks.find? (keyVn · == 3) with
    | some k => some k
    | none =>
      let last := SMap.get 0 s.noc.lastServed (r * 8 + out)
      match ks.find? fun k => k + 1 == last && (SMap.get none s.noc.route k).isSome with
      | some k => some k
      | none => match ks.find? fun k => decide (last ≤ k) with
        | some k => some k
        | none => ks.head?

/-- A unit leaves input k through a link output. -/
def State.sendUnit (s : State) (r out k nc : Nat) : State :=
  match s.noc.buffer k, s.frontRoute k with
  | u :: _, some (_, v) =>
    let n := neighbour r out
    let k2 := bkey n (opposite out) u.vn v
    let l := n * 8 + opposite out
    let h := (s.packetHeader k).getD 0
    let s1 := s.onNoc fun x =>
      let x1 := x.pop k
      { x1 with credits := SMap.set 24 x1.credits k2 (x1.credit k2 - 1)
                link := SMap.set [] x1.link l (x1.onLink l ++ [{ u with vc := v }])
                route := SMap.set none x1.route k (if u.tail then none else some (out, v))
                leaving := SMap.set 0 x1.leaving k (if u.tail then 0 else h + 1)
                lastServed := SMap.set 0 x1.lastServed (r * 8 + out) (k + 1) }
    s1.unitProbe r out 0 h u nc
  | _, _ => s

/-- An input has a unit for a link output and lacks a credit for it. -/
def State.starved (s : State) (out k : Nat) : Bool :=
  match s.frontRoute k with
  | some (o, v) => o == out && s.noc.credit (bkey (neighbour (keyRouter k) out) (opposite out) (keyVn k) v) == 0
  | none => false

/-- Event 3 of a link output in one Nc cycle: a ready unit of a packet that the filter passes lacks a credit (R613). -/
def State.starveProbe (s : State) (r out nc : Nat) : State :=
  match (inputKeys r).find? fun k => s.starved out k && s.nocMatch r ((s.packetHeader k).getD 0) with
  | some k => s.nocProbe r 3 out 0 ((s.packetHeader k).getD 0) false nc
  | none => s

/-- The packet at the front of a buffer meets a break at its router (R589). -/
def State.stopBroken (s : State) (k : Nat) : State :=
  match frontHeader (s.noc.buffer k) with
  | some h => s.refusePacket (keyRouter k) k h 4 27 (hSource h + hDest h * 256) false
  | none => s

/-- PACKET_HOP (R584, R587, R589, R594): in Nc cycle `nc` a link output of a router sends one unit, chosen by the slot
wheel and the order of R594; `inject` is a packet an endpoint of this router puts on its way first. A packet whose output
is broken stops here. -/
def execPacketHop (r out nc : Nat) (inject : Option (Nat × List Nat)) (s : State) : Result :=
  let r := r % 64
  let out := out % 4
  let s0 := (match inject with
    | some (h, data) => if epRouter (hSource h) = r then s.inject h data nc else s
    | none => s).starveProbe r out nc
  if s0.broken r out then
    .next (((inputKeys r).filter fun k => (s0.frontRoute k).map (·.1) == some out).foldl State.stopBroken s0)
  else match s0.chooseInput r out (nc % 128) with
  | some k =>
    let owner := s0.slotOwner (r, out) (nc % 128)
    let s1 := s0.sendUnit r out k nc
    .next (match owner with
      | some f => s1.nocProbe r (if s0.flowOf k = some f then 4 else 5) out 0 0 false nc
      | none => s1)
  | none => .next s0

/-! ## Ejection (R583, R601 to R605) -/

/-- The SEQ check of the destination router: whether the packet is delivered (R601). -/
def State.checkSeq (s : State) (r h : Nat) : Bool × State :=
  let k := r * 1024 + hSource h * 4 + hVn h
  let d := (hSeq h + 2 * 65536 - SMap.get 0 s.noc.seqRx k - 1) % 65536
  let det := hSource h + hVn h * 256 + hSeq h * 65536
  let keep := s.onNoc fun n => { n with seqRx := SMap.set 0 n.seqRx k (hSeq h) }
  if d = 0 then (true, keep)
  else if d ≤ 32767 then
    (true, ((keep.count (pgROUTER r) ROUTER_SEQ_GAPS).event (pgROUTER r) 1).report (pgROUTER r) (0x080 + r) 29 0 det)
  else
    (false, ((s.count (pgROUTER r) ROUTER_SEQ_OLD).event (pgROUTER r) 1).report (pgROUTER r) (0x080 + r) 30 0 det)

/-- A packet delivered to its endpoint: a response must match an outstanding TAG of its destination (R602, R603). -/
def State.deliverPacket (s : State) (h : Nat) : State :=
  if hVn h = 1 then
    let tk := hDest h * 1024 + hTag h
    if SMap.get 0 s.noc.outstanding tk = 0 then s.count pgNOC NOC_LATE_RESPONSES
    else (s.onNoc fun n => { n with outstanding := SMap.set 0 n.outstanding tk 0 }).emit (.packet h)
  else s.emit (.packet h)

/-- The bits of HOLDING of a router: the local ports some held packet waits for. -/
def State.showHolding (s : State) (r : Nat) : State :=
  let ports := (s.noc.held.filter (keyRouter · == r)).map fun k =>
    match frontHeader (s.noc.buffer k) with
    | some h => hDestPort h
    | none => 0
  s.put (pgROUTER r) ROUTER_STATUS_HOLDING (maskOf 4 (· ∈ ports))

/-- The whole packet at the front of a buffer is ejected at its destination router (R583, R601). -/
def State.eject (s : State) (k nc : Nat) : State :=
  let r := keyRouter k
  match frontHeader (s.noc.buffer k) with
  | none => s
  | some h =>
    if s.nextOut r h < 4 ∨ (frontPacket (s.noc.buffer k)).any (·.tail) = false then s
    else if s.epUp (hDest h) = false then s.stopBroken k
    else if malformed h then s.refusePacket r k h 5 26 (hSource h + hCommand h * 256) true
    else
      let c := s.checkSeq r h
      let s1 := c.2.onNoc fun n => n.popPacket k
      let s2 := (frontPacket (s.noc.buffer k)).foldl (fun s u => s.unitProbe r (4 + hDestPort h) 0 h u nc) s1
      if c.1 then s2.deliverPacket h else s2

/-- READY of an endpoint: its domain is in no sleep state and not on its way into or out of one (R604). -/
def State.epReady (s : State) (e : Nat) : Bool :=
  match epDomain e with
  | some d => !s.asleep d
  | none => true

/-- PACKET_EJECT (R583, R601, R605): in Nc cycle `nc` the packet at the front of an input of its destination router is
checked and delivered; while its endpoint sleeps it is held there, counted once, and the endpoint is woken. -/
def execPacketEject (r p vn vc nc : Nat) (s : State) : Result :=
  let k := bkey (r % 64) (p % 8) (vn % 4) (vc % 2)
  let r := r % 64
  match frontHeader (s.noc.buffer k) with
  | none => .next s
  | some h =>
    if s.nextOut r h < 4 then .next s
    else if s.epUp (hDest h) && !s.epReady (hDest h) then
      let s1 := match epDomain (hDest h) with
        | some d => s.wake d 5
        | none => s
      if k ∈ s1.noc.held then .next s1
      else
        let s2 := (s1.onNoc fun n => { n with held := n.held ++ [k] }).count (pgROUTER r) ROUTER_HELD
        .next ((s2.nocProbe r 7 (4 + hDestPort h) 1 h true nc).showHolding r)
    else .next (s.eject k nc)

/-- The packets held for endpoints that are ready again, ejected in their order of arrival (R605). -/
def State.ejectHeld (s : State) : State :=
  let go := s.noc.held.filter fun k => match frontHeader (s.noc.buffer k) with
    | some h => s.epReady (hDest h)
    | none => true
  let s1 := s.onNoc fun n => { n with held := n.held.filter fun k => !(k ∈ go) }
  let s2 := go.foldl (fun s k => s.eject k s.ncNow) s1
  go.foldl (fun s k => s.showHolding (keyRouter k)) s2

/-- RESP_TIMEOUT (R602): RESP_TIMEOUT_US have passed since a request without a response was sent: it ends as if ERROR_RESP
code 3 had come; its TAG is held back for as long again. -/
def execRespTimeout (ep tag t : Nat) (s : State) : Result :=
  let s := s.advance t
  let ep := ep % 256
  let tk := ep * 1024 + tag % 1024
  let wait := s.get pgNOC NOC_CTRL_RESP_TIMEOUT_US * 1000
  match SMap.get 0 s.noc.outstanding tk with
  | 0 => .next s
  | h + 1 =>
    if s.mono < SMap.get 0 s.noc.sentAt tk + wait then .next s
    else
      let s1 := s.onNoc fun n => { n with outstanding := SMap.set 0 n.outstanding tk 0
                                          tagHold := SMap.set 0 n.tagHold tk (s.mono + wait) }
      let r := epRouter ep
      .next ((((s1.count pgNOC NOC_TIMEOUTS).event pgNOC 3).report (pgROUTER r) (0x080 + r) 31 (hAddress h)
        (ep + tag % 1024 * 256)).emit (.packet (errorHeader h (hDest h) 3 0)))

/-! ## Flow commits (R596, R598, R599) -/

/-- A refused flow commit. -/
def State.flowRefused (s : State) (code flow : Nat) (r : Reason) : State :=
  (((s.put pgNOC NOC_FLOW_STATUS_ERROR code).put pgNOC NOC_FLOW_STATUS_ERR_FLOW flow).event pgNOC 0).ignored pgNOC 0x054 r

/-- FLOW_COMMIT (R596, R598, R599): GO starts the check; only the Colophon writes flow registers, and a commit during a
check fails PENDING. -/
def execFlowCommit (m : Nat) (s : State) : Result :=
  .next (s.tryWrite m pgNOC 0x054 (reasonIf (m != 1) .wrongMaster) fun s =>
    if s.on pgNOC NOC_FLOW_STATUS_CHECKING then s.flowRefused 1 (s.get pgNOC NOC_FLOW_STATUS_ERR_FLOW) .busy
    else (s.onNoc fun n => { n with checking := s.stagedFlows }).put pgNOC NOC_FLOW_STATUS_CHECKING 1)

/-- The flow check in progress ends (R598): it judges the flows as they stood at GO (DESIGN CHOICE, notes/assumptions/51.md). -/
def State.flowCheckEnd (s : State) : State :=
  if s.on pgNOC NOC_FLOW_STATUS_CHECKING then
    let s1 := s.put pgNOC NOC_FLOW_STATUS_CHECKING 0
    let fs := s1.noc.checking
    match s1.checkFlows fs with
    | .ok placed => s1.onNoc fun n => { n with next := some { flows := fs, placed := placed } }
    | .error (c, k) => s1.flowRefused c k .commitRefused
  else s

/-- FLOW_CHECK_DONE (R598, R599). -/
def execFlowCheckDone (s : State) : Result := .next s.flowCheckEnd

/-- FLOW_PLACEMENT_APPLY (R598, R600): at the next slot 0 the new table and placement replace the old in every router. -/
def execFlowPlacementApply (s : State) : Result :=
  match s.noc.next with
  | none => .next s
  | some p => .next ((s.onNoc fun n => { n with inForce := p, next := none }).event pgNOC 1)

end Sys2Proof.Machine
end

