-- ==== Sys2Proof/Machine/SeqOps.lean ====
section
/-!
DEFINITION. The sequencer: checks and refusal, void causes, the discard state, abandoned routines, ends of routines,
Platen results (spec/05 R304 to R331; spec/06 R356, R357, R366 to R395).
-/
namespace Sys2Proof.Machine

/-! ## Void causes and registers -/

/-- An execution is in progress: between its impression entry and the sample of R356. -/
def State.inExecution (s : State) : Bool := s.comp.phase == 1 || s.comp.phase == 2

/-- A void cause of the execution in progress (R357). -/
def State.setVoid (s : State) (k : Nat) : State :=
  if s.inExecution then s.put pgCOMPOSITOR COMP_IMP_STATUS_VOID (setBit (s.get pgCOMPOSITOR COMP_IMP_STATUS_VOID) k true)
  else s

/-- The cores a Platen result reaches (R266): those of the execution, else the pair. -/
def State.pairCores (s : State) : List Nat :=
  if s.comp.cores.isEmpty then [s.get pgCOMPOSITOR COMP_PAIR_FIRST, s.get pgCOMPOSITOR COMP_PAIR_SECOND] else s.comp.cores

/-- A core. -/
def State.core (s : State) (k : Nat) : CoreSt := SMap.get CoreSt.reset s.cores k

/-- The state with a core set. -/
def State.setCore (s : State) (k : Nat) (c : CoreSt) : State := { s with cores := SMap.set CoreSt.reset s.cores k c }

/-- An ordinary-bank general register of the pair written by the Platen or the sequencer; g0 discards (R266, R309). -/
def State.platenWrite (s : State) (r : Nat) (v : Nat) : State :=
  if r = 0 then s
  else s.pairCores.foldl (fun s k => let c := s.core k
    s.setCore k { c with g := SMap.set 0 c.g r (BitVec.ofNat 32 v) }) s

/-! ## Platen instructions (R264, R326 to R331) -/

/-- An opcode is one of FM.PLOR to FM.PLFST. -/
def isPlaten (op : Nat) : Bool := decide (0x030 ≤ op) && decide (op ≤ 0x034)

/-- Some Platen write is still due to a register: queued, running, or in flight. -/
def State.platenDue (s : State) (r : Nat) : Bool :=
  (s.seq.queue.any fun i => isPlaten (fmOp i) && fmGreg i == r) || (s.seq.platen.any (·.greg == r)) ||
  (s.seq.cur.any fun c => isPlaten (fmOp c.instr) && fmGreg c.instr == r)

/-- The pending mark of a register cleared when no Platen write is due to it any more (R330, R331). -/
def State.unmark (s : State) (r : Nat) : State :=
  if s.platenDue r then s else s.onSeq fun q => { q with marked := q.marked.filter (· != r) }

/-- A Platen instruction that will not run writes 0xFFFF_FFFF to its register (R309, R330). -/
def State.platenFail (s : State) (i : Nat) : State :=
  if isPlaten (fmOp i) then (s.platenWrite (fmGreg i) 0xFFFFFFFF).unmark (fmGreg i) else s

/-- Latency of a Platen operation (R264). -/
def platenLatency (op : Nat) : Nat := if op ≤ 3 then 20 else if op = 4 then 40 else 44

/-- The value of a Platen operation now, over the sorts in service with E = 0 (R263, R264). -/
def State.platenValue (s : State) (op : Nat) : Nat :=
  let ps := (s.logical.filter fun q => !(s.sort (s.place q.1 q.2)).e).map fun q => (q.2 * 512 + q.1, (s.sort (s.place q.1 q.2)).flag 3)
  if op = 1 ∨ op = 3 then b2n (ps.any (·.2))
  else if op = 2 then b2n (ps.all (·.2))
  else if op = 4 then (ps.filter (·.2)).length
  else match ps.find? (·.2) with
    | some x => x.1
    | none => 0x00040000

/-- A Platen operation issued in the current cycle (R263 to R265); results to one register end with the later-issued,
so an earlier one that would arrive after it is discarded when it does (R331). -/
def State.platenIssue (s : State) (op greg : Nat) : State :=
  let due := s.seq.fc + 1 + platenLatency op
  s.onSeq fun q => { q with platen := (q.platen.map fun x => if x.greg = greg ∧ due < x.due then { x with overtaken := true } else x) ++
    [{ op := op, greg := greg, result := s.platenValue op, due := due, overtaken := false }] }

/-- Platen settled in Fc cycle `at_`: no operation is in flight (R265). -/
def State.platenSettled (s : State) (at_ : Nat) : Bool := s.seq.platen.all fun x => decide (x.due ≤ at_)

/-! ## Checks before dispatch (R294 to R312) -/

/-- What an assigned opcode's table entry uses: its descriptors D, A, B; IMMB; the shift of R301. -/
structure FmUse where
  d : Bool := false
  a : Bool := false
  b : Bool := false
  immb : Bool := false
  shift : Bool := false

/-- The assigned ROM opcodes (R313 to R340). -/
def fmUse (op : Nat) : Option FmUse :=
  if op = 0x000 then some {}
  else if op = 0x001 then some { d := true, a := true, shift := true }
  else if op = 0x002 then some { d := true, a := true }
  else if op = 0x003 ∨ op = 0x004 then some { d := true }
  else if 0x008 ≤ op ∧ op ≤ 0x00B then some { d := true, a := true, b := true, immb := true, shift := true }
  else if op = 0x00C ∨ op = 0x00D then some { d := true, a := true }
  else if op = 0x00E ∨ op = 0x00F then some { d := true, a := true, b := true, immb := true, shift := true }
  else if op = 0x010 ∨ op = 0x011 then some { d := true, a := true, b := true }
  else if 0x018 ≤ op ∧ op ≤ 0x01B then some { d := true, a := true, b := true, immb := true }
  else if op = 0x01C then some { d := true, a := true }
  else if op = 0x01D then some { d := true, a := true, b := true }
  else if op = 0x020 then some { a := true, b := true, immb := true }
  else if op = 0x021 then some { a := true }
  else if op = 0x022 then some {}
  else if 0x023 ≤ op ∧ op ≤ 0x025 then some { d := true, a := true, b := true, immb := true }
  else if op = 0x028 then some { d := true, a := true }
  else if isPlaten op then some {}
  else if op = 0x038 ∨ op = 0x039 ∨ op = 0x03C then some {}
  else none

/-- Two fields share a bit. -/
def fieldsMeet (a wa b wb : Nat) : Bool := decide (a < b + wb) && decide (b < a + wa)

/-- The descriptors an instruction uses, as (address, width). -/
def fmFields (u : FmUse) (i : Nat) : List (Nat × Nat) :=
  (if u.d then [(fmFdAddr i, fmFdWidth i)] else []) ++ (if u.a then [(fmFaAddr i, fmFaWidth i)] else []) ++
  (if u.b && !(u.immb && fmImmb i) then [(fmFbAddr i, fmFbWidth i)] else [])

/-- The overlap of R304. -/
def fmOverlap (u : FmUse) (i : Nat) : Bool :=
  let da := fmFdAddr i
  let dw := fmFdWidth i
  let srcs := fmFields { u with d := false } i
  let hit := fun (x : Nat × Nat) => fieldsMeet da dw x.1 x.2
  u.d && (
    (if fmOp i = 0x010 ∨ fmOp i = 0x011 then srcs.any hit
     else if fmOp i = 0x002 then srcs.any fun x => hit x && decide (da < x.1)
     else srcs.any fun x => hit x && decide (x.1 < da)) ||
    (u.shift && !fmImmb i && decide (0 < bits (fmScalar i) 5 0) && hit (fmFaAddr i, fmFaWidth i)))

/-- The causes of R308 that hold of an instruction, but for EMPTY_DISPATCH. -/
def fmCauses (i : Nat) : List Nat :=
  let op := fmOp i
  let c := fun (b : Bool) (k : Nat) => if b then [k] else []
  if 768 ≤ op then
    let fs := [(fmFdAddr i, fmFdWidth i), (fmFaAddr i, fmFaWidth i), (fmFbAddr i, fmFbWidth i)]
    c (fs.any fun x => x.2 != 0 && decide (16384 < x.1 + x.2)) 3 ++ c (fs.any fun x => decide (64 < x.2)) 4 ++
      c (fmCtx i == 3) 5
  else match fmUse op with
  | none => [1]
  | some u =>
    let fs := fmFields u i
    let t := transferOf i true
    let gal := op == 0x038 || op == 0x039
    c (fs.any fun x => x.2 != 0 && decide (16384 < x.1 + x.2)) 3 ++
    c (fs.any fun x => x.2 == 0 || decide (64 < x.2)) 4 ++
    c (fmCtx i == 3) 5 ++
    c (fmOverlap u i) 6 ++
    c ((op == 0x020 && decide (5 < fmCond i)) || (gal && t.mode == 3) || (op == 0x039 && t.mode == 2) ||
       (op == 0x03C && decide (4 < bits (fmMod i) 2 0))) 7 ++
    c ((op == 0x022 && decide (9 < bits (fmScalar i) 3 0)) || (op == 0x03C && fmScalar i == 0)) 8 ++
    c (gal && t.badRange) 9

/-- The dispatch table entry of a customer opcode: VALID and microaddress (R369). -/
def State.dispatchEntry (s : State) (op : Nat) : Bool × Nat :=
  (s.on pgCSTORE CSTORE_DISPATCH_ENTRY_VALID (op + 1), s.get pgCSTORE CSTORE_DISPATCH_ENTRY_UADDR (op + 1))

/-- The cause an instruction is refused with: the lowest code among the checks that fail (R308). -/
def State.refusal (s : State) (i : Nat) : Option Nat :=
  let cs := fmCauses i
  let cs := if 768 ≤ fmOp i ∧ (s.dispatchEntry (fmOp i)).1 = false then 2 :: cs else cs
  cs.min?

/-- An instruction refused (R308 to R310, R357). -/
def State.refuse (s : State) (i cause : Nat) : State :=
  let s1 := (s.count pgCOMPOSITOR COMP_REFUSED).report pgCOMPOSITOR 0x010 2 0 (cause * 2 ^ 24 + fmOp i)
  (s1.setVoid 1).platenFail i

/-! ## Ends of routines, discard (R387 to R392) -/

/-- QUEUE_EMPTY is raised when the last entry has left and no routine runs (R414). -/
def State.queueEmpty (s : State) : State :=
  if s.seq.queue.isEmpty && s.seq.cur.isNone then s.event pgCOMPOSITOR 4 else s

/-! ### Fills and commits of the microword ports (R221 to R227) -/

/-- The parity of a stick's 32 bits. -/
def parity32 (v : Nat) : Bool := (List.range 32).foldl (fun p k => p != bit v k) false

/-- A load fills its stick; the old contents are checked against the parity kept of them: the microaddress of the load where the
check fails (R223). -/
def SortSt.fillOne (m : SortSt) (x : Nat × Bool × Nat × Nat) : Option Nat × SortSt :=
  if x.2.1 then (if parity32 m.a != m.aPar then some x.2.2.2 else none, { m with a := x.2.2.1, aPar := parity32 x.2.2.1 })
  else (if parity32 m.b != m.bPar then some x.2.2.2 else none, { m with b := x.2.2.1, bPar := parity32 x.2.2.1 })

/-- A store commits: the microaddress of the store where a merge meets an uncorrectable word (R226, R227). -/
def SortSt.commitOne (m : SortSt) (x : Nat × Nat × Nat × Nat × Nat) : Option Nat × SortSt :=
  (if x.2.2.2.1 != 0xFFFFFFFF && m.bad.contains x.2.1 then some x.2.2.2.2 else none, m.storeWord x.2.1 x.2.2.1 x.2.2.2.1)

/-- What the ports of a sort end by the end of cycle t: fills and commits due by then. Answers the first check that fails there:
its code and microaddress. -/
def SortSt.portsEnd (m : SortSt) (t : Nat) : Option (Nat × Nat) × SortSt :=
  let f := (m.loads.filter fun x => decide (x.1 ≤ t)).foldl (fun (r : Option (Nat × Nat) × SortSt) x =>
    let y := r.2.fillOne x
    (r.1.or (y.1.map fun u => (4, u)), y.2)) (none, { m with loads := m.loads.filter fun x => decide (t < x.1) })
  let g := (m.stores.filter fun x => decide (x.1 ≤ t)).foldl (fun (r : Option (Nat × Nat) × SortSt) x =>
    let y := r.2.commitOne x
    ((y.1.map fun u => (3, u)).or r.1, y.2)) (f.1, { f.2 with stores := f.2.stores.filter fun x => decide (t < x.1) })
  (g.1, { g.2 with e := g.2.e || g.1.isSome })

/-- Every fill and commit due by the end of cycle t. -/
def State.settlePorts (s : State) (t : Nat) : State :=
  let busy := s.forme.sorts.filter fun x => !x.2.loads.isEmpty || !x.2.stores.isEmpty
  let r := busy.foldl (fun (acc : List (Nat × Nat × Nat) × State) x =>
    let y := x.2.portsEnd t
    ((match y.1 with
      | some c => if x.2.e then acc.1 else acc.1 ++ [(x.1, c)]
      | none => acc.1), acc.2.setSort x.1 y.2)) ([], s)
  r.2.raiseE r.1

/-- No routine follows at once: the ports end what they do and stand idle (R279, R388). -/
def State.seqIdle (s : State) : State :=
  if s.seq.cur.isNone && s.seq.queue.isEmpty then (s.settlePorts (s.seq.fc + 2)).portsIdle else s

/-- The running routine ends after n more Fc cycles. -/
def State.endRoutine (s : State) (n : Nat) : State :=
  ((s.onSeq fun q => { q with fc := q.fc + n, cur := none }).queueEmpty).seqIdle

/-- One instruction discarded (R391). -/
def State.discardOne (s : State) (i : Nat) : State := (s.count pgCOMPOSITOR COMP_DISCARDED).platenFail i

/-- Every queued instruction discarded (R391). -/
def State.discardQueue (s : State) : State :=
  if s.seq.queue.isEmpty then s
  else ((s.seq.queue.foldl State.discardOne (s.onSeq fun q => { q with queue := [] }))).queueEmpty.seqIdle

/-- The discard state entered (R391). -/
def State.enterDiscard (s : State) : State := (s.onSeq fun q => { q with discard := true, flush := false }).discardQueue

/-- The running routine abandoned with a cause (R388 to R390); no routine runs after it, and QUEUE_EMPTY is raised where the
queue was empty already (R414). Which microword of a ROM routine it stood at is not published (R369): a free value. -/
def State.abandon (s : State) (cause : Nat) : State :=
  match s.seq.cur with
  | none => s
  | some c =>
    let op := fmOp c.instr
    let u := s.takeFree
    let ua := if c.micro then c.uaddr else (Config.freeWord u.1).toNat % 0x8000
    let s1 := (if c.micro then s else u.2).onSeq fun q => { q with cur := none }
    let s2 := ((s1.put pgCOMPOSITOR COMP_ABANDON_CAUSE cause).put pgCOMPOSITOR COMP_ABANDON_OPCODE op).put
      pgCOMPOSITOR COMP_ABANDON_UADDR ua
    let s3 := (s2.count pgCOMPOSITOR COMP_ABANDONS).report pgCOMPOSITOR 0x011 3 ua (cause * 2 ^ 28 + op * 2 ^ 16)
    let s4 := (s3.setVoid 2).event pgCOMPOSITOR 0
    (if s4.seq.queue.isEmpty then s4.queueEmpty.seqIdle else s4).enterDiscard

/-- One instruction enqueued by the pair (R366, R391, R328): false when the queue is full and the core stalls. -/
def State.enqueue (s : State) (i : Nat) : Bool × State :=
  if s.seq.discard then (true, s.discardOne i)
  else if 64 ≤ s.seq.queue.length then (false, s)
  else
    let mark := isPlaten (fmOp i) && fmGreg i != 0
    (true, s.onSeq fun q => { q with queue := q.queue ++ [i],
                                     marked := if mark && !(q.marked.contains (fmGreg i)) then fmGreg i :: q.marked
                                       else q.marked })

end Sys2Proof.Machine
end

