-- ==== Sys2Proof/Machine/QuireOps.lean ====
section
/-!
DEFINITION. A Quire core: registers, decoding, segments, exceptions and the registers an instruction uses (spec/07 R418 to
R441, R460 to R463).
-/
namespace Sys2Proof.Machine

/-! ## Registers (R419 to R422) -/

/-- A fast-class handler runs: the shadow bank is in use. -/
def CoreSt.fast (c : CoreSt) : Bool := c.qstatus.getLsbD 6
/-- EXL. -/
def CoreSt.exl (c : CoreSt) : Bool := c.qstatus.getLsbD 5
/-- Constant-time mode. -/
def CoreSt.ct (c : CoreSt) : Bool := c.qstatus.getLsbD 2
/-- The rounding mode RM. -/
def CoreSt.rm (c : CoreSt) : Rm :=
  match c.qstatus.toNat % 4 with
  | 0 => .nearestEven
  | 1 => .towardZero
  | 2 => .down
  | _ => .up

/-- A general register: g0 reads zero; g16 to g31 are the shadow bank while FAST = 1. -/
def CoreSt.getG (c : CoreSt) (r : Nat) : W32 :=
  if r = 0 then 0 else if 16 ≤ r ∧ c.fast then SMap.get 0 c.shadow r else SMap.get 0 c.g r

/-- Registers written, by the numbers of R664: their parity is sound again (R348). -/
def CoreSt.fresh (c : CoreSt) (rs : List Nat) : CoreSt := { c with parBad := c.parBad.filter fun r => !rs.contains r }

/-- A general register written: a write to g0 is discarded. -/
def CoreSt.setG (c : CoreSt) (r : Nat) (v : W32) : CoreSt :=
  if r = 0 then c
  else if 16 ≤ r ∧ c.fast then { c with shadow := SMap.set 0 c.shadow r v }.fresh [80 + r]
  else { c with g := SMap.set 0 c.g r v }.fresh [r]

/-- An f register. -/
def CoreSt.getF (c : CoreSt) (r : Nat) : W32 := SMap.get 0 c.f r
/-- An f register written. -/
def CoreSt.setF (c : CoreSt) (r : Nat) (v : W32) : CoreSt := { c with f := SMap.set 0 c.f r v }.fresh [32 + r]
/-- The lanes of a vector register: lane k of vn is f(8n + k). -/
def CoreSt.getV (c : CoreSt) (n : Nat) : List W32 := (List.range 8).map fun k => c.getF (8 * n + k)
/-- A vector register written lane by lane. -/
def CoreSt.setV (c : CoreSt) (n : Nat) (ls : List W32) : CoreSt :=
  (List.range 8).foldl (fun c k => c.setF (8 * n + k) (ls.getD k 0)) c
/-- A segment register; 8 is sc. -/
def CoreSt.getSeg (c : CoreSt) (n : Nat) : Seg := SMap.get Seg.none c.seg n
/-- Sticky flags raised (bit 0 NX to bit 4 NV) into QSTATUS bits 8 to 12. -/
def CoreSt.raise (c : CoreSt) (fl : Nat) : CoreSt :=
  { c with qstatus := c.qstatus ||| BitVec.ofNat 32 (fl % 32 * 256) }.fresh [128]

/-! ## What an instruction answers -/

/-- What an instruction answers in one core: it completes with a new core, a next pc and its Fc cycles; it waits for its
data with the load noted; it hands a Forme instruction to the sequencer; it raises an exception of a cause, with EADDR, the
upper ECAUSE bits, and EPC the next instruction or its own; it stalls. -/
inductive QEff where
  | ok (c : CoreSt) (pc : W32) (cost : Nat)
  | load (l : Load) (cost : Nat)
  | enq (i : Nat)
  | trap (cause : Nat) (eaddr : W32) (info : Nat) (next : Bool)
  | stall
deriving DecidableEq, Repr

/-- ILLEGAL (R440). -/
def QEff.illegal : QEff := .trap 1 0 0 false

/-- The instruction after this one. -/
def CoreSt.nextPc (c : CoreSt) : W32 := c.pc + 4

/-- An instruction that completes with a new core and goes on. -/
def QEff.done (c : CoreSt) (cost : Nat := 1) : QEff := .ok c c.nextPc cost

/-- What an instruction does in core c: the state is read for memory checks and the sequencer; k is 0 for the Compositor
and 1 for the Colophon; w the instruction word; x the elapsed Fc cycles that a read of CYCLE sees. -/
abbrev QBody := State → Nat → Nat → Nat → CoreSt → QEff

/-! ## Decoding (R439 to R441) -/

/-- Major opcode. -/
def qMajor (w : Nat) : Nat := bits w 31 26

/-- The major opcode and the function code of its format. -/
def qKey (w : Nat) : Nat × Nat :=
  let m := qMajor w
  (m, if m = 0x01 ∨ m = 0x1E ∨ m = 0x30 then bits w 5 0 else if m = 0x28 ∨ m = 0x2C then bits w 7 0
    else if m = 0x29 then bits w 1 0 else 0)

def qRd (w : Nat) : Nat := bits w 25 21
def qRa (w : Nat) : Nat := bits w 20 16
def qRb (w : Nat) : Nat := bits w 15 11
def qRc (w : Nat) : Nat := bits w 10 6
def qImm16 (w : Nat) : Nat := bits w 15 0
def qFd (w : Nat) : Nat := bits w 25 20
def qFa (w : Nat) : Nat := bits w 19 14
def qFb (w : Nat) : Nat := bits w 13 8
def qFc (w : Nat) : Nat := bits w 7 2
def qVd (w : Nat) : Nat := bits w 25 23
def qVa (w : Nat) : Nat := bits w 22 20
def qVb (w : Nat) : Nat := bits w 19 17
def qVc (w : Nat) : Nat := bits w 16 14
def qSr (w : Nat) : Nat := bits w 13 8
def qImm10 (w : Nat) : Nat := bits w 15 6

/-- A k-bit field, sign-extended to a word. -/
def sextW (k v : Nat) : W32 := BitVec.ofNat 32 (wrap 32 (signed k v))

/-- Integer operations that read rb, and those that read rc; pair operations (R442, R443). -/
def qUsesRb (fn : Nat) : Bool := !([0x09, 0x0A, 0x0B, 0x1F, 0x20, 0x21, 0x22].contains fn)
def qUsesRc (fn : Nat) : Bool := [0x0F, 0x10, 0x11, 0x12, 0x13].contains fn
def qPair (fn : Nat) : Bool := [0x17, 0x18, 0x1D, 0x1E].contains fn

/-- The general registers an instruction reads or writes (R328, R438, R441). -/
def qRegs (w : Nat) : List Nat :=
  let (m, fn) := qKey w
  let rd := qRd w
  let ra := qRa w
  let rb := qRb w
  if m = 0x01 then
    [rd, ra] ++ (if qUsesRb fn then [rb] else []) ++ (if qUsesRc fn then [qRc w] else []) ++
      (if qPair fn then [rd + 1] else [])
  else if m = 0x06 then [rd]
  else if 0x02 ≤ m ∧ m ≤ 0x09 then [rd, ra]
  else if 0x10 ≤ m ∧ m ≤ 0x17 then [rd, ra]
  else if 0x18 ≤ m ∧ m ≤ 0x1D then [ra]
  else if m = 0x1E then (if fn < 0x10 then [rd, ra, rb] else [ra, rb])
  else if m = 0x20 ∨ m = 0x21 then [rd]
  else if m = 0x23 then [31]
  else if m = 0x28 then
    (if [0x10, 0x11, 0x12, 0x18, 0x19, 0x1A, 0x1D].contains fn then [qFd w % 32]
     else if [0x1B, 0x1C, 0x1E].contains fn then [qFa w % 32] else [])
  else if m = 0x30 then
    (if fn = 0x04 then [rd] else if fn = 0x05 ∨ fn = 0x08 then [ra] else if fn = 0x09 then [rd, ra]
     else if fn = 0x10 then [bits w 18 14] ++ (if bits w 25 22 = 8 then [bits w 13 9] else [])
     else if fn = 0x11 then [bits w 18 14]
     else if fn = 0x20 then [ra, ra + 1, ra + 2, ra + 3] else [])
  else []

/-- An instruction stalls on a register that is marked pending; a fast-class handler on none (R328, R329,
notes/assumptions/32.md). -/
def State.qPending (s : State) (k : Nat) (c : CoreSt) (w : Nat) : Bool :=
  k == 0 && !c.fast && (qRegs w).any fun r => s.seq.marked.contains r

/-! ## Segments (R426 to R430) -/

/-- Master ID of a complex. -/
def qMaster (k : Nat) : Nat := k

/-- One access checked (R428): the device address, or the cause and EADDR of the first exception met. EADDR holds the low
32 bits of a device address (notes/assumptions/19.md). -/
def State.segCheck (s : State) (k : Nat) (c : CoreSt) (seg size : Nat) (store : Bool) (off : W32) : Except (Nat × W32) Nat :=
  let g := c.getSeg seg
  let o := off.toNat
  if (if store then !bit g.rights 1 else !bit g.rights 0) then .error (3, off)
  else if g.limit < o + size then .error (2, off)
  else if o % size ≠ 0 then .error (4, off)
  else
    let a := (g.base + o) % 2 ^ 48
    if s.regionOk (qMaster k) a size store then .ok a else .error (5, BitVec.ofNat 32 a)

/-- The lanes of a vector access checked, lowest first: the addresses, or the failing lane with its cause and EADDR
(R464). -/
def State.laneCheck (s : State) (k : Nat) (c : CoreSt) (seg : Nat) (store : Bool) : Nat → List W32 →
    Except (Nat × Nat × W32) (List Nat)
  | _, [] => .ok []
  | n, o :: os =>
    match s.segCheck k c seg 4 store o with
    | .error e => .error (n, e)
    | .ok a => match s.laneCheck k c seg store (n + 1) os with
      | .error e => .error e
      | .ok as => .ok (a :: as)

/-- The first check of R428 that a fetch at a pc fails within sc: rights, limit, alignment (R429). -/
def CoreSt.fetchCause (c : CoreSt) (pc : W32) : Option Nat :=
  let g := c.getSeg 8
  if !bit g.rights 2 then some 3 else if g.limit < pc.toNat + 4 then some 2 else if pc.toNat % 4 ≠ 0 then some 4 else none

/-- The instruction fetch at the pc checked (R429): the device address, or the cause. -/
def State.fetchCheck (s : State) (k : Nat) (c : CoreSt) : Except Nat Nat :=
  match c.fetchCause c.pc with
  | some e => .error e
  | none =>
    let a := ((c.getSeg 8).base + c.pc.toNat) % 2 ^ 48
    if s.regionOk (qMaster k) a 4 false then .ok a else .error 5

/-- Core periods that an access for a core takes at the least (R432, R721); none where nothing is accessed. -/
def loadTime (k : Nat) (as : List Nat) : Nat :=
  as.foldl (fun n a => max n (if placeOf a = .stone then (if k = 0 then 14 else 8) else (if k = 0 then 120 else 60))) 0

/-! ## Interrupt requests (R467, R468) -/

/-- An interrupt request of either class is presented to the complex. -/
def State.requestPresent (s : State) (k : Nat) : Bool := (s.presented k false).isSome || (s.presented k true).isSome

/-- A fast-class request is takeable (R467). -/
def State.takesFast (s : State) (k : Nat) (c : CoreSt) : Bool :=
  (s.presented k true).isSome && c.qstatus.getLsbD 4 && !c.fast

/-- A normal-class request is takeable, and no fast-class one is (R467, R468). -/
def State.takesNormal (s : State) (k : Nat) (c : CoreSt) : Bool :=
  (s.presented k false).isSome && c.qstatus.getLsbD 3 && !c.exl && !c.fast && !s.takesFast k c

/-! ## Exceptions (R460 to R463) -/

/-- A pc with its two low bits cleared. -/
def alignPc (v : W32) : W32 := v &&& 0xFFFFFFFC#32

/-- Fc cycles of a core period of complex k: 1; 6 on a Colophon core, 120 in Hold (R418, R424). -/
def State.periodFc (s : State) (k : Nat) : Nat := if k = 0 then 1 else if s.domState 0 = 3 then 120 else 6

/-- An exception taken (R462), or the halt of R463: the core, whose period is p Fc cycles, and the pc offset and ECAUSE of an
exception that halted it. -/
def CoreSt.except (c : CoreSt) (p cause : Nat) (epc eaddr : W32) (info : Nat) : CoreSt × Option (Nat × Nat) :=
  let ec := cause + info
  if c.exl || c.fast then ({ c with halted := true }, some (epc.toNat, ec))
  else
    ({ c with epc := epc, eaddr := eaddr, estatus := c.qstatus, ecause := BitVec.ofNat 32 ec
              qstatus := c.qstatus ||| 0x20#32, pc := alignPc c.hvecExc, cycle := c.cycle + 4 * p }.fresh
        [128, 129, 130, 131, 132], none)

end Sys2Proof.Machine
end

