-- ==== Sys2Proof/Machine/QuireMem.lean ====
section
/-!
DEFINITION. What the Quire memory, control transfer, system and Compositor instructions do (spec/07 R426 to R438, R445,
R446, R450 to R453, R464, R465).
-/
namespace Sys2Proof.Machine

/-! ## Memory (R428, R432 to R434, R445) -/

/-- The segment of an M-format access and its offset. -/
def qSegM (w : Nat) : Nat := bits w 15 13
def qOffM (w : Nat) (c : CoreSt) : W32 := c.getG (qRa w) + sextW 13 (bits w 12 0)
/-- The segment of an X-format access and its offset. -/
def qSegX (w : Nat) : Nat := bits w 10 8
def qOffX (w : Nat) (c : CoreSt) : W32 := c.getG (qRa w) + c.getG (qRb w)

/-- A store of the write buffer overlaps some bytes of a load (R434). -/
def CoreSt.overlaps (c : CoreSt) (size : Nat) (addrs : List Nat) : Bool :=
  c.wbuf.any fun e => e.any fun x => addrs.any fun a => decide (a < x.1 + x.2.length) && decide (x.1 < a + size)

/-- Room in the write buffer of 8 entries (R433). -/
def CoreSt.full (c : CoreSt) : Bool := decide (8 ≤ c.wbuf.length)

/-- A checked scalar load: it stalls on an overlapping store, else waits for its data. -/
def qLoad (seg : Nat) (off : W32) (size : Nat) (dst : LoadDst) (s : State) (k : Nat) (c : CoreSt) : QEff :=
  match s.segCheck k c seg size false off with
  | .error (cause, ea) => .trap cause ea 0 false
  | .ok a => if c.overlaps size [a] then .stall else .load { dst := dst, size := size, addrs := [a] } (loadTime k [a])

/-- A checked scalar store into the write buffer. -/
def qStore (seg : Nat) (off : W32) (size : Nat) (v : W32) (s : State) (k : Nat) (c : CoreSt) : QEff :=
  match s.segCheck k c seg size true off with
  | .error (cause, ea) => .trap cause ea 0 false
  | .ok a => if c.full then .stall else .done { c with wbuf := c.wbuf ++ [[(a, bytesLE size v.toNat)]] }

def qLdb : QBody := fun s k w _ c => qLoad (qSegM w) (qOffM w c) 1 (.g (qRd w) 1 true) s k c
def qLdbu : QBody := fun s k w _ c => qLoad (qSegM w) (qOffM w c) 1 (.g (qRd w) 1 false) s k c
def qLdh : QBody := fun s k w _ c => qLoad (qSegM w) (qOffM w c) 2 (.g (qRd w) 2 true) s k c
def qLdhu : QBody := fun s k w _ c => qLoad (qSegM w) (qOffM w c) 2 (.g (qRd w) 2 false) s k c
def qLdw : QBody := fun s k w _ c => qLoad (qSegM w) (qOffM w c) 4 (.g (qRd w) 4 false) s k c
def qStb : QBody := fun s k w _ c => qStore (qSegM w) (qOffM w c) 1 (c.getG (qRd w)) s k c
def qSth : QBody := fun s k w _ c => qStore (qSegM w) (qOffM w c) 2 (c.getG (qRd w)) s k c
def qStw : QBody := fun s k w _ c => qStore (qSegM w) (qOffM w c) 4 (c.getG (qRd w)) s k c
def qFld : QBody := fun s k w _ c => qLoad (qSegM w) (qOffM w c) 4 (.f (32 * (qMajor w - 0x18) + qRd w)) s k c
def qFst : QBody := fun s k w _ c =>
  qStore (qSegM w) (qOffM w c) 4 (c.getF (32 * (qMajor w - 0x1A) + qRd w)) s k c
def qLdwx : QBody := fun s k w _ c => qLoad (qSegX w) (qOffX w c) 4 (.g (qRd w) 4 false) s k c
def qStwx : QBody := fun s k w _ c => qStore (qSegX w) (qOffX w c) 4 (c.getG (qRd w)) s k c
def qLdbux : QBody := fun s k w _ c => qLoad (qSegX w) (qOffX w c) 1 (.g (qRd w) 1 false) s k c
def qStbx : QBody := fun s k w _ c => qStore (qSegX w) (qOffX w c) 1 (c.getG (qRd w)) s k c

/-- ECAUSE bits of a failing lane of a vector instruction (R461). -/
def laneInfo (lane : Nat) : Nat := lane * 2 ^ 8 + 2 ^ 11

/-- ILLEGAL of a vector instruction (R461). -/
def QEff.vIllegal : QEff := .trap 1 0 (laneInfo 0) false

/-- A vector load: every lane is checked before any is read (R464, R465). -/
def qVLoad (seg : Nat) (offs : List W32) (v : Nat) (s : State) (k : Nat) (c : CoreSt) : QEff :=
  match s.laneCheck k c seg false 0 offs with
  | .error (n, cause, ea) => .trap cause ea (laneInfo n) false
  | .ok as => if c.overlaps 4 as then .stall else .load { dst := .v v, size := 4, addrs := as } (loadTime k as)

/-- A vector store: one entry of the write buffer, its lanes in order (R464, R465). -/
def qVStore (seg : Nat) (offs : List W32) (v : Nat) (s : State) (k : Nat) (c : CoreSt) : QEff :=
  match s.laneCheck k c seg true 0 offs with
  | .error (n, cause, ea) => .trap cause ea (laneInfo n) false
  | .ok as =>
    if c.full then .stall
    else .done { c with wbuf := c.wbuf ++ [(List.zip as (c.getV v)).map fun x => (x.1, bytesLE 4 x.2.toNat)] }

/-- Offsets of 8 consecutive words, and of 8 words at a signed stride, modulo 2^32. -/
def unitOffs (o : W32) : List W32 := (List.range 8).map fun k => o + BitVec.ofNat 32 (4 * k)
def strideOffs (o d : W32) : List W32 := (List.range 8).map fun k => o + BitVec.ofNat 32 k * d

def qVld : QBody := fun s k w _ c =>
  if qRd w % 4 ≠ 0 then .vIllegal else qVLoad (qSegM w) (unitOffs (qOffM w c)) (qRd w / 4) s k c
def qVst : QBody := fun s k w _ c =>
  if qRd w % 4 ≠ 0 then .vIllegal else qVStore (qSegM w) (unitOffs (qOffM w c)) (qRd w / 4) s k c
def qVlds : QBody := fun s k w _ c =>
  if 8 ≤ qRd w then .vIllegal else qVLoad (qSegX w) (strideOffs (c.getG (qRa w)) (c.getG (qRb w))) (qRd w) s k c
def qVsts : QBody := fun s k w _ c =>
  if 8 ≤ qRd w then .vIllegal else qVStore (qSegX w) (strideOffs (c.getG (qRa w)) (c.getG (qRb w))) (qRd w) s k c

/-! ## Control transfer (R446, R456) -/

/-- A word offset times 4. -/
def jumpOff (k v : Nat) : W32 := sextW k v * 4

/-- A conditional branch: 2 Fc cycles taken, 1 not taken, 2 either way when CT = 1. -/
def qBranch (p : W32 → Bool) : QBody := fun _ _ w _ c =>
  if p (c.getG (qRd w)) then .ok c (c.pc + jumpOff 21 (bits w 20 0)) 2 else .done c (if c.ct then 2 else 1)

def qBez : QBody := qBranch (· == 0)
def qBnz : QBody := qBranch (· != 0)
def qJ : QBody := fun _ _ w _ c => .ok c (c.pc + jumpOff 26 (bits w 25 0)) 2
def qJl : QBody := fun _ _ w _ c => .ok (c.setG 31 c.nextPc) (c.pc + jumpOff 26 (bits w 25 0)) 2

/-- JR and JLR: the target is read before rd is written; the low bits of a target are checked at its fetch. -/
def qJr : QBody := fun _ _ w _ c => .ok c (c.getG (qRa w)) 2
def qJlr : QBody := fun _ _ w _ c => .ok (c.setG (qRd w) c.nextPc) (c.getG (qRa w)) 2

/-! ## System (R423, R424, R436, R450) -/

def qTrap : QBody := fun _ _ w _ _ => .trap 9 0 (qImm10 w * 2 ^ 22) true
def qBrk : QBody := fun _ _ _ _ _ => .trap 10 0 0 false
def qRfe : QBody := fun _ _ _ _ c => .ok ({ c with qstatus := c.estatus &&& 0x1F7F#32 }.fresh [128]) (alignPc c.epc) 2
def qRff : QBody := fun _ _ _ _ c =>
  if c.fast then .ok ({ c with qstatus := c.festatus &&& 0x1F7F#32 }.fresh [128]) (alignPc c.fepc) 2 else .illegal

/-- The elapsed cycles a read of CYCLE sees: what the world says, never less than the core has spent (R424). -/
def CoreSt.cycleAt (c : CoreSt) (x : Nat) : Nat := max c.cycle x

def qMfc : QBody := fun _ k w x c =>
  let rd := qRd w
  let put := fun (v : W32) => QEff.done (c.setG rd v)
  match qImm10 w % 256 with
  | 0 => put c.qstatus
  | 1 => put c.epc
  | 2 => put c.estatus
  | 3 => put c.ecause
  | 4 => put c.eaddr
  | 5 => put c.fepc
  | 6 => put c.festatus
  | 7 => put c.hvecExc
  | 8 => put c.hvecNormal
  | 9 => put c.hvecFast
  | 10 =>
    let n := c.cycleAt x
    .done (({ c with cycle := n, capCycle := some (BitVec.ofNat 32 (n / 2 ^ 32)) }).setG rd (BitVec.ofNat 32 n))
  | 11 =>
    let n := c.cycleAt x
    .done (({ c with cycle := n, capCycle := none }).setG rd (c.capCycle.getD (BitVec.ofNat 32 (n / 2 ^ 32))))
  | 12 => .done (({ c with capInstret := some (BitVec.ofNat 32 (c.instret / 2 ^ 32)) }).setG rd (BitVec.ofNat 32 c.instret))
  | 13 => .done (({ c with capInstret := none }).setG rd (c.capInstret.getD (BitVec.ofNat 32 (c.instret / 2 ^ 32))))
  | 14 => put (BitVec.ofNat 32 k)
  | _ => .illegal

/-- QSTATUS written by MTC: reserved bits read zero, FAST keeps its value (R422). -/
def mtcStatus (old v : W32) : W32 := (v &&& 0x1F3F#32) ||| (old &&& 0x40#32)

def qMtc : QBody := fun _ _ w _ c =>
  let v := c.getG (qRa w)
  let n := qImm10 w % 256
  let c := if n < 10 then c.fresh [128 + n] else c
  match n with
  | 0 => .done { c with qstatus := mtcStatus c.qstatus v }
  | 1 => .done { c with epc := v }
  | 2 => .done { c with estatus := v &&& 0x1F7F#32 }
  | 3 => .done { c with ecause := v &&& 0xFFC00F1F#32 }
  | 4 => .done { c with eaddr := v }
  | 5 => .done { c with fepc := v }
  | 6 => .done { c with festatus := v &&& 0x1F7F#32 }
  | 7 => .done { c with hvecExc := v }
  | 8 => .done { c with hvecNormal := v }
  | 9 => .done { c with hvecFast := v }
  | 10 => .done c
  | 11 => .done c
  | 12 => .done c
  | 13 => .done c
  | 14 => .done c
  | _ => .illegal

def qFence : QBody := fun _ _ _ _ c => if c.wbuf.isEmpty then .done { c with lines := [] } else .stall

def qWait : QBody := fun s k _ _ c => if s.requestPresent k then .done c else .done { c with waiting := true }

/-! ## Segment registers and the sequencer (R426, R427, R451 to R453) -/

/-- The four words of a descriptor checked under R428. -/
def qDescCheck (store : Bool) (s : State) (k w : Nat) (c : CoreSt) : Except (Nat × W32) (List Nat) :=
  let off := c.getG (bits w 18 14)
  let ss := bits w 21 19
  match s.laneCheck k c ss store 0 [off, off + 4, off + 8, off + 12] with
  | .error e => .error e.2
  | .ok as => .ok as

def qSegld : QBody := fun s k w _ c =>
  let sd := bits w 25 22
  if 9 ≤ sd then .illegal
  else match qDescCheck false s k w c with
  | .error (cause, ea) => .trap cause ea 0 false
  | .ok as =>
    if c.overlaps 4 as then .stall
    else .load { dst := .seg sd (c.getG (bits w 13 9)).toNat (c.getG (bits w 18 14)).toNat, size := 4, addrs := as }
      (4 + loadTime k as)

/-- A descriptor's 16 bytes (R426). -/
def Seg.bytes (g : Seg) : List Byte :=
  bytesLE 6 g.base ++ bytesLE 2 0 ++ bytesLE 4 g.limit ++ bytesLE 1 g.rights ++ bytesLE 3 0

/-- The segment register 16 bytes describe. -/
def segOf (bs : List Byte) : Seg := { base := fieldLE bs 0 6, limit := fieldLE bs 8 4, rights := fieldLE bs 12 1 % 8 }

def qSegst : QBody := fun s k w _ c =>
  let sd := bits w 25 22
  if 9 ≤ sd then .illegal
  else match qDescCheck true s k w c with
  | .error (cause, ea) => .trap cause ea 0 false
  | .ok as =>
    if c.full then .stall
    else .done { c with wbuf := c.wbuf ++ [(List.range 4).map fun n => (as.getD n 0, slice (c.getSeg sd).bytes (4 * n) 4)] } 5

/-- A Forme instruction enqueued from four words; it waits for an empty write buffer and for room, and in the discard state for
neither (R391, R437, R452). -/
def qEnqueue (ws : List W32) (s : State) (k : Nat) (c : CoreSt) : QEff :=
  if k ≠ 0 then .illegal
  else if !s.seq.discard && (!c.wbuf.isEmpty || decide (64 ≤ s.seq.queue.length)) then .stall
  else .enq ((ws.getD 0 0).toNat + (ws.getD 1 0).toNat * 2 ^ 32 + (ws.getD 2 0).toNat * 2 ^ 64 + (ws.getD 3 0).toNat * 2 ^ 96)

def qEnq : QBody := fun s k w _ c =>
  if qRa w % 4 ≠ 0 then .illegal else qEnqueue ((List.range 4).map fun n => c.getG (qRa w + n)) s k c
def qEnqv : QBody := fun s k w _ c =>
  if 8 ≤ qRa w then .illegal else qEnqueue ((c.getV (qRa w)).take 4) s k c

end Sys2Proof.Machine
end

