-- ==== Sys2Proof/Machine/FormeRom.lean ====
section
/-!
DEFINITION. How a ROM routine acts on the array: one function per instruction says what one sort forms, and one
operation applies it to every sort in service with the checks of chapter 4 (spec/05 R299 to R325; spec/04 R235 to R252).
-/
namespace Sys2Proof.Machine

/-- What a routine forms in one sort: the value of FD, flags written where the sort is enabled, and flags written in
every sort in service (K and X as FLAG destinations, R218, R303). -/
structure RomOut where
  d : Option Nat := none
  flags : List (Nat × Bool) := []
  every : List (Nat × Bool) := []

/-- The flag of FLAG combined with a one-bit result (R303). -/
def flagResult (i : Nat) (m : SortSt) (r : Bool) : RomOut :=
  let f := flagOf (fmFlag i)
  let v := fopOf (fmFop i) (m.flag f) r
  if f = 1 ∨ f = 2 then { every := [(f, v)] } else { flags := [(f, v)] }

/-- COND of two values (R298, R321). -/
def condOf (cond : Nat) (a b : Int) : Bool :=
  match cond with
  | 0 => decide (a = b)
  | 1 => decide (a ≠ b)
  | 2 => decide (a < b)
  | 3 => decide (b ≤ a)
  | 4 => decide (a ≤ b)
  | _ => decide (b < a)

/-! ## What each instruction forms in a sort (R313 to R325) -/

def romMov (i : Nat) (m : SortSt) : RomOut := { d := some (m.opAShifted i (fmFdWidth i)) }
def romMovh (i : Nat) (m : SortSt) : RomOut := { d := some (m.opA i (fmFdWidth i)) }
def romSeti (i : Nat) (_ : SortSt) : RomOut := { d := some (extend 32 (fmFdWidth i) (fmSignb i) (fmScalar i)) }
def romGetf (i : Nat) (m : SortSt) : RomOut :=
  let v := m.flag (flagOf (fmFlag i))
  { d := some (if fmSigna i then b2n v * (2 ^ fmFdWidth i - 1) else b2n v) }

/-- a + b + c over n bits: the sum and the carry out of bit n − 1 (R314). -/
def addOut (n a b c : Nat) : RomOut := { d := some ((a + b + c) % 2 ^ n), flags := [(0, decide (2 ^ n ≤ a + b + c))] }

/-- NOT of an n-bit value. -/
def notOf (n v : Nat) : Nat := 2 ^ n - 1 - v

def romAdd (i : Nat) (m : SortSt) : RomOut :=
  addOut (fmFdWidth i) (m.opAShifted i (fmFdWidth i)) (m.opB i (fmFdWidth i)) 0
def romAddc (i : Nat) (m : SortSt) : RomOut :=
  addOut (fmFdWidth i) (m.opAShifted i (fmFdWidth i)) (m.opB i (fmFdWidth i)) (b2n (m.flag 0))
def romSub (i : Nat) (m : SortSt) : RomOut :=
  addOut (fmFdWidth i) (m.opAShifted i (fmFdWidth i)) (notOf (fmFdWidth i) (m.opB i (fmFdWidth i))) 1
def romSubc (i : Nat) (m : SortSt) : RomOut :=
  addOut (fmFdWidth i) (m.opAShifted i (fmFdWidth i)) (notOf (fmFdWidth i) (m.opB i (fmFdWidth i))) (b2n (m.flag 0))
def romNeg (i : Nat) (m : SortSt) : RomOut := addOut (fmFdWidth i) 0 (notOf (fmFdWidth i) (m.opA i (fmFdWidth i))) 1

/-- R316: the sign is bit n − 1 of the n-bit operand; with SIGNA = 0, D := A. -/
def romAbs (i : Nat) (m : SortSt) : RomOut :=
  let n := fmFdWidth i
  let a := m.opA i n
  let neg := fmSigna i && bit a (n - 1)
  { d := some (if neg then (2 ^ n - a) % 2 ^ n else a), flags := [(7, neg), (0, false)] }

/-- A value clipped to the range of D (R315). -/
def clipOut (i : Nat) (v : Int) : RomOut :=
  let n := fmFdWidth i
  let lo : Int := if fmSignd i then -(2 ^ (n - 1) : Nat) else 0
  let hi : Int := if fmSignd i then (2 ^ (n - 1) : Nat) - 1 else (2 ^ n : Nat) - 1
  let c := if v < lo then lo else if hi < v then hi else v
  { d := some (wrap n c), flags := [(7, decide (c ≠ v)), (0, false)] }

/-- The value the shifted A operand represents, and B's. -/
def SortSt.valA (m : SortSt) (i : Nat) : Int := valueOf (fmFdWidth i) (fmSigna i) (m.opAShifted i (fmFdWidth i))
def SortSt.valB (m : SortSt) (i : Nat) : Int := valueOf (fmFdWidth i) (fmSignb i) (m.opB i (fmFdWidth i))

def romAdds (i : Nat) (m : SortSt) : RomOut := clipOut i (m.valA i + m.valB i)
def romSubs (i : Nat) (m : SortSt) : RomOut := clipOut i (m.valA i - m.valB i)

/-- The exact product of the fields' values, modulo 2^wD (R317). -/
def SortSt.product (m : SortSt) (i : Nat) : Nat :=
  wrap (fmFdWidth i) (valueOf (fmFaWidth i) (fmSigna i) (m.field (fmFaAddr i) (fmFaWidth i)) *
    valueOf (fmFbWidth i) (fmSignb i) (m.field (fmFbAddr i) (fmFbWidth i)))

def romMul (i : Nat) (m : SortSt) : RomOut := { d := some (m.product i), flags := [(0, false)] }
def romMac (i : Nat) (m : SortSt) : RomOut :=
  addOut (fmFdWidth i) (m.field (fmFdAddr i) (fmFdWidth i)) (m.product i) 0

def romAnd (i : Nat) (m : SortSt) : RomOut := { d := some (m.opA i (fmFdWidth i) &&& m.opB i (fmFdWidth i)) }
def romOr (i : Nat) (m : SortSt) : RomOut := { d := some (m.opA i (fmFdWidth i) ||| m.opB i (fmFdWidth i)) }
def romXor (i : Nat) (m : SortSt) : RomOut := { d := some (m.opA i (fmFdWidth i) ^^^ m.opB i (fmFdWidth i)) }
def romAndn (i : Nat) (m : SortSt) : RomOut :=
  { d := some (m.opA i (fmFdWidth i) &&& notOf (fmFdWidth i) (m.opB i (fmFdWidth i))) }
def romNot (i : Nat) (m : SortSt) : RomOut := { d := some (notOf (fmFdWidth i) (m.opA i (fmFdWidth i))) }
def romBool (i : Nat) (m : SortSt) : RomOut :=
  let n := fmFdWidth i
  let a := m.opA i n
  let b := extend (fmFbWidth i) n (fmSignb i) (m.field (fmFbAddr i) (fmFbWidth i))
  { d := some (maskOf n fun k => bit (fmScalar i) (4 * b2n (bit a k) + 2 * b2n (bit b k) + b2n (m.flag 0))) }

/-- n of FM.CMP (R319). -/
def cmpWidth (i : Nat) : Nat := if fmImmb i then fmFaWidth i else max (fmFaWidth i) (fmFbWidth i)

def romCmp (i : Nat) (m : SortSt) : RomOut :=
  let n := cmpWidth i
  let r := condOf (fmCond i) (valueOf n (fmSigna i) (m.opA i n)) (valueOf n (fmSignb i) (m.opB i n))
  let o := flagResult i m r
  { o with flags := if fmFlag i = 7 then o.flags else (0, false) :: o.flags }
def romTst (i : Nat) (m : SortSt) : RomOut := flagResult i m (m.field (fmFaAddr i) (fmFaWidth i) != 0)
def romFlag (i : Nat) (m : SortSt) : RomOut :=
  let code := bits (fmScalar i) 3 0
  let v := if code < 8 then m.flag (flagOf code) else code == 9
  flagResult i m (v != bit (fmScalar i) 4)
def romSel (i : Nat) (m : SortSt) : RomOut :=
  { d := some (if m.flag (flagOf (fmFlag i)) then m.opA i (fmFdWidth i) else m.opB i (fmFdWidth i)) }

/-- The values A and B of FM.MAX and FM.MIN represent, exactly (R321). -/
def SortSt.exactA (m : SortSt) (i : Nat) : Int := valueOf (fmFaWidth i) (fmSigna i) (m.field (fmFaAddr i) (fmFaWidth i))
def SortSt.exactB (m : SortSt) (i : Nat) : Int :=
  if fmImmb i then valueOf 32 (fmSignb i) (fmScalar i)
  else valueOf (fmFbWidth i) (fmSignb i) (m.field (fmFbAddr i) (fmFbWidth i))
def pickOut (i : Nat) (a b : Int) (isA : Bool) : RomOut :=
  { d := some (wrap (fmFdWidth i) (if isA then a else b)), flags := [(7, isA), (0, false)] }
def romMax (i : Nat) (m : SortSt) : RomOut := pickOut i (m.exactA i) (m.exactB i) (decide (m.exactB i ≤ m.exactA i))
def romMin (i : Nat) (m : SortSt) : RomOut := pickOut i (m.exactA i) (m.exactB i) (decide (m.exactA i ≤ m.exactB i))

/-- The neighbour whose A operand a sort receives (R246, R323): on the side opposite DIR; none on the receiving edge of a
galley in LOCAL mode (R247). -/
def State.newsSource (s : State) (dir : Nat) (global : Bool) (x y : Nat) : Option (Nat × Nat) :=
  let h := 32 * s.rows
  let edge := if dir = 0 then y % 32 == 31 else if dir = 1 then x % 32 == 0 else if dir = 2 then x % 32 == 31 else y % 32 == 0
  if !global && edge then none
  else if dir = 0 then some (x, (y + 1) % h)
  else if dir = 1 then some ((x + 511) % 512, y)
  else if dir = 2 then some ((x + 1) % 512, y)
  else some (x, (y + h - 1) % h)

/-- FM.NEWS in the sort at (x, y) (R323, R324). -/
def State.romNews (s : State) (x y i : Nat) : RomOut :=
  match s.newsSource (fmDir i) (fmGlobal i) x y with
  | some q => { d := some ((s.sort (s.place q.1 q.2)).opA i (fmFdWidth i)) }
  | none => { d := some (extend 32 (fmFdWidth i) true (fmScalar i)) }

/-! ## A routine over the array -/

/-- What a routine is besides its function: its Fc cycles, whether the residue check runs, whether it uses the links, and
whether it reads FD. -/
structure RomKind where
  cycles : Nat
  residue : Bool := false
  news : Bool := false
  readD : Bool := false

/-- The words a routine reads in every sort. -/
def romReads (k : RomKind) (i : Nat) : List Nat :=
  match fmUse (fmOp i) with
  | none => []
  | some u => ((if k.readD then [(fmFdAddr i, fmFdWidth i)] else []) ++ fmFields { u with d := false } i).flatMap
      fun x => fieldWords x.1 x.2

/-- The words a store of FD writes in part. -/
def romMerges (i : Nat) : List Nat :=
  (fieldWords (fmFdAddr i) (fmFdWidth i)).filter fun k =>
    decide (32 * k < fmFdAddr i) || decide (fmFdAddr i + fmFdWidth i < 32 * k + 32)

/-- The contents of a stick disagree with the parity kept of them (R223). -/
def SortSt.stickBad (m : SortSt) : Bool := parity32 m.a != m.aPar || parity32 m.b != m.bPar

/-- The check that fails in a sort during a routine (R229, R223, R250, R238, R240): 0 none. -/
def romCheck (k : RomKind) (i : Nat) (m : SortSt) (en store : Bool) : Nat :=
  let reads := romReads k i
  if reads.any (m.bad.contains ·) || (en && store && (romMerges i).any (m.bad.contains ·)) then 3
  else if m.stickBad ∧ reads ≠ [] then 4
  else if m.upset = 5 ∧ k.news then 5
  else if m.upset = 1 ∧ k.residue ∧ en then 1
  else if m.upset = 2 ∧ en ∧ store then 2
  else 0

/-- One sort through a routine. A result formed under a failing check of the sort's own work is open, and so is the result
in a galley that loses a microword (R386): `fresh` numbers the free value. The words it corrects wait for idle write slots
(R228). Answers the check that failed and how many words were corrected. -/
def romSort (k : RomKind) (i fresh : Nat) (lost : Bool) (o : RomOut) (m : SortSt) : Nat × Nat × SortSt :=
  let en := m.enabled (fmCtx i)
  let code := romCheck k i m en o.d.isSome
  let openV := lost || (code != 0 && code != 3)
  let fixed := ((romReads k i).eraseDups.filter (m.weak.contains ·)).length
  let m1 := (romReads k i).foldl (fun m w => m.readWeak false w)
    (if code = 4 then { m with aPar := parity32 m.a, bPar := parity32 m.b } else m)
  let free := (Config.freeWord fresh).toNat + (Config.freeWord (fresh + 1)).toNat * 2 ^ 32
  let d := o.d.map fun v => if openV then free % 2 ^ fmFdWidth i else v
  let m2 := if en then (match d with
      | some v => m1.setField (fmFdAddr i) (fmFdWidth i) v
      | none => m1) else m1
  let put := fun (m : SortSt) (x : Nat × Bool) => m.setFlag x.1 (if openV then bit free (32 + x.1) else x.2)
  let m3 := if en then o.flags.foldl put m2 else m2
  let m4 := o.every.foldl put m3
  (code, fixed, { m4 with e := m.e || code != 0, upset := if code = 0 ∨ code = 3 then m.upset else 0 })

/-- The galleys in service that found bad parity in the microword just broadcast: each reports UWORD_PARITY, and void cause 4 is
set (R386). -/
def State.uwordChecked (s : State) : State :=
  if s.forme.uwordBad.isEmpty then s
  else
    let up := s.forme.uwordBad.filter fun g => s.galleyUp (g / 17) (g % 17)
    (up.foldl (fun s g => (s.report pgCOMPOSITOR 0x01C 4 ((g / 17 * 32 + g % 17) * 2 ^ 11) 0).setVoid 4) s).onForme fun x =>
      { x with uwordBad := [] }

/-- Every sort in service through a routine; with `all` the routine was cut short and what it would form is open. -/
def State.romArray (s : State) (all : Bool) (k : RomKind) (i : Nat) (f : Nat → Nat → SortSt → RomOut) : State :=
  let base := s.free
  let lost := fun (key : Nat) => all || s.forme.uwordBad.contains (key / 65536 * 17 + key / 2048 % 32)
  let s0 := s.skipFree (2 ^ 22)
  let r := s.logical.foldl (fun (x : List (Nat × Nat) × State) q =>
    let key := s.place q.1 q.2
    let m := s.sort key
    let y := romSort k i (base + 4 * key) (lost key) (f q.1 q.2 m) m
    let s1 := (x.2.setSort key y.2.2).caseCorrected (key / 65536) y.2.1
    (if y.1 ≠ 0 ∧ m.e = false then x.1 ++ [(key, y.1)] else x.1, s1)) ([], s0)
  let rises := r.1.mergeSort (fun a b => decide (a.1 ≤ b.1))
  let u := r.2.takeFree
  let ua := (Config.freeWord u.1).toNat % 0x8000
  let s2 := if rises.isEmpty then r.2 else u.2.raiseE (rises.map fun x => (x.1, x.2, ua))
  s2.uwordChecked

end Sys2Proof.Machine
end

