-- ==== Sys2Proof/Machine/Micro.lean ====
section
/-!
DEFINITION. Microwords: fetching, fields, one Fc cycle in one sort and in the array, sequencing (spec/06 R370 to R389, R396,
R408 to R411; spec/04 R212 to R249).
-/
namespace Sys2Proof.Machine

/-! ## Reserved codes (R373, R374) -/

/-- A reserved code in a field that the word's SEQ operation uses. -/
def mwReserved (w : Nat) : Bool :=
  let q := bits w 161 159
  let cond := bits w 142 138
  if q = 7 then true
  else if q = 6 then cond == 15
  else
    bits w 124 123 == 3 || bits w 122 121 == 3 || decide (4 < bits w 120 118) || bits w 105 104 == 3 || bits w 70 69 == 3 ||
    decide (8 < bits w 30 27) || decide (10 < bits w 26 23) || decide (8 < bits w 22 19) || bits w 18 17 == 3 ||
    decide (5 < bits w 11 9) || bits w 8 7 == 3 || decide (1 < bits w 4 3) ||
    (if q = 4 then !(cond == 1 || cond == 2) else q != 0 && cond == 15)

/-! ## One sort in one cycle (R212 to R249) -/

/-- What the cycle gives every sort alike: the microword and its microaddress, the Fc cycle, context, word addresses of the
loads and the store with the cycles at whose end they fill and commit, pointers, the immediate bit; and whether the sort's
galley lost the word. -/
structure MicroCtx where
  w : Nat
  ua : Nat
  t : Nat
  ctx : Nat
  aLoad : Option (Nat × Nat)
  bLoad : Option (Nat × Nat)
  store : Option (Nat × Nat × Nat)
  aptr : Nat
  bptr : Nat
  wptr : Nat
  imm : Bool
  lost : Bool

/-- Flag code of ASRC, BSRC and FDST: C, K, X, P, T0 to T3 from `base` upwards. -/
def srcFlag (code base : Nat) : Nat := code - base

/-- The a input (R213). -/
def microA (x : MicroCtx) (m : SortSt) : Bool :=
  let c := bits x.w 30 27
  if c = 0 then bit m.a x.aptr else m.flag (srcFlag c 1)

/-- The b input (R213); `news` is the bit that arrives on the link. -/
def microB (x : MicroCtx) (news : Bool) (m : SortSt) : Bool :=
  let c := bits x.w 26 23
  if c = 0 then bit m.b x.bptr else if c = 1 then news else if c = 2 then x.imm else m.flag (srcFlag c 3)

/-- The sort is enabled in the cycle (R217, CTX_USE). -/
def microEnabled (x : MicroCtx) (m : SortSt) : Bool :=
  let u := bits x.w 18 17
  !x.lost && (if u = 0 then m.enabled x.ctx else if u = 1 then m.flag 1 else false)

/-- The ports of a sort. DEDUCED from the worked example of chapter 6: under CTX_USE = none they follow the instruction's
context (notes/assumptions/18.md). -/
def microPort (x : MicroCtx) (m : SortSt) : Bool :=
  !x.lost && (if bits x.w 18 17 = 1 then m.flag 1 else m.enabled x.ctx)

/-- Residue control (R235 to R238, R376): answers whether a CHECK fails. -/
def microResidue (x : MicroCtx) (a b r c nc : Bool) (m : SortSt) : Bool × SortSt :=
  let tt := (bits x.w 46 39, bits x.w 38 31)
  let res := bits x.w 6 5
  if res = 0 ∨ ¬(tt = (0x96, 0xE8) ∨ tt = (0x69, 0xB2)) then (false, m)
  else if res = 1 then (false, { m with ra := 0, rb := 0, rw := 0, wn := 0, c0 := c })
  else
    let wt := if m.wn % 2 = 0 then 1 else 2
    let b' := if tt.1 = 0x96 then b else !b
    let m1 := { m with ra := (m.ra + b2n a * wt) % 3, rb := (m.rb + b2n b' * wt) % 3, rw := (m.rw + b2n r * wt) % 3
                       wn := m.wn + 1 }
    if res = 2 then (false, m1)
    else ((m1.ra + m1.rb + b2n m1.c0) % 3 != (m1.rw + b2n nc * 2 ^ m1.wn) % 3 || m.upset == 1, m1)

/-- One load issued: the word is read now, and fills its stick later; a bad word is delivered as stored, a weak one
corrected and left for an idle write slot (R221, R228, R229). -/
def microLoad (isA : Bool) (l : Option (Nat × Nat)) (ua : Nat) (m : SortSt) : Bool × Nat × SortSt :=
  match l with
  | none => (false, 0, m)
  | some (k, fillAt) =>
    (m.bad.contains k, b2n (m.weak.contains k), { (m.readWeak false k) with loads := m.loads ++ [(fillAt, isA, m.word k, ua)] })

/-- The check that fails in a sort in a cycle, of those that hold: a bad word read, a check of its ports, a stick stored
from, the link, the residue, the two evaluations; its code and microaddress. -/
def firstCheck (ua : Nat) (load : Bool) (port : Option (Nat × Nat)) (stick link residue parity : Bool) : Option (Nat × Nat) :=
  if load then some (3, ua)
  else port.or (if stick then some (4, ua) else if link then some (5, ua) else if residue then some (1, ua)
    else if parity then some (2, ua) else none)

/-- One cycle of one sort: the check that fails, with its microaddress; words corrected; and the sort (R212 to R241). `news`
is the bit that arrives on the link. A store checks the sticks its contents came from (R223, R240). -/
def microSort (x : MicroCtx) (news : Option Bool) (free : Bool) (m : SortSt) : Option (Nat × Nat) × Nat × SortSt :=
  let en := microEnabled x m
  let port := microPort x m
  let a := microA x m
  let b := microB x (news.getD free) m
  let c := m.flag 0
  let i := 4 * b2n a + 2 * b2n b + b2n c
  let r := bit (bits x.w 46 39) i
  let nc := bit (bits x.w 38 31) i
  let fd := bits x.w 22 19
  let we := bit x.w 47
  -- the ALU
  let m1 := if en && we then { m with w := setBit m.w x.wptr r, par1 := m.par1 != r, par2 := m.par2 != r } else m
  let m2 := if en then (if fd = 1 then m1 else m1.setFlag 0 nc) else m1
  let m3 := if fd ≠ 0 ∧ (en ∨ fd = 2 ∨ fd = 3) ∧ x.lost = false then m2.setFlag (fd - 1) r else m2
  let rc := if en then microResidue x a b r c nc m3 else (false, m3)
  -- the ports
  let la := if port then microLoad true x.aLoad x.ua rc.2 else (false, 0, rc.2)
  let lb := if port then microLoad false x.bLoad x.ua la.2.2 else (false, 0, la.2.2)
  let st := if port then x.store else none
  let m4 := match st with
    | some (k, at_, mask) =>
      { lb.2.2 with stores := lb.2.2.stores ++ [(at_, k, m.w, mask, x.ua)], par1 := false, par2 := false }
    | none => lb.2.2
  let pe := m4.portsEnd x.t
  -- the link
  let m5 := if bit x.w 16 then { pe.2 with sent2 := m.sent1, sent1 := a } else pe.2
  let code := firstCheck x.ua (la.1 || lb.1) pe.1 (st.isSome && m.stickBad) (news.isSome && m.upset == 5) rc.1
    (st.isSome && (m.par1 != m.par2 || m.upset == 2))
  (code, la.2.1 + lb.2.1,
    { m5 with e := m.e || code.isSome, upset := if code = some (m.upset, x.ua) then 0 else m.upset })

/-! ## One cycle of the array -/

/-- The word address of a port access and the pointer after it (A_MODE, B_MODE, W_MODE). -/
def portAddr (mode addr ptr : Nat) : Option Nat × Nat :=
  if mode = 0 then (none, ptr) else if mode = 1 then (some addr, ptr)
  else (some ((ptr + addr) % 512), if mode = 3 then (ptr + 1) % 512 else ptr)

/-- The bits a store writes (W_MASK). -/
def storeMask (i wmask k wptr : Nat) : Nat :=
  if wmask = 0 then 0xFFFFFFFF
  else if wmask = 2 then 2 ^ wptr
  else maskOf 32 fun j => decide (fmFdAddr i ≤ 32 * k + j) && decide (32 * k + j < fmFdAddr i + fmFdWidth i)

/-- A stick pointer after its operation. -/
def ptrOp (op v desc p : Nat) : Nat := if op = 0 then p else if op = 1 then (p + 1) % 32 else if op = 2 then v else desc

/-- The bit that arrives on the link of the sort at (x, y) in Fc cycle t (R246 to R249): the LOCAL send of the cycle before,
else the GLOBAL send of two cycles before; none where neither was sent. -/
def State.newsBit (s : State) (t : Nat) (imm : Bool) (x y : Nat) : Option Bool :=
  let find := fun (ago : Nat) (g : Bool) => s.seq.news.zipIdx.find? fun n => n.1.1 + ago == t && n.1.2.2 == g
  match (find 1 false).or (find 2 true) with
  | none => none
  | some (n, i) => match s.newsSource n.2.1 n.2.2 x y with
    | some q => let m := s.sort (s.place q.1 q.2); some (if i = 0 then m.sent1 else m.sent2)
    | none => some imm

/-- Every sort in service through one microword. -/
def State.microArray (s : State) (x : MicroCtx) : State :=
  let fr := s.takeFree
  let r := s.logical.foldl (fun (acc : List (Nat × Nat × Nat) × State) q =>
    let key := s.place q.1 q.2
    let m := s.sort key
    let lost := s.forme.uwordBad.contains (key / 65536 * 17 + key / 2048 % 32)
    let free := (Config.freeWord (fr.1 + key)).getLsbD 0
    let y := microSort { x with lost := lost } (s.newsBit x.t x.imm q.1 q.2) free m
    let s1 := (acc.2.setSort key y.2.2).caseCorrected (key / 65536) y.2.1
    (match y.1 with
      | some c => if m.e then acc.1 else acc.1 ++ [(key, c)]
      | none => acc.1, s1)) ([], fr.2.skipFree (2 ^ 20))
  (r.2.raiseE (r.1.mergeSort fun a b => decide (a.1 ≤ b.1))).uwordChecked

/-- An idle cycle of a port counts towards a slot of two (R221, R226): the cycles it has stood idle, and whether a slot has
passed. -/
def idleCount (used : Bool) (n : Nat) : Nat × Bool := if used then (0, false) else if n = 0 then (1, false) else (0, true)

/-- The end of Fc cycle t for the ports: two idle cycles in a row are an idle slot (R221, R226, R228, R231, R278). -/
def State.portTick (s : State) (t : Nat) : State :=
  let r := idleCount (decide (t + 2 ≤ s.seq.rnext)) s.seq.ridle
  let w := idleCount (decide (t + 2 ≤ s.seq.wnext)) s.seq.widle
  let s1 := s.onSeq fun q => { q with ridle := r.1, widle := w.1 }
  let s2 := if w.2 then s1.writeSlot else s1
  (if r.2 then s2.readSlot else s2).ioSettle

/-- n Fc cycles of a WAIT: the ports end what they do, and every two cycles are an idle slot of each (R279, R380). -/
def State.waitCycles (s : State) (n : Nat) : State :=
  let s1 := (s.settlePorts (s.seq.fc + n - 1)).ioProgress (decide (2 ≤ n))
  let slots := if s1.forme.scrubDue = false ∧ (s1.forme.sorts.all fun x => x.2.fixes.isEmpty && !x.2.latchFull) ∧ s1.forme.io.isNone then 0
    else min ((s1.seq.widle + n) / 2) 1024
  ((List.range slots).foldl (fun s _ => s.writeSlot.readSlot) s1).ioSettle.onSeq fun q =>
    { q with fc := q.fc + n, ridle := (q.ridle + n) % 2, widle := (q.widle + n) % 2 }

/-- The sticks and the residue state as a ROM routine left them are open to the customer routine that follows it. -/
def State.openSticks (s : State) : State :=
  if s.seq.sticksOpen = false then s
  else
    let base := s.free
    let v := fun (n : Nat) => (Config.freeWord n).toNat
    let s0 := s.logical.foldl (fun s q =>
      let key := s.place q.1 q.2
      let m := s.sort key
      let n := base + 8 * key
      s.setSort key { m with a := v n, b := v (n + 1), w := v (n + 2), ra := v (n + 3) % 3, rb := v (n + 4) % 3,
                             rw := v (n + 5) % 3, wn := v (n + 6) % 2, c0 := bit (v (n + 7)) 0
                             aPar := parity32 (v n), bPar := parity32 (v (n + 1)) }) s
    (s0.skipFree (2 ^ 23 + 3)).onSeq fun q =>
      { q with sticksOpen := false, aptr := v (base + 2 ^ 23) % 32, bptr := v (base + 2 ^ 23 + 1) % 32
               wptr := v (base + 2 ^ 23 + 2) % 32 }

/-! ## Fetching (R384, R396) -/

/-- The match register in effect for a ROM microaddress: the lowest that names it (R396). -/
def State.matchOf (s : State) (u : Nat) : Option Nat :=
  firstBelow 64 fun k => s.on pgCSTORE CSTORE_MATCH_VALID (k + 1) && s.get pgCSTORE CSTORE_MATCH_ROM_UADDR (k + 1) == u

/-- Where the word of a microaddress is fetched: in patch RAM where a match register names it (R396). -/
def State.fetchAt (s : State) (u : Nat) : Nat :=
  if u < 0x8000 then
    match s.matchOf u with
    | some k => 0xA000 + s.get pgCSTORE CSTORE_MATCH_PATCH (k + 1)
    | none => u
  else u

/-- A microword; those of the foundry ROM are not published. -/
def State.microwordAt (s : State) (u : Nat) : Nat :=
  if u < 0x8000 then ofLE ((List.range 22).map fun j => Config.romByte (cstoreBase + 32 * u + j)) else SMap.get 0 s.cstore.words u

/-- A ROM routine runs microword by microword where a match register, or a mark of a word with an error, names a microaddress it
fetches: its first, or another that is not published (R384, R396). -/
def State.romTouched (s : State) (op u : Nat) : Bool :=
  let hit := fun a => decide (a < 0x8000) && (a == u || Config.romFetches op a)
  ((List.range 64).any fun k => s.on pgCSTORE CSTORE_MATCH_VALID (k + 1) && hit (s.get pgCSTORE CSTORE_MATCH_ROM_UADDR (k + 1))) ||
  s.cstore.bad.any hit || s.cstore.weak.any hit

/-! ## Conditions and sequencing (R375, R378 to R383) -/

/-- A wait condition of R340 in Fc cycle `at_`. -/
def State.waitHolds (s : State) (cond line : Nat) (ticked : Bool) (at_ : Nat) : Bool :=
  match cond with
  | 0 => s.platenSettled at_
  | 1 => s.forme.io.isNone
  | 2 => s.impose.ready.any fun m => decide (s.comp.block ≤ m)
  | 3 => ticked
  | _ => (SMap.get EvtLine.reset s.evt.lines line).filtered

/-- A condition of R375 in Fc cycle `at_`, before CPOL. -/
def State.microCond (s : State) (c : Routine) (code at_ : Nat) : Bool :=
  let i := c.instr
  if code = 0 then true
  else if code = 1 then c.lc0 == 0
  else if code = 2 then c.lc1 == 0
  else if code ≤ 7 then s.waitHolds (code - 3) (bits (fmMod i) 6 3) c.ticked at_
  else if code = 8 then fmFaWidth i != 0
  else if code = 9 then fmFbWidth i != 0
  else if code = 10 then fmFdWidth i != 0
  else if code = 11 then s.seq.aptr == 31
  else if code = 12 then s.seq.bptr == 31
  else if code = 13 then s.seq.wptr == 31
  else if code = 14 then decide (fmFdWidth i ≤ c.bi)
  else if code = 15 then false
  else bit (fmMod i) (code - 16)

/-- A loop counter after a microword: a load wins; a decrement happens once (R381). -/
def counterOp (op load old : Nat) (loop : Bool) : Nat :=
  if op = 1 then load else if op = 2 ∨ loop then old - 1 else old

/-- The load value of LC_SRC. -/
def counterLoad (w i : Nat) : Nat :=
  let k := bits w 120 118
  if k = 0 then bits w 117 106 else if k = 1 then fmFaWidth i - 1 else if k = 2 then fmFbWidth i - 1
  else if k = 3 then fmFdWidth i - 1 else bits (fmScalar i) 11 0

/-- Where a microword goes: on at an address, with the return stack after it; the routine's end; an abandonment. -/
inductive MicroNext where
  | goto (u : Nat) (stack : List Nat)
  | done
  | fail (cause : Nat)
deriving DecidableEq, Repr

/-- A transfer from one microaddress to another (R383): within the customer store; from ROM and patch RAM into ROM; within
patch RAM. -/
def microGo (from_ u : Nat) (stack : List Nat) : MicroNext :=
  if 0x8000 ≤ from_ ∧ from_ ≤ 0x9FFF then (if 0x8000 ≤ u ∧ u ≤ 0x9FFF then .goto u stack else .fail 5)
  else if u < 0x8000 then .goto u stack
  else if 0xA000 ≤ from_ ∧ 0xA000 ≤ u ∧ u ≤ 0xA3FF then .goto u stack else .fail 5

/-- Sequencing of a microword other than WAIT (R374, R378, R382, R383). -/
def microNext (c : Routine) (w : Nat) (cond : Bool) : MicroNext :=
  let q := bits w 161 159
  let next := bits w 158 143
  let on := c.uaddr + 1
  if q = 0 then microGo c.uaddr on c.stack
  else if q = 1 then microGo c.uaddr (if cond then next else on) c.stack
  else if q = 2 then
    (if cond then (if 4 ≤ c.stack.length then .fail 4 else microGo c.uaddr next (on :: c.stack)) else microGo c.uaddr on c.stack)
  else if q = 3 then
    (if cond then (match c.stack with
      | [] => .fail 4
      | u :: us => microGo c.uaddr u us) else microGo c.uaddr on c.stack)
  else if q = 4 then
    (let n := if bits w 142 138 = 1 then c.lc0 else c.lc1
     microGo c.uaddr (if n ≠ 0 then next else on) c.stack)
  else (if cond then .done else microGo c.uaddr on c.stack)

/-- A transfer that a microword starts: checked and refused as one of FM.LDG or FM.STG (R377). -/
def State.microGio (s : State) (i : Nat) (inbound : Bool) : State :=
  let t := transferOf i inbound
  let cause := if t.mode = 3 ∨ (t.mode = 2 ∧ inbound = false) then some 7 else if t.badRange then some 9 else none
  match cause with
  | some k => ((s.count pgCOMPOSITOR COMP_REFUSED).report pgCOMPOSITOR 0x010 2 0 (k * 2 ^ 24 + fmOp i)).setVoid 1
  | none => s.ioStart t

/-- The running routine abandoned in the cycle of its current microword; when its budget ends in that cycle too, BUDGET is the
lower code (R389). -/
def State.microFail (s : State) (cause : Nat) : State :=
  match s.seq.cur with
  | none => s
  | some c => s.abandon (if c.budget ≤ c.cycles + 1 then min 1 cause else cause)

/-- One microword other than WAIT. -/
def State.microWord (s : State) (c : Routine) (w : Nat) : State :=
  let i := c.instr
  let t := s.seq.fc
  let q := bits w 161 159
  let s0 := s.ioProgress false
  let cond := (s.microCond c (bits w 142 138) t) != bit w 137
  let imm := if bits w 4 3 = 0 then bit w 2 else if c.bi < 32 then bit (fmScalar i) c.bi else bit (fmScalar i) 31
  let pa := portAddr (bits w 103 102) (bits w 101 93) c.pa
  let pb := portAddr (bits w 92 91) (bits w 90 82) c.pb
  let pw := portAddr (bits w 81 80) (bits w 79 71) c.pw
  let fillA := max (t + 1) s.seq.rnext
  let ra := if pa.1.isSome then fillA + 2 else s.seq.rnext
  let fillB := max (t + 1) ra
  let rb := if pb.1.isSome then fillB + 2 else ra
  let done := max (t + 1) s.seq.wnext
  let x : MicroCtx :=
    { w := w, ua := c.uaddr, t := t, ctx := fmCtx i, aLoad := pa.1.map fun k => (k, fillA), bLoad := pb.1.map fun k => (k, fillB)
      store := pw.1.map fun k => (k, done, storeMask i (bits w 70 69) k s.seq.wptr), aptr := s.seq.aptr
      bptr := s.seq.bptr, wptr := s.seq.wptr, imm := imm, lost := false }
  let s1 := s0.microArray x
  let plt := bits w 11 9
  let s2 := if plt = 0 then s1 else s1.platenIssue plt (fmGreg i)
  let gio := bits w 8 7
  let busy := gio != 0 && s2.forme.io.isSome
  let s3 := if gio = 0 ∨ busy then s2 else s2.microGio i (gio == 1)
  let lp := q == 4
  let dir := if bit w 15 then (fmDir i, fmGlobal i) else (bits w 14 13, bit w 12)
  let bi := bits w 105 104
  let c1 : Routine :=
    { c with cycles := c.cycles + 1
             lc0 := counterOp (bits w 124 123) (counterLoad w i) c.lc0 (lp && bits w 142 138 == 1)
             lc1 := counterOp (bits w 122 121) (counterLoad w i) c.lc1 (lp && bits w 142 138 == 2)
             bi := if bi = 1 then 0 else if bi = 2 then min 127 (c.bi + 1) else c.bi
             pa := if bit w 163 then bits (fmFaAddr i) 13 5 else pa.2
             pb := if bit w 164 then bits (fmFbAddr i) 13 5 else pb.2
             pw := if bit w 165 then bits (fmFdAddr i) 13 5 else pw.2 }
  let s4 := (s3.onSeq fun z =>
    { z with fc := z.fc + 1, upset := false, rnext := rb, wnext := if pw.1.isSome then done + 2 else z.wnext
             aptr := ptrOp (bits w 68 67) (bits w 66 62) (fmFaAddr i % 32) z.aptr
             bptr := ptrOp (bits w 61 60) (bits w 59 55) (fmFbAddr i % 32) z.bptr
             wptr := ptrOp (bits w 54 53) (bits w 52 48) (fmFdAddr i % 32) z.wptr
             news := if bit w 16 then (t, dir.1, dir.2) :: z.news.take 1 else z.news
             cur := some c1 }).portTick t
  let nx := microNext c w cond
  let fail := match nx with
    | .fail k => some k
    | _ => if busy then some 7 else if s.seq.upset then some 8 else none
  match fail with
  | some k => (s4.onSeq fun z => { z with cur := some c }).microFail k
  | none => match nx with
    | .goto u st => s4.onSeq fun z => { z with cur := some { c1 with uaddr := u, stack := st } }
    | _ => s4.endRoutine 0

/-- The limit of a WAIT microword (R379). -/
def waitLimit (w i : Nat) : Nat := if bits w 136 125 = 0 then fmScalar i else bits w 136 125

/-- A microword tests a condition that commands change: galley I/O done, Stone data ready, a tick, an external event (R375). -/
def testsOutside (w : Nat) : Bool :=
  let q := bits w 161 159
  (q == 1 || q == 2 || q == 3 || q == 5) && decide (4 ≤ bits w 142 138) && decide (bits w 142 138 ≤ 7)

/-- The condition of the WAIT word w, with CPOL, in Fc cycle `at_`. -/
def State.microHolds (s : State) (c : Routine) (w at_ : Nat) : Bool := (s.microCond c (bits w 142 138) at_) != bit w 137

/-- A WAIT microword in one cycle (R379, R380, R385, R386): it ends where its condition holds, and else stays. -/
def State.microWait (s : State) (c : Routine) (w : Nat) : State :=
  let s1 := s.uwordChecked
  if s.seq.upset then (((s1.waitCycles 1).onSeq fun z => { z with upset := false }).microFail 8)
  else if s.microHolds c w s.seq.fc then
    match microGo c.uaddr (c.uaddr + 1) c.stack with
    | .goto u st =>
      (s1.waitCycles 1).onSeq fun z => { z with cur := some { c with uaddr := u, stack := st, cycles := c.cycles + 1, wait := none } }
    | _ => (s1.waitCycles 1).microFail 5
  else s1.onSeq fun z => { z with cur := some { c with wait := some (c.wait.getD 0) } }

/-- Microwords run until the routine ends, is abandoned, waits, or comes to one after the first that tests a condition which
commands change (R373, R378 to R389). `fuel` is what is left of the routine budget; its end abandons the routine with cause
BUDGET (R387). -/
def State.microRun (s : State) (first : Bool) : (fuel : Nat) → State
  | 0 => s.abandon 1
  | n + 1 =>
    match s.seq.cur with
    | none => s
    | some c0 =>
      let c := { c0 with uaddr := s.fetchAt c0.uaddr }
      let w := s.microwordAt c.uaddr
      let s := s.onSeq fun z => { z with cur := some c }
      if !first && testsOutside w then s
      else if s.cstore.bad.contains c.uaddr then ((s.count pgCSTORE CSTORE_UNCORR).event pgCSTORE 0).microFail 6
      else
        let s1 := if s.cstore.weak.contains c.uaddr then s.count pgCSTORE CSTORE_CORRECTED else s
        if mwReserved w then s1.microFail 3
        else if bits w 161 159 = 6 then
          let s2 := s1.microWait c w
          if s2.seq.cur.any (·.wait.isSome) then s2 else s2.microRun false n
        else (s1.microWord c w).microRun false n

/-- The routine that the sequencer dispatched runs on, microword by microword. Where it stands at a WAIT, the condition held
after `n` cycles of it, within its limit and the budget (R379, R387). -/
def State.microGoOn (s : State) (n : Nat) : State :=
  match s.seq.cur with
  | none => s
  | some c =>
    if c.micro = false then s
    else match c.wait with
      | none => (if c.cycles = 0 then s.openSticks else s).microRun true (c.budget - c.cycles)
      | some _ =>
        let w := s.microwordAt c.uaddr
        if s.microHolds c w (s.seq.fc + n) = false ∨ waitLimit w c.instr ≤ n ∨ c.budget ≤ c.cycles + n then s
        else
          let s1 := if n = 0 then s else s.waitCycles n
          (s1.onSeq fun z => { z with cur := some { c with cycles := c.cycles + n } }).microRun true (c.budget - c.cycles - n)

/-- CUSTOMER_ROUTINE (R312, R378 to R389): the customer routine that the sequencer dispatched, or a patched ROM routine,
runs its microwords; `n` as for a WAIT it stands at. -/
def execCustomerRoutine (n : Nat) (s : State) : Result := .next (s.microGoOn n)

/-- The condition of a running FM.WAIT in Fc cycle `at_`. -/
def State.fmWaitHolds (s : State) (c : Routine) (at_ : Nat) : Bool :=
  s.waitHolds (bits (fmMod c.instr) 2 0) (bits (fmMod c.instr) 6 3) c.ticked at_

/-- WAIT_TIMEOUT (R343, R379): a wait expires without its condition; the routine is abandoned, or continues at NEXT. -/
def execWaitTimeout (s : State) : Result :=
  match s.seq.cur with
  | none => .next s
  | some c =>
    let budget := c.budget
    if c.wait.isNone then .next s
    else if c.micro = false then
      let l := fmScalar c.instr
      if s.fmWaitHolds c (s.seq.fc + l - 1) ∨ budget ≤ l then .next s else .next ((s.waitCycles l).abandon 2)
    else
      let w := s.microwordAt c.uaddr
      let l := max 1 (waitLimit w c.instr)
      if s.microHolds c w (s.seq.fc + l - 1) ∨ budget ≤ c.cycles + l then .next s
      else
        let s1 := s.waitCycles l
        if bit w 162 then
          match microGo c.uaddr (bits w 158 143) c.stack with
          | .goto u st =>
            .next (s1.onSeq fun z => { z with cur := some { c with uaddr := u, stack := st, cycles := c.cycles + l, wait := none } })
          | _ => .next (s1.abandon 5)
        else .next (s1.abandon 2)

/-- What a ROM routine cut short leaves: its destination and the flags it writes are open where the sort is enabled
(R388). -/
def romOpen (i : Nat) (_ : SortSt) : RomOut :=
  match fmUse (fmOp i) with
  | some u => { d := if u.d then some 0 else none, flags := if u.d then [(0, false)] else [] }
  | none => {}

/-- ROUTINE_BUDGET_EXPIRY (R387): the running routine reaches COMP_ROUTINE_BUDGET, in its passes or in a wait. -/
def execRoutineBudgetExpiry (s : State) : Result :=
  match s.seq.cur with
  | none => .next s
  | some c =>
    let i := c.instr
    let budget := c.budget
    if c.wait.isSome then
      let w := s.microwordAt c.uaddr
      let left := budget - c.cycles
      let holds := if c.micro then s.microHolds c w (s.seq.fc + left - 1) else s.fmWaitHolds c (s.seq.fc + left - 1)
      let limit := if c.micro then c.cycles + max 1 (waitLimit w i) else fmScalar i
      if holds ∨ limit < budget then .next s else .next ((s.waitCycles left).abandon 1)
    else if c.micro then .next s
    else if (fmOp i = 0x038 ∨ fmOp i = 0x039) ∧ s.forme.io.isSome then .next ((s.waitCycles budget).abandon 1)
    else if (fmOp i = 0x010 ∨ fmOp i = 0x011) ∧ budget < fmFaWidth i * fmFbWidth i + 2 * fmFaWidth i +
        (if fmOp i = 0x010 then 6 else fmFdWidth i + 10) then
      .next (((s.romArray true { cycles := budget } i fun _ _ m => romOpen i m).onSeq fun q =>
        { q with fc := q.fc + budget, sticksOpen := true }).abandon 1)
    else .next s

end Sys2Proof.Machine
end

