-- ==== Sys2Proof/Machine/Forme.lean ====
section
/-!
DEFINITION. The commands of the Forme array: ROM routines, Platen, galley transfers, waits, scrub, E_CLEAR and the debug
window (spec/04, spec/05). A routine's command runs the routine that the sequencer dispatched; without it, nothing happens.
-/
namespace Sys2Proof.Machine

/-! ## ROM routines (R313 to R325) -/

/-- Idle slots of the ports that a ROM routine left, which the specification does not give: a free number of at most one in two
cycles (R279). -/
def State.romSlots (s : State) (cycles : Nat) : State :=
  if s.forme.scrubDue = false ∧ (s.forme.sorts.all fun x => x.2.fixes.isEmpty) then s
  else
    let u := s.takeFree
    (List.range (min ((Config.freeWord u.1).toNat % (cycles / 2 + 1)) 1024)).foldl (fun s _ => s.writeSlot.readSlot) u.2

/-- The routine of opcode `op` runs to its end: the transfer in progress goes on, the array takes the routine's effect, and
its Fc cycles pass (R305, R306, R387); a comparison of the sequencer's copies that fails abandons it on the way, its effect
open (R385). A store still on its way from the routine before commits in the first cycle, and whether a read of its word
meets the old value is open (R226, R409). A routine that a patch touches runs microword by microword (R396). Without that
routine running, or when the budget ends it first, nothing. -/
def State.rom (s : State) (op : Nat) (k : Nat → RomKind) (f : Nat → State → Nat → Nat → SortSt → RomOut) : State :=
  match s.seq.cur with
  | none => s
  | some c =>
    if fmOp c.instr ≠ op then s
    else if c.micro then s.microGoOn 0
    else if c.budget < (k c.instr).cycles then s
    else
      let open_ := s.forme.sorts.any fun x => !x.2.stores.isEmpty
      let u := if open_ then s.takeFree else (0, s)
      let s1 := (u.2.settlePorts (s.seq.fc + 2)).ioProgress true
      let view := if open_ && (Config.freeWord u.1).getLsbD 0 then u.2 else s1
      if s.seq.upset then
        ((s1.romArray true (k c.instr) c.instr fun x y _ => f c.instr view x y (view.sort (view.place x y))).onSeq fun q =>
          { q with sticksOpen := true, upset := false }).abandon 8
      else
        let s2 := s1.romArray false (k c.instr) c.instr fun x y _ => f c.instr view x y (view.sort (view.place x y))
        ((s2.ioProgress true).romSlots (k c.instr).cycles |>.onSeq fun q => { q with sticksOpen := true, ridle := 0, widle := 0 }).endRoutine
          (k c.instr).cycles

/-- FM_NOP (R313). -/
def execFmNop (s : State) : Result :=
  .next (s.rom 0x000 (fun _ => { cycles := 1 }) fun _ _ _ _ _ => {})

/-- FM_MOV (R313): D := A, shifted left under R301. -/
def execFmMov (s : State) : Result :=
  .next (s.rom 0x001 (fun i => { cycles := fmFdWidth i + 4 }) fun i _ _ _ m => romMov i m)

/-- FM_MOVH (R313): D := A, high bit first. -/
def execFmMovh (s : State) : Result :=
  .next (s.rom 0x002 (fun i => { cycles := fmFdWidth i + 4 }) fun i _ _ _ m => romMovh i m)

/-- FM_SETI (R313): D := SCALAR, extended. -/
def execFmSeti (s : State) : Result :=
  .next (s.rom 0x003 (fun i => { cycles := fmFdWidth i + 3 }) fun i _ _ _ m => romSeti i m)

/-- FM_GETF (R313): a flag into D. -/
def execFmGetf (s : State) : Result :=
  .next (s.rom 0x004 (fun i => { cycles := fmFdWidth i + 3 }) fun i _ _ _ m => romGetf i m)

/-- FM_ADD (R314): D := A + B; C := carry out. -/
def execFmAdd (s : State) : Result :=
  .next (s.rom 0x008 (fun i => { cycles := fmFdWidth i + 4, residue := true }) fun i _ _ _ m => romAdd i m)

/-- FM_ADDC (R314): D := A + B + C. -/
def execFmAddc (s : State) : Result :=
  .next (s.rom 0x009 (fun i => { cycles := fmFdWidth i + 4, residue := true }) fun i _ _ _ m => romAddc i m)

/-- FM_SUB (R314): D := A − B; C := NOT borrow. -/
def execFmSub (s : State) : Result :=
  .next (s.rom 0x00A (fun i => { cycles := fmFdWidth i + 4, residue := true }) fun i _ _ _ m => romSub i m)

/-- FM_SUBC (R314): D := A + NOT B + C. -/
def execFmSubc (s : State) : Result :=
  .next (s.rom 0x00B (fun i => { cycles := fmFdWidth i + 4, residue := true }) fun i _ _ _ m => romSubc i m)

/-- FM_NEG (R314): D := 0 − A. -/
def execFmNeg (s : State) : Result :=
  .next (s.rom 0x00C (fun i => { cycles := fmFdWidth i + 4, residue := true }) fun i _ _ _ m => romNeg i m)

/-- FM_ABS (R316). -/
def execFmAbs (s : State) : Result :=
  .next (s.rom 0x00D (fun i => { cycles := fmFdWidth i + 6, residue := true }) fun i _ _ _ m => romAbs i m)

/-- FM_ADDS (R315): the exact sum clipped to the range of D. -/
def execFmAdds (s : State) : Result :=
  .next (s.rom 0x00E (fun i => { cycles := 2 * fmFdWidth i + 7, residue := true }) fun i _ _ _ m => romAdds i m)

/-- FM_SUBS (R315): the exact difference clipped. -/
def execFmSubs (s : State) : Result :=
  .next (s.rom 0x00F (fun i => { cycles := 2 * fmFdWidth i + 7, residue := true }) fun i _ _ _ m => romSubs i m)

/-- FM_MUL (R317): the exact product modulo 2^wD. -/
def execFmMul (s : State) : Result :=
  .next (s.rom 0x010 (fun i => { cycles := fmFaWidth i * fmFbWidth i + 2 * fmFaWidth i + 6, residue := true }) fun i _ _ _ m => romMul i m)

/-- FM_MAC (R317): D := D + product; C is the carry of D plus the product modulo 2^wD. -/
def execFmMac (s : State) : Result :=
  let cycles := fun (i : Nat) => fmFaWidth i * fmFbWidth i + 2 * fmFaWidth i + fmFdWidth i + 10
  .next (s.rom 0x011 (fun i => { cycles := cycles i, residue := true, readD := true }) fun i _ _ _ m => romMac i m)

/-- FM_AND (R318). -/
def execFmAnd (s : State) : Result :=
  .next (s.rom 0x018 (fun i => { cycles := fmFdWidth i + 4 }) fun i _ _ _ m => romAnd i m)

/-- FM_OR (R318). -/
def execFmOr (s : State) : Result :=
  .next (s.rom 0x019 (fun i => { cycles := fmFdWidth i + 4 }) fun i _ _ _ m => romOr i m)

/-- FM_XOR (R318). -/
def execFmXor (s : State) : Result :=
  .next (s.rom 0x01A (fun i => { cycles := fmFdWidth i + 4 }) fun i _ _ _ m => romXor i m)

/-- FM_ANDN (R318). -/
def execFmAndn (s : State) : Result :=
  .next (s.rom 0x01B (fun i => { cycles := fmFdWidth i + 4 }) fun i _ _ _ m => romAndn i m)

/-- FM_NOT (R318). -/
def execFmNot (s : State) : Result :=
  .next (s.rom 0x01C (fun i => { cycles := fmFdWidth i + 4 }) fun i _ _ _ m => romNot i m)

/-- FM_BOOL (R318). -/
def execFmBool (s : State) : Result :=
  .next (s.rom 0x01D (fun i => { cycles := fmFdWidth i + 4 }) fun i _ _ _ m => romBool i m)

/-- FM_CMP (R319, R321). -/
def execFmCmp (s : State) : Result :=
  .next (s.rom 0x020 (fun i => { cycles := cmpWidth i + 5, residue := true }) fun i _ _ _ m => romCmp i m)

/-- FM_TST (R319). -/
def execFmTst (s : State) : Result :=
  .next (s.rom 0x021 (fun i => { cycles := fmFaWidth i + 4 }) fun i _ _ _ m => romTst i m)

/-- FM_FLAG (R320). -/
def execFmFlag (s : State) : Result :=
  .next (s.rom 0x022 (fun _ => { cycles := 3 }) fun i _ _ _ m => romFlag i m)

/-- FM_SEL (R319). -/
def execFmSel (s : State) : Result :=
  .next (s.rom 0x023 (fun i => { cycles := fmFdWidth i + 4 }) fun i _ _ _ m => romSel i m)

/-- FM_MAX (R319). -/
def execFmMax (s : State) : Result :=
  .next (s.rom 0x024 (fun i => { cycles := max (fmFaWidth i) (fmWb i) + fmFdWidth i + 9, residue := true }) fun i _ _ _ m => romMax i m)

/-- FM_MIN (R319). -/
def execFmMin (s : State) : Result :=
  .next (s.rom 0x025 (fun i => { cycles := max (fmFaWidth i) (fmWb i) + fmFdWidth i + 9, residue := true }) fun i _ _ _ m => romMin i m)

/-- FM_NEWS (R323 to R325): D := the A operand of the neighbour on the side opposite DIR. -/
def execFmNews (s : State) : Result :=
  .next (s.rom 0x028 (fun i => { cycles := fmFdWidth i + (if fmGlobal i then 3 else 2), news := true })
    fun i s0 x y _ => s0.romNews x y i)

/-! ## Platen instructions (R326, R331) -/

/-- A routine of one or a few microwords with no effect of its own on the array: `act` is what it does, over `cycles` Fc cycles;
a comparison of the sequencer's copies that fails abandons it at the end of a cycle, with what it does done or not (R385). -/
def State.shortRoutine (s : State) (op cycles : Nat) (act : Routine → State → State) : State :=
  match s.seq.cur with
  | none => s
  | some c =>
    if fmOp c.instr ≠ op then s
    else if c.micro then s.microGoOn 0
    else
      let s1 := ((s.settlePorts (s.seq.fc + 2)).ioProgress true).uwordChecked
      if s.seq.upset then
        let u := s1.takeFree
        let s2 := if cycles = 1 || (Config.freeWord u.1).getLsbD 0 then act c u.2 else u.2
        (s2.onSeq fun q => { q with upset := false }).abandon 8
      else (act c s1).endRoutine cycles

/-- A Platen instruction issues in its one cycle. -/
def State.platenRoutine (s : State) (op k : Nat) : State := s.shortRoutine op 1 fun c s => s.platenIssue k (fmGreg c.instr)

/-- FM_PLOR (R326). -/
def execFmPlor (s : State) : Result := .next (s.platenRoutine 0x030 1)
/-- FM_PLAND (R326). -/
def execFmPland (s : State) : Result := .next (s.platenRoutine 0x031 2)
/-- FM_PLABT (R326): OR_ABORT. -/
def execFmPlabt (s : State) : Result := .next (s.platenRoutine 0x032 3)
/-- FM_PLCNT (R326): COUNT. -/
def execFmPlcnt (s : State) : Result := .next (s.platenRoutine 0x033 4)
/-- FM_PLFST (R326): FIRST. -/
def execFmPlfst (s : State) : Result := .next (s.platenRoutine 0x034 5)

/-- The operation that delivers next: the earliest due, in order of issue among equals (R265). -/
def nextDue : List PlatenOp → Option PlatenOp
  | [] => none
  | x :: xs => match nextDue xs with
    | none => some x
    | some y => some (if x.due ≤ y.due then x else y)

/-- PLATEN_RESULT (R264 to R268, R331): the next result is discarded where it was overtaken, and else reaches its register
and, for OR, AND and OR_ABORT, its tap; an OR_ABORT of 1 raises the fade request with CAUSE 2. -/
def execPlatenResult (t : Nat) (s : State) : Result :=
  let s := s.advance t
  match nextDue s.seq.platen with
  | none => .next s
  | some x =>
    let s1 := s.onSeq fun q => { q with platen := q.platen.erase x, fc := max q.fc x.due }
    if x.overtaken then .next (s1.unmark x.greg) else
    let s2 := (s1.platenWrite x.greg x.result).unmark x.greg
    let s3 := if x.op ≤ 3 then
        s2.driveTap (x.greg % 16) (x.result == 1)
      else s2
    if x.op = 3 then
      let s4 := s3.onDrive fun d => { d with abortPlane := x.result == 1 }
      .next (if x.result = 1 then s4.requestFade 2 else s4)
    else .next s3

/-! ## Galley load and store (R332 to R339) -/

/-- FM.LDG or FM.STG: it waits while a transfer runs, and otherwise starts its own (R337). -/
def State.galleyRoutine (s : State) (op : Nat) (inbound : Bool) : State :=
  if s.forme.io.isSome then s else s.shortRoutine op 4 fun c s => s.ioStart (transferOf c.instr inbound)

/-- FM_LDG (R332 to R339). -/
def execFmLdg (s : State) : Result := .next (s.galleyRoutine 0x038 true)
/-- FM_STG (R332 to R339). -/
def execFmStg (s : State) : Result := .next (s.galleyRoutine 0x039 false)

/-- GALLEY_IO_DONE (R280): every port has moved its last word and every latch has committed or filled. -/
def execGalleyIoDone (s : State) : Result := .next s.ioFinish

/-! ## Waits (R340 to R343, R379, R387) -/

/-- FM_WAIT (R340 to R342, R385): ends after 2 Fc cycles when its condition holds at once, and waits otherwise. Which
microword it then stands at is not published (R369): a free value. -/
def execFmWait (s : State) : Result :=
  match s.seq.cur with
  | none => .next s
  | some c =>
    if fmOp c.instr ≠ 0x03C ∨ c.wait.isSome then .next s
    else if c.micro then .next (s.microGoOn 0)
    else
      let s1 := s.uwordChecked
      if s.seq.upset then .next (((s1.waitCycles 1).onSeq fun q => { q with upset := false }).abandon 8)
      else if s.fmWaitHolds c s.seq.fc then .next ((s1.waitCycles 2).endRoutine 0)
      else
        let u := s1.takeFree
        .next (u.2.onSeq fun q => { q with cur := some { c with wait := some 0, uaddr := (Config.freeWord u.1).toNat % 0x8000 } })

/-- FM_WAIT_END (R342): the condition first holds in the n-th cycle after the routine's first, within its timeout and the
budget; the routine ends 2 Fc cycles later. -/
def execFmWaitEnd (n : Nat) (s : State) : Result :=
  match s.seq.cur with
  | none => .next s
  | some c =>
    if fmOp c.instr ≠ 0x03C ∨ c.micro = true ∨ c.wait.isNone ∨ s.fmWaitHolds c (s.seq.fc + n) = false ∨ fmScalar c.instr ≤ n ∨
        c.budget < n + 2 then .next s
    else .next ((s.waitCycles (n + 2)).endRoutine 0)

/-! ## Case memory scrub (R231 to R233) -/

/-- Every galley row in service sleeps (R233). -/
def State.formeAsleep (s : State) : Bool := (List.range s.rows).all fun l => s.asleep (36 + s.physRow l)

/-- CASE_SCRUB_DUE (R231 to R233): the read is served at once while no routine runs or the routine stands at a wait, else in an
idle read slot or at the next boundary; a read still due is done first. Scrub pauses while the Forme sleeps. -/
def execCaseScrubDue (s : State) : Result :=
  if s.rows ≠ 0 ∧ s.formeAsleep = true then .next s
  else if s.seq.cur.all (·.wait.isSome) then .next s.scrubRead
  else
    let s1 := if s.forme.scrubDue then s.scrubRead else s
    .next (s1.onForme fun f => { f with scrubDue := true })

/-! ## E_CLEAR and the flag copies -/

/-- An RWL field written: it keeps its value while the page is quoined, and the write is recorded (R881, R885). -/
def State.putLocked (s : State) (p : Nat) (f : Fld) (v : Nat) : State :=
  if s.quoined p then s.ignored p f.off .quoined else s.put p f v

/-- E_CLEAR_WRITE (R241, R284): a write of FORME_CTRL with E_CLEAR = 1. The DEBUG_LOCK fuse forces DEBUG_EN to 0 (R728). -/
def execEClearWrite (m : Nat) (v : W32) (s : State) : Result :=
  .next (s.tryWrite m pgFORME 0x040 [] fun s =>
    let s1 := s.putLocked pgFORME FORME_CTRL_DEBUG_EN (if s.colo.fuses.debugLock then 0 else bits v.toNat 2 2)
    if s1.seq.cur.isNone then s1.clearE else s1.onForme fun f => { f with eClear := true })

/-- FLAG_COPY_MISMATCH (R216): the two copies of a flag of one physical sort disagree. -/
def execFlagCopyMismatch (row p q r : Nat) (s : State) : Result :=
  let key := sortKey (row % 16) (p % 17) (q % 33) (r % 32)
  let u := s.takeFree
  let ua := match s.seq.cur with
    | some c => if c.micro then c.uaddr else (Config.freeWord u.1).toNat % 0x8000
    | none => (Config.freeWord u.1).toNat % 0x10000
  let e := u.2.setE key
  .next (if e.1 then e.2.raiseE [(key, 6, ua)] else e.2)

/-! ## Debug window (R282, R283, R288 to R290) -/

/-- A debug access of row r starts waiting; while no routine runs it is served at once. -/
def State.dbgStart (s : State) (r : Nat) (w : Option Nat) : State :=
  let op : DbgOp := { write := w, started := s.seq.cur.isNone }
  (s.put (pgGALLEY r) GALLEY_DBG_STATUS_BUSY 1).onForme fun f => { f with dbg := SMap.set none f.dbg r (some op) }

/-- The reasons a debug register write is ignored for. -/
def State.dbgReasons (s : State) (r : Nat) : List Reason :=
  reasonIf (s.on (pgGALLEY r) GALLEY_DBG_STATUS_BUSY) .busy ++ reasonIf (!s.on pgFORME FORME_CTRL_DEBUG_EN) .debugDisabled

/-- DBG_ADDR_WRITE (R283): a write of GALLEY_DBG_ADDR of row r starts a read. -/
def execDbgAddrWrite (r m : Nat) (v : W32) (s : State) : Result :=
  let r := r % 16
  .next (s.tryWrite m (pgGALLEY r) 0x090 (s.dbgReasons r) fun s =>
    (s.setReg (pgGALLEY r) 0x090 (v &&& 0x00FFFFFF#32)).dbgStart r none)

/-- DBG_DATA_WRITE (R283, R288): a write of GALLEY_DBG_DATA of row r, which keeps the word written. -/
def execDbgDataWrite (r m : Nat) (v : W32) (s : State) : Result :=
  let r := r % 16
  .next (s.tryWrite m (pgGALLEY r) 0x094 (s.dbgReasons r) fun s =>
    (s.put (pgGALLEY r) GALLEY_DBG_DATA v.toNat).dbgStart r (some v.toNat))

/-- The debug access of row r served. -/
def State.dbgServe (s : State) (r : Nat) (op : DbgOp) : State :=
  let pg := pgGALLEY r
  let p := s.physGalley r (s.get pg GALLEY_DBG_ADDR_GALLEY)
  let key := sortKey r p (s.physColumn r p (s.get pg GALLEY_DBG_ADDR_COLUMN)) (s.get pg GALLEY_DBG_ADDR_ROW)
  let k := s.get pg GALLEY_DBG_ADDR_WORD
  let flags := s.on pg GALLEY_DBG_ADDR_FLAGS
  let m := s.sort key
  match op.write with
  | some v => s.setSort key (if flags then { m with flags := v % 256 } else m.setField (32 * k) 32 v)
  | none =>
    if flags then (s.put pg GALLEY_DBG_DATA (m.flags + 256 * b2n m.e)).put pg GALLEY_DBG_STATUS_UNCORR 0
    else
      ((s.put pg GALLEY_DBG_DATA (m.word k)).put pg GALLEY_DBG_STATUS_UNCORR (b2n (m.bad.contains k))).caseRead [key] k

/-- DBG_DONE (R283, R289): the debug access of row r completes and BUSY clears. -/
def execDbgDone (r : Nat) (s : State) : Result :=
  let r := r % 16
  match SMap.get none s.forme.dbg r with
  | none => .next s
  | some op =>
    if op.started = false ∧ s.seq.cur.isSome then .next s
    else
      let s1 := (s.dbgServe r op).onForme fun f => { f with dbg := SMap.set none f.dbg r none }
      .next ((s1.put (pgGALLEY r) GALLEY_DBG_STATUS_BUSY 0).event (pgGALLEY r) 2)

end Sys2Proof.Machine
end

