-- ==== Sys2Proof/Machine/Sequencer.lean ====
section
/-!
DEFINITION. The sequencer's boundary and control register, and the control store's window and tables (spec/06, R366 to
R371, R391 to R407).
-/
namespace Sys2Proof.Machine

/-! ## The control store (R396, R402 to R406) -/

/-- A completed word stands in the staging register. -/
def CStoreSt.complete (c : CStoreSt) : Bool := c.staging.any (·.2.2)

/-- What waits for a boundary shows in CSTORE_STATUS.STAGED. -/
def State.showStaged (s : State) : State :=
  s.put pgCSTORE CSTORE_STATUS_STAGED (b2n (s.cstore.complete || !s.cstore.ready.isEmpty || !s.cstore.entries.isEmpty))

/-- A microword committed with fresh check bits (R403). -/
def State.commitWord (s : State) (u v : Nat) : State :=
  (s.onCStore fun c => { c with words := SMap.set 0 c.words u v, bad := c.bad.filter (· != u)
                                weak := c.weak.filter (· != u) }).event pgCSTORE 2

/-- The completed word of the staging register and the dispatch entries commit (R403, R405). -/
def State.commitOnce (s : State) : State :=
  let s1 := match s.cstore.staging with
    | some (u, v, true) => (s.commitWord u v).onCStore fun c => { c with staging := none }
    | _ => s
  let s2 := s.cstore.entries.foldl (fun s x =>
    (s.setReg pgCSTORE 0x048 (BitVec.ofNat 32 x.2) (x.1 + 1)).event pgCSTORE 2) s1
  s2.onCStore fun c => { c with entries := [] }

/-- Firmware's next word is staged once the staging register is free. -/
def State.stageNext (s : State) : State :=
  match s.cstore.staging, s.cstore.ready with
  | none, (u, v) :: rest => s.onCStore fun c => { c with staging := some (u, v, true), ready := rest }
  | _, _ => s

/-- The commits of one routine boundary; the next word of an image that firmware writes is staged after them. -/
def State.commitStaged (s : State) : State := s.commitOnce.stageNext.showStaged

/-- Commits at once when no routine runs, firmware's words one after another; else at the next boundary. -/
def State.commitIfIdle (s : State) : State :=
  if s.seq.cur.isNone then ((s.cstore.ready.foldl (fun s _ => s.stageNext.commitOnce) s.commitOnce)).showStaged
  else s.stageNext.showStaged

/-- Bytes [off, off + n) of a register of bytes replaced. -/
def putBytes (v off : Nat) (bs : List Byte) : Nat :=
  if bs.isEmpty then v else setBits v (8 * (off + bs.length) - 1) (8 * off) (ofLE bs)

/-- The bits of a staging register that starts anew, which the specification does not give. -/
def State.stagingFresh (s : State) : Nat × State :=
  let f := s.takeFree
  ((List.range 6).foldl (fun n j => n + (Config.freeWord (f.1 + j)).toNat * 2 ^ (32 * j)) 0, f.2.skipFree 6)

/-- The staging register for microaddress u: the one staged, or a new one. What it held of another microaddress is discarded and
recorded (R404). DEDUCED: a completed word that has not committed is discarded too, the register holding one word
(notes/assumptions/54.md). -/
def State.stagingFor (s : State) (u : Nat) : Nat × State :=
  match s.cstore.staging with
  | some (u', v, _) => if u' = u then (v, s) else
      let f := s.stagingFresh
      (f.1, f.2.ignored pgCSTORE u' .stagingDiscard)
  | none => s.stagingFresh

/-- The bytes of a write that fall in one microword of the customer range, from byte `off` of it (R403, R404). -/
def State.stageBytes (s : State) (u off : Nat) (bs : List Byte) : State :=
  let bs := bs.take (24 - off)
  if 24 ≤ off ∨ bs.isEmpty then s
  else
    let r := s.stagingFor u
    let v := putBytes r.1 off bs
    if off ≤ 20 ∧ 24 ≤ off + bs.length then
      (r.2.onCStore fun c => { c with staging := some (u, v % 2 ^ 176, true) }).commitIfIdle
    else (r.2.onCStore fun c => { c with staging := some (u, v, false) }).showStaged

/-- A write to the control store window from byte offset `o` of the window, microword by microword. -/
def State.windowBytes (s : State) (m : Nat) (o : Nat) : Nat → List Byte → State
  | 0, _ => s
  | n + 1, bs =>
    if bs.isEmpty then s
    else
      let u := o / 32
      let part := bs.take (32 - o % 32)
      let s1 := if u < 0x8000 ∨ 0x9FFF < u then s.ignored pgCSTORE u .readOnlyRange
        else if s.on pgCSTORE CSTORE_STATUS_OWNER_ONLY ∧ m ≠ 1 then s.ignored pgCSTORE u .wrongMaster
        else s.stageBytes u (o % 32) part
      s1.windowBytes m (o + part.length) n (bs.drop part.length)

/-- CSTORE_WINDOW_WRITE (R54, R403, R404, R406): master m writes bytes at a device address of the window. -/
def execCstoreWindowWrite (m addr : Nat) (data : List Byte) (s : State) : Result :=
  if placeOf addr ≠ .cstore ∨ s.extentOk addr data.length = false then .next (s.refuseAddress m addr true)
  else if s.regionOk m addr data.length true = false then .next (s.refuseRegion m addr true)
  else .next (s.windowBytes m (addr - cstoreBase) (data.length + 1) data)

/-- DISPATCH_ENTRY_WRITE (R405, R406): a write of CSTORE_DISPATCH_ENTRY stages the entry that CSTORE_DISPATCH_INDEX
names. -/
def execDispatchEntryWrite (m : Nat) (v : W32) (s : State) : Result :=
  let i := s.get pgCSTORE CSTORE_DISPATCH_INDEX_INDEX
  let u := bits v.toNat 15 0
  .next (s.tryWrite m pgCSTORE 0x048
    (reasonIf (s.on pgCSTORE CSTORE_STATUS_OWNER_ONLY && m != 1) .wrongMaster ++
     reasonIf (decide (i < 768) || (bit v.toNat 31 && (decide (u < 0x8000) || decide (0x9FFF < u)))) .outOfRange) fun s =>
    (s.onCStore fun c => { c with entries := c.entries ++ [(i, (v &&& 0x8000FFFF#32).toNat)] }).commitIfIdle)

/-- CSTORE_MATCH_WRITE (R396, R397, R415): a write of the match register that CSTORE_MATCH_INDEX names, taken from boot
firmware alone. -/
def execCstoreMatchWrite (m : Nat) (v : W32) (s : State) : Result :=
  let i := s.get pgCSTORE CSTORE_MATCH_INDEX_INDEX
  .next (s.tryWrite m pgCSTORE 0x050
    (reasonIf (m != 1) .wrongMaster ++ reasonIf (s.quoined pgCSTORE) .quoined ++
     reasonIf (decide (0x7FFF < bits v.toNat 15 0)) .outOfRange) fun s =>
    let s1 := s.setReg pgCSTORE 0x050 (v &&& 0x83FFFFFF#32) (i + 1)
    s1.put pgCSTORE CSTORE_STATUS_MATCHES
      ((List.range 64).filter fun k => s1.on pgCSTORE CSTORE_MATCH_VALID (k + 1)).length)

/-! ## The boundary (R307, R308, R370, R371, R393, R394) -/

/-- An instruction dispatched: its fields in the working registers (R370). -/
def State.dispatchOne (s : State) (i : Nat) : State :=
  let u := if 768 ≤ fmOp i then (s.dispatchEntry (fmOp i)).2 else (Config.romEntry (fmOp i)).toNat % 0x8000
  let c : Routine :=
    { instr := i, micro := decide (768 ≤ fmOp i) || s.romTouched (fmOp i) u, uaddr := u, cycles := 0,
      lc0 := 0, lc1 := 0, bi := 0, pa := bits (fmFaAddr i) 13 5
      pb := bits (fmFbAddr i) 13 5, pw := bits (fmFdAddr i) 13 5, stack := [], wait := none, ticked := false
      budget := s.get pgCOMPOSITOR COMP_ROUTINE_BUDGET }
  s.onSeq fun q => { q with cur := some c }

/-- Instructions leave the queue until one is dispatched; those that fail their checks are refused (R308, R309, R371). -/
def State.dispatch (s : State) : Nat → State
  | 0 => s
  | n + 1 =>
    match s.seq.queue with
    | [] => s.queueEmpty
    | i :: is =>
      let s1 := s.onSeq fun q => { q with queue := is }
      match s1.refusal i with
      | some c =>
        let s2 := s1.refuse i c
        if is.isEmpty then s2.queueEmpty else s2.dispatch n
      | none => s1.dispatchOne i

/-- The actions of R393 that are due, in order, with no routine running. -/
def State.boundaryActions (s : State) : State :=
  let s0 := if s.scrubWaits then ((s.settlePorts (s.seq.fc + 1)).scrubRewrite).onSeq fun q => { q with fc := q.fc + 2 } else s
  let s1 := if s0.forme.scrubDue then ((s0.settlePorts (s0.seq.fc + 1)).scrubRead).onSeq fun q => { q with fc := q.fc + 2 } else s0
  let s2 := s1.commitStaged
  let s3 := if s2.forme.eClear then s2.clearE else s2
  s3.onForme fun f => { f with dbg := SMap.mapVals none (fun _ o => o.map fun x => { x with started := true }) f.dbg }

/-- A flush or a stop that waited for the boundary (R394, R412). -/
def State.boundaryStops (s : State) : State :=
  let s1 := if s.seq.flush then s.enterDiscard else s
  if s1.seq.stop then (s1.onSeq fun q => { q with stop := false, stopped := true }).enterDiscard else s1

/-- ROUTINE_BOUNDARY (R393): the due actions, then the check and dispatch of the next instruction; nothing without the Fc
clock (R840). -/
def execRoutineBoundary (s : State) : Result :=
  if s.seq.cur.isSome ∨ s.pllUp 68 = false then .next s
  else
    let s1 := s.boundaryActions.boundaryStops
    if s1.on pgCOMPOSITOR COMP_SEQ_CTRL_ENABLE = false ∨ s1.seq.discard ∨ s1.seq.stopped ∨ s1.seq.queue.isEmpty then
      .next ((s1.settlePorts (s1.seq.fc + 2)).portsIdle)
    else .next (s1.dispatch s1.seq.queue.length)

/-! ## COMP_SEQ_CTRL (R392, R412) -/

/-- A write of COMP_SEQ_CTRL: ENABLE is stored; REARM ends the discard state or alone is ignored; FLUSH waits for the next
boundary. -/
def State.seqCtrlWrite (s : State) (m : Nat) (v : W32) : State :=
  let rearm := bit v.toNat 2
  s.tryWrite m pgCOMPOSITOR 0x048 [] fun s =>
    let s1 := s.put pgCOMPOSITOR COMP_SEQ_CTRL_ENABLE (v.toNat % 2)
    let s2 := if rearm = false then s1
      else if m ≠ 0 then s1.ignored pgCOMPOSITOR 0x048 .wrongMaster
      else if s1.seq.discard = false ∨ s1.seq.cur.isSome then s1.ignored pgCOMPOSITOR 0x048 .state
      else s1.onSeq fun q => { q with discard := false }
    if bit v.toNat 1 then
      (if s2.seq.cur.isNone then s2.enterDiscard else s2.onSeq fun q => { q with flush := true })
    else s2

/-- SEQ_REARM (R392): a write of COMP_SEQ_CTRL with REARM = 1. -/
def execSeqRearm (m : Nat) (v : W32) (s : State) : Result := .next (s.seqCtrlWrite m (v ||| 4#32))

/-- SEQ_FLUSH (R412): a write of COMP_SEQ_CTRL with FLUSH = 1. -/
def execSeqFlush (m : Nat) (v : W32) (s : State) : Result := .next (s.seqCtrlWrite m (v ||| 2#32))

/-- SEQ_ENABLE_WRITE (R412): a write of COMP_SEQ_CTRL that starts dispatch or stops it at the next boundary. -/
def execSeqEnableWrite (m : Nat) (v : W32) (s : State) : Result := .next (s.seqCtrlWrite m v)

end Sys2Proof.Machine
end

