-- ==== Sys2Proof/Machine/Lockstep.lean ====
section
/-!
DEFINITION. Quire cores in lockstep: which execute, the comparator, the voter, and what they report (spec/06 R345 to R347, R362 to
R365, R463).
-/
namespace Sys2Proof.Machine

/-- The cores of a complex that execute: those of the execution in progress, or the Colophon's pair; none whose clock has
stopped (R840). -/
def State.complexCores (s : State) (k : Nat) : List Nat :=
  if k = 0 then (if s.comp.phase = 1 ∧ s.pllUp 68 = true then s.comp.cores else [])
  else if 1 ≤ s.device.stage ∧ s.device.coloStopped = false ∧ s.coloClock = true then [3, 4] else []

/-- The state of a Compositor core in COMP_CORE_STATE. -/
def coreStateFld (n : Nat) : Fld := if n = 0 then COMP_CORE_STATE_CORE0 else if n = 1 then COMP_CORE_STATE_CORE1
  else COMP_CORE_STATE_CORE2

/-- The Compositor cores in service: not out of service and not FAILING. -/
def State.coresInService (s : State) : List Nat :=
  (List.range 3).filter fun n => let x := s.get pgCOMPOSITOR (coreStateFld n); x != 0 && x != 4

/-- Every core stops, the sequencer discards, and nothing resolves the difference (R365). -/
def State.lockUnresolved (s : State) : State :=
  ((s.report pgCOMPOSITOR 0x015 7 0 0).onComp fun c => { c with phase := 4, suppressed := true }).enterDiscard

/-- The pair's outputs differ (R347): suppressed, the cores stopped, the execution void by cause 3 and ending as if END had
been written; with no third core in service it is not resolved (R365). -/
def State.lockMismatch (s : State) : State :=
  let a := s.comp.cores.getD 0 0
  let b := s.comp.cores.getD 1 0
  let s1 := ((s.count pgCOMPOSITOR COMP_MISMATCHES).event pgCOMPOSITOR 1).report pgCOMPOSITOR 0x012 5 0 (a * 4 + b)
  let s2 := s1.setVoid 3
  if s2.coresInService.length < 3 then s2.lockUnresolved
  else (s2.onComp fun c => { c with phase := 2, suppressed := true }).enterDiscard

/-- A core found FAILING by the voter (R363). -/
def State.outvoted (s : State) (n : Nat) : State :=
  ((s.put pgCOMPOSITOR (coreStateFld n) 4).report pgCOMPOSITOR 0x014 6 0 n).onComp fun c =>
    { c with cores := c.cores.filter (· != n), failing := n :: c.failing }

/-- The Colophon's outputs differ (R702). -/
def State.coloMismatch (s : State) : State := s.report pgCOLOPHON 0x001 35 0 0

/-- Outputs of the cores of a complex compared: `some` with the cores whose copy stands, or none where they do not agree;
the state holds what the comparator or voter did. -/
def State.compareOutputs {α : Type} [DecidableEq α] (s : State) (k : Nat) (outs : List (Nat × α)) : Option α × State :=
  match outs with
  | [] => (none, s)
  | (_, o) :: rest =>
    if rest.all fun x => x.2 = o then (some o, s)
    else if k ≠ 0 then (some o, s.coloMismatch)
    else match outs with
    | [(a, x), (b, y), (c, z)] =>
      if x = y then (some x, s.outvoted c)
      else if x = z then (some x, s.outvoted b)
      else if y = z then (some y, s.outvoted a)
      else (none, s.lockUnresolved)
    | _ => (none, if s.on pgCOMPOSITOR COMP_PAIR_TRIO then s.lockUnresolved else s.lockMismatch)

/-- A halt of the cores reported: a Compositor pair reports QUIRE_HALT (R463). -/
def State.reportHalt (s : State) (k : Nat) (h : Option (Nat × Nat)) : State :=
  match h with
  | some (pc, ec) => if k = 0 then s.report pgCOMPOSITOR 0x01A 13 pc ec else s
  | none => s

end Sys2Proof.Machine
end

