-- ==== Sys2Proof/Machine/DeviceOps.lean ====
section
/-!
DEFINITION. The units in service, the service level and the DEVICE page (spec/01, R64 to R78).
-/
namespace Sys2Proof.Machine

/-- A feeder port in service. -/
def State.portUp (s : State) (p : Nat) : Bool := s.on (pgFEED p) PAGE_STATUS_IN_SERVICE

/-- A web in service. -/
def State.webUp (s : State) (w : Nat) : Bool := s.on (pgWEB w) PAGE_STATUS_IN_SERVICE

/-- The webs in service, rising. -/
def State.websUp (s : State) : List Nat := (List.range 8).filter s.webUp

/-- The network endpoint of a feeder port (R574). -/
def portEndpoint (p : Nat) : Nat := 40 + p

/-- A router path from one listed endpoint to another (R589). -/
def State.path (s : State) (src dst : Nat) : Bool :=
  (s.routeFrom dst 17 (epRouter src)).all fun x => s.routerUp x.1 && !s.broken x.1 x.2

/-- A feeder port in service with a router path to some Stone bank in service. -/
def State.feedPath (s : State) (p : Nat) : Bool :=
  s.portUp p && (List.range 32).any fun b => s.bankOwner b != 31 && s.path (portEndpoint p) b

/-- A feeder port that carries drive channels: a BOUND feeder on it declares a drive stream. -/
def State.carriesDrive (s : State) (p : Nat) : Bool :=
  s.feed.table.any fun x => x.2.state == .bound && x.2.port == p && x.2.streams.any (·.dir == 2)

/-- The Stone owners required at the Measurement level: the Compositor, the Colophon mailboxes, galley I/O, feed ingest,
the host and the log ports; the webs while one is in service (R65). -/
def State.requiredOwners (s : State) : List Nat := [0, 1, 10, 11, 13, 15] ++ s.websUp.map (2 + ·)

/-- A Stone owner that has a bank. -/
def State.ownsBank (s : State) (m : Nat) : Bool := (List.range 32).any fun b => s.bankOwner b == m

/-- The NO_ flags of DEVICE_SERVICE as a number, bit 0 NO_CONSOLE to bit 6 NO_DRIVE_PATH (R71). The UART has no state that
makes it unusable. -/
def State.noFlags (s : State) : Nat :=
  b2n (decide (s.coresInService.length < 2)) * 2 + b2n (!(List.range 16).any s.feedPath) * 4 +
  b2n (!s.requiredOwners.all s.ownsBank) * 8 + b2n s.stacks.isEmpty * 16 + b2n (decide (s.rows = 0)) * 32 +
  b2n ((List.range 16).any fun p => s.carriesDrive p && !(s.bankOwner 28 != 31 && s.path 28 (portEndpoint p))) * 64

/-- The highest service level whose smallest unit set is in service: 1 Management-only, 2 Measurement, 3 Full control
(R64, R68). -/
def State.levelNow (s : State) : Nat := if bits s.noFlags 5 1 ≠ 0 then 1 else if bit s.noFlags 6 then 2 else 3

/-- DEVICE_SERVICE, DEVICE_UNITS and DEVICE_CAPACITY rewritten by firmware from the units in service, and GENERATION advanced
once after them (R71, R72, R76). -/
def State.deviceUpdate (s : State) : State :=
  let g := (s.get pgDEVICE DEVICE_SERVICE_GENERATION + 1) % 256
  let units := s.rows * 2 ^ 27 + (s.stacks.length % 8) * 2 ^ 24 + ((List.range 16).filter s.portUp).length * 2 ^ 19 +
    s.websUp.length * 2 ^ 15 + s.coresInService.length * 2 ^ 13 +
    ((List.range 32).filter fun b => s.bankOwner b != 31).length * 2 ^ 7 + ((List.range 64).filter s.routerUp).length
  let cap := 4 * s.rows * 2 ^ 24 + 725 * s.stacks.length * 2 ^ 12 + s.rows * 209715200 / 1000000
  let s1 := (s.setReg pgDEVICE 0x044 (BitVec.ofNat 32 units)).setReg pgDEVICE 0x048 (BitVec.ofNat 32 cap)
  if s.firmware then s1.setReg pgDEVICE 0x040 (BitVec.ofNat 32 (s.levelNow * 2 ^ 24 + g * 2 ^ 16 + s.noFlags)) else s

end Sys2Proof.Machine
end

