-- ==== Sys2Proof/Machine/JobsOps.lean ====
section
/-!
DEFINITION. Job rings, tickets, completions and calls of the JOBS block (spec/15, R775 to R790).
-/
namespace Sys2Proof.Machine

/-! ## Counts and places of a ring (R775) -/

/-- a lies before b in 32-bit serial-number arithmetic (R719). -/
def serialBefore (a b : Nat) : Bool :=
  let d := (b + 2 ^ 32 - a % 2 ^ 32) % 2 ^ 32
  decide (1 ≤ d) && decide (d < 2 ^ 31)

/-- How far b lies ahead of a, modulo 2^32. -/
def serialDist (a b : Nat) : Nat := (b + 2 ^ 32 - a % 2 ^ 32) % 2 ^ 32

def State.ring (s : State) (n : Nat) : RingSt := SMap.get RingSt.reset s.jobs.rings n

def State.setRing (s : State) (n : Nat) (r : RingSt) : State :=
  s.onJobs fun j => { j with rings := SMap.set RingSt.reset j.rings n r }

def State.ringTail (s : State) (n : Nat) : Nat := s.get pgJOBS (JOBS_SQ_TAIL_TAIL.at n)
def State.ringHead (s : State) (n : Nat) : Nat := s.get pgJOBS (JOBS_CQ_HEAD_HEAD.at n)
def State.ringEnabled (s : State) (n : Nat) : Bool := s.on pgJOBS (JOBS_RING_CFG_ENABLE.at n)

/-- The depth D of a ring. -/
def State.ringDepth (s : State) (n : Nat) : Nat := 2 ^ s.get pgJOBS (JOBS_RING_CFG_LOG2.at n)

/-- The submission ring of ring n: whether in host memory, and its base address (R810). -/
def State.sqBase (s : State) (n : Nat) : Bool × Nat :=
  let lo := s.get pgJOBS (JOBS_SQ_BASE_LO_ADDR.at n) * 64
  let hi := s.get pgJOBS (JOBS_SQ_BASE_HI_ADDR.at n)
  let host := s.on pgJOBS (JOBS_SQ_BASE_LO_HOST.at n)
  (host, lo + (if host then hi else hi % 2 ^ 16) * 2 ^ 32)

/-- The completion ring of ring n. -/
def State.cqBase (s : State) (n : Nat) : Bool × Nat :=
  let lo := s.get pgJOBS (JOBS_CQ_BASE_LO_ADDR.at n) * 64
  let hi := s.get pgJOBS (JOBS_CQ_BASE_HI_ADDR.at n)
  let host := s.on pgJOBS (JOBS_CQ_BASE_LO_HOST.at n)
  (host, lo + (if host then hi else hi % 2 ^ 16) * 2 ^ 32)

/-- Tickets fetched and not completed, all rings. -/
def State.jobsOutstanding (s : State) : Nat := (s.jobs.rings.map fun x => x.2.tickets.length).sum

/-! ## Tickets -/

/-- A byte string's KIND, FLAGS and body fields (R781). -/
def tkKind (b : List Byte) : Nat := fieldLE b 0 1
def tkNotify (b : List Byte) : Bool := bit (fieldLE b 1 1) 0
def tkFence (b : List Byte) : Bool := bit (fieldLE b 1 1) 1
def tkId (b : List Byte) : Nat := fieldLE b 4 4
def tkSrc (b : List Byte) : Nat := fieldLE b 8 8
def tkDst (b : List Byte) : Nat := fieldLE b 16 8
def tkLen (b : List Byte) : Nat := fieldLE b 24 4
def tkDesc (b : List Byte) : Nat := fieldLE b 8 6
def tkDescWhole (b : List Byte) : Nat := fieldLE b 8 8
def tkWeb (b : List Byte) : Nat := fieldLE b 16 1

/-- A ticket whose KIND is reserved (1) or whose body is malformed (2); 0 neither (R785). -/
def badTicket (b : List Byte) : Nat :=
  let k := tkKind b
  if k = 0 ∨ 4 < k then 1
  else if k = 2 ∧ tkLen b = 0 then 2
  else if k = 3 ∧ ((8 ≤ tkWeb b ∧ tkWeb b ≤ 254) ∨ tkDescWhole b % 128 ≠ 0) then 2
  else 0

/-- A ticket refused, ignored or discarded with no result. -/
def TicketEnd.of (status cause kind : Nat) : TicketEnd :=
  { status := status, cause := cause, kind := kind, result := 0, result2 := 0, cycles := 0 }

/-- The tickets of a ring passed through a function. -/
def State.onTicket (s : State) (n k : Nat) (f : Ticket → Ticket) : State :=
  let r := s.ring n
  s.setRing n { r with tickets := r.tickets.map fun t => if t.k = k then f t else t }

/-- Ticket k of ring n has ended; an end already known stands (R778). -/
def State.endTicket (s : State) (n k : Nat) (e : TicketEnd) : State :=
  s.onTicket n k fun t => if t.fin.isSome then t else { t with started := true, fin := some e }

/-- The ticket of ring n that starts next: the oldest not started, where every earlier ticket has started, and none
earlier is still to complete when it has FENCE set (R778). -/
def State.nextTicket (s : State) (n : Nat) : Option (Nat × List Byte) :=
  match (s.ring n).tickets.find? fun t => !t.started with
  | none => none
  | some t => match t.data with
    | none => none
    | some b =>
      let oldest := match (s.ring n).tickets with
        | x :: _ => x.k == t.k
        | [] => false
      if tkFence b && !oldest then none else some (t.k, b)

/-- The next ticket of ring n, where it is well formed and of a kind. -/
def State.nextOfKind (s : State) (n kind : Nat) : Option (Nat × List Byte) :=
  match s.nextTicket n with
  | some (k, b) => if badTicket b = 0 ∧ tkKind b = kind then some (k, b) else none
  | none => none

/-! ## Completions (R779, R784) -/

/-- The completion record of a ticket: completion c of ring n at device time `time`. -/
def completionRecord (id : Nat) (e : TicketEnd) (phase index time : Nat) : List Byte :=
  bytesLE 4 id ++ bytesLE 1 e.status ++ bytesLE 1 e.cause ++ bytesLE 1 phase ++ bytesLE 1 e.kind ++ bytesLE 4 index ++
  bytesLE 4 e.result ++ bytesLE 4 e.result2 ++ bytesLE 4 e.cycles ++ bytesLE 8 time

/-- The oldest ticket of ring n completes with `e`: its record is written, DONE advances and NOTIFY raises source 48 + n;
`drop` leaves the record out and counts it lost, where the ring lies in host memory (R773, R779). -/
def State.complete (s : State) (n : Nat) (t : Ticket) (e : TicketEnd) (drop : Bool) : State :=
  let r := s.ring n
  let id := match t.data with
    | some b => tkId b
    | none => 0
  let d := s.ringDepth n
  let cq := s.cqBase n
  let recd := completionRecord id e (r.done / d % 2) t.k s.dev
  let a := cq.2 + 32 * (r.done % d)
  let s1 := if cq.1 then (if drop then s.count pgJOBS JOBS_LOST_COMPLETIONS else s.emit (.hostWrite (a % 2 ^ 63) recd))
    else (s.write 14 a recd).2
  let s2 := if drop ∧ cq.1 then s1 else s1.count64 pgJOBS JOBS_TICKETS_LO JOBS_TICKETS_HI
  let s3 := if e.status = 3 then s2.count pgJOBS JOBS_TICKETS_IGNORED
    else if e.status = 2 then s2.count pgJOBS JOBS_TICKETS_DISCARDED else s2
  let s4 := s3.setRing n { r with done := (r.done + 1) % 2 ^ 32, tickets := r.tickets.drop 1 }
  let notify := match t.data with
    | some b => tkNotify b
    | none => false
  if notify then s4.raisePacket (48 + n) else s4

/-- The completion of the oldest ticket of ring n, where it has ended. -/
def State.completeOldest (s : State) (n : Nat) : State :=
  match (s.ring n).tickets with
  | [] => s
  | t :: _ => match t.fin with
    | none => s
    | some e => s.complete n t e false

/-- Every ticket fetched and not completed has lost its work to a fault (R685, R773, R787). -/
def State.faultTickets (s : State) (n : Nat) : State :=
  let r := s.ring n
  s.setRing n { r with tickets := r.tickets.map fun t =>
    { t with started := true, fin := some (TicketEnd.of 2 9 (match t.data with | some b => tkKind b | none => 0)) } }

/-! ## Calls (R788 to R790) -/

/-- The oldest call ends. -/
def State.endCall (s : State) (status cause result : Nat) : State :=
  match s.jobs.calls with
  | [] => s
  | (n, k) :: cs =>
    (s.endTicket n k { TicketEnd.of status cause 4 with result := result }).onJobs fun j => { j with calls := cs }

/-- A completion of the standing program: RESULT, and cause APP_REFUSED with FAIL. -/
def State.appCall (s : State) (x : Nat × Bool) : State := if x.2 then s.endCall 1 10 x.1 else s.endCall 0 0 x.1

/-- The completions held for an execution are written (R789). -/
def State.writeHeld (s : State) : State :=
  (s.jobs.held.foldl State.appCall s).onJobs fun j => { j with held := [] }

/-- The completions held are discarded; their calls stay queued (R361, R789, R790). -/
def State.dropHeld (s : State) : State := s.onJobs fun j => { j with held := [] }

/-- Every queued call ends alike (R790). -/
def State.endCalls (s : State) (status cause : Nat) : State :=
  (s.jobs.calls.foldl (fun s _ => s.endCall status cause 0) s).dropHeld

end Sys2Proof.Machine
end

