-- ==== Sys2Proof/Machine/WebOps.lean ====
section
/-!
DEFINITION. The chain descriptor, its checks, the twiddle generator and the arithmetic of a chain (spec/08, R477 to R493,
R501, R502).
-/
namespace Sys2Proof.Machine

/-! ## The descriptor (R477 to R482) -/

/-- A stream descriptor (R478): STRIDE and ROW_STRIDE signed. -/
structure Stream where
  addr : Nat
  type : Nat
  enable : Bool
  stride : Int
  count : Nat
  rowLog2 : Nat
  rowStride : Int
deriving DecidableEq, Repr

/-- A node word (R482). -/
structure WNode where
  unit : Nat
  op : Nat
  a : Nat
  b : Nat
  c : Nat
  param : Nat
deriving DecidableEq, Repr

/-- A chain descriptor. -/
structure Chain where
  format : Nat
  nodes : Nat
  stSrc : Nat
  evt : Bool
  rm : Rm
  tag : Nat
  k0 : Nat
  k1 : Nat
  node : List WNode
  la : Stream
  lb : Stream
  lc : Stream
  st : Stream
deriving DecidableEq, Repr

/-- The stream descriptor at an offset. -/
def streamOf (d : List Byte) (o : Nat) : Stream :=
  { addr := fieldLE d o 6, type := fieldLE d (o + 6) 1 % 16, enable := bit (fieldLE d (o + 7) 1) 0,
    stride := signed 32 (fieldLE d (o + 8) 4), count := fieldLE d (o + 12) 4 % 2 ^ 29,
    rowLog2 := fieldLE d (o + 16) 4 % 32, rowStride := signed 27 (fieldLE d (o + 16) 4 / 32) }

/-- The node word at an offset. -/
def nodeOf (d : List Byte) (o : Nat) : WNode :=
  let w := fieldLE d o 4
  { unit := bits w 31 28, op := bits w 27 24, a := bits w 23 20, b := bits w 19 16, c := bits w 15 12, param := bits w 11 0 }

/-- The rounding mode of a code (R422). -/
def rmOfCode (v : Nat) : Rm := if v = 0 then .nearestEven else if v = 1 then .towardZero else if v = 2 then .down else .up

/-- A descriptor read from its 128 bytes. -/
def chainOf (d : List Byte) : Chain :=
  { format := fieldLE d 0 1, nodes := fieldLE d 1 1 % 16, stSrc := fieldLE d 1 1 / 16, evt := bit (fieldLE d 2 1) 0,
    rm := rmOfCode (fieldLE d 3 1 % 4), tag := fieldLE d 4 2, k0 := fieldLE d 8 4, k1 := fieldLE d 12 4,
    node := (List.range (fieldLE d 1 1 % 16)).map fun i => nodeOf d (16 + 4 * i),
    la := streamOf d 48, lb := streamOf d 68, lc := streamOf d 88, st := streamOf d 108 }

/-- Bytes of an element type (R479). -/
def typeSize (t : Nat) : Nat := if t = 2 then 8 else if t = 3 then 2 else if t = 4 then 3 else 4

/-- Alignment of an element type (R479). -/
def typeAlign (t : Nat) : Nat := if t = 2 then 8 else if t = 3 then 2 else if t = 4 then 1 else 4

/-- A value's class. -/
inductive Cls where
  | real | cplx | int
deriving DecidableEq, Repr

/-- The class of an element type (R485). -/
def typeClass (t : Nat) : Cls := if t = 1 then .real else if t = 2 then .cplx else .int

/-- The device address of element i, as an exact integer (R480). -/
def Stream.elem (x : Stream) (i : Nat) : Int :=
  if x.rowLog2 = 0 then (x.addr : Int) + (typeSize x.type : Int) * x.stride * (i : Int)
  else (x.addr : Int) + (typeSize x.type : Int) *
    (x.stride * ((i % 2 ^ x.rowLog2 : Nat) : Int) + x.rowStride * ((i / 2 ^ x.rowLog2 : Nat) : Int))

/-- The elements at the corners of a stream's index range: the extremes of its addresses lie among them. -/
def Stream.corners (x : Stream) : List Int :=
  let n := x.count - 1
  if x.rowLog2 = 0 then [x.elem 0, x.elem n]
  else
    let v := min (2 ^ x.rowLog2 - 1) n
    let u := n / 2 ^ x.rowLog2
    [x.elem 0, x.elem v, x.elem (u * 2 ^ x.rowLog2), x.elem (u * 2 ^ x.rowLog2 + v)]

/-- The lowest of some integers. -/
def lowInt (xs : List Int) : Int := xs.foldl min (xs.getD 0 0)

/-- The highest of some integers. -/
def highInt (xs : List Int) : Int := xs.foldl max (xs.getD 0 0)

/-- The extent of a stream, both ends included (R481). -/
def Stream.extent (x : Stream) : Int × Int := (lowInt x.corners, highInt x.corners + (typeSize x.type : Int) - 1)

/-- Two extents overlap. -/
def meets (a b : Int × Int) : Bool := decide (a.1 ≤ b.2) && decide (b.1 ≤ a.2)

/-- The load streams of a chain that are enabled. -/
def Chain.loads (c : Chain) : List Stream := [c.la, c.lb, c.lc].filter (·.enable)

/-! ## Operations (R483) -/

/-- The inputs an operation uses (a, b, c), none for a reserved UNIT or OP. -/
def opArity (unit op : Nat) : Option Nat :=
  match unit with
  | 1 => if op = 0 then some 2 else none
  | 2 => if op ≤ 3 then some 2 else if op ≤ 5 then some 1 else none
  | 3 => if op ≤ 3 then some 3 else none
  | 4 => if op ≤ 2 then some 2 else if op ≤ 5 then some 1 else none
  | 5 => if op ≤ 4 then some 1 else none
  | 6 => if op ≤ 1 then some 1 else none
  | 7 => if op = 0 then some 2 else if op ≤ 4 then some 1 else none
  | 8 => if op = 0 then some 2 else if op ≤ 2 then some 1 else none
  | _ => none

/-- The inputs a node uses. -/
def WNode.inputs (n : WNode) : List Nat := [n.a, n.b, n.c].take ((opArity n.unit n.op).getD 0)

/-- The inputs a node does not use. -/
def WNode.spare (n : WNode) : List Nat := [n.a, n.b, n.c].drop ((opArity n.unit n.op).getD 0)

/-- The output class of an operation on input classes; none where a port is given a class it does not take (R483, R485: an
integer feeds only CVT TO_F32 or ST). -/
def opClass (unit op : Nat) (cs : List Cls) : Option Cls :=
  match unit, op, cs with
  | 1, _, [.real, .real] => some .real
  | 1, _, [.cplx, .real] => some .cplx
  | 2, op, [a, b] => if a = b ∧ a ≠ .int ∧ (a = .real ∨ op ≤ 1) then some a else none
  | 2, _, [.real] => some .real
  | 3, _, [.real, .real, .real] => some .real
  | 3, _, [.cplx, .real, .cplx] => some .cplx
  | 4, _, [.cplx, .cplx] => some .cplx
  | 4, op, [.cplx] => some (if op = 4 then .real else .cplx)
  | 5, op, [.real] => some (if 3 ≤ op then .int else .real)
  | 5, op, [.cplx] => if op = 0 then some .cplx else none
  | 6, 0, [.int] => some .real
  | 6, 1, [.real] => some .int
  | 7, 0, [.real, .real] => some .cplx
  | 7, op, [.cplx] => some (if op = 1 ∨ op = 2 then .real else .cplx)
  | 7, op, [.real] => if 3 ≤ op then some .real else none
  | 8, _, [.real, .real] => some .real
  | 8, _, [.real] => some .real
  | _, _, _ => none

/-! ## Wiring, classes and counts (R484 to R486) -/

/-- A source code names something for a node of index i: an enabled load stream, a constant, or an earlier node. -/
def Chain.names (c : Chain) (i src : Nat) : Bool :=
  match src with
  | 1 => c.la.enable
  | 2 => c.lb.enable
  | 3 => c.lc.enable
  | 4 => true
  | 5 => true
  | _ => decide (8 ≤ src) && decide (src - 8 < i)

/-- Some input of a node, or ST_SRC, names a source. -/
def Chain.used (c : Chain) (src : Nat) : Bool := c.stSrc == src || c.node.any fun n => n.inputs.contains src

/-- The chain is wired correctly (R484). -/
def Chain.wired (c : Chain) : Bool :=
  let idx := List.range c.nodes
  let nd := fun i => c.node.getD i ⟨0, 0, 0, 0, 0, 0⟩
  (idx.all fun i => idx.all fun j => i == j || (nd i).unit != (nd j).unit) &&
  (idx.all fun i => (nd i).inputs.all (c.names i) && (nd i).spare.all (· == 0)) &&
  c.la.enable && c.st.enable &&
  (!c.lb.enable || c.used 2) && (!c.lc.enable || c.used 3) &&
  (idx.all fun i => c.used (8 + i)) &&
  (if c.nodes = 0 then c.stSrc == 1 else decide (8 ≤ c.stSrc) && decide (c.stSrc - 8 < c.nodes))

/-- The class of a source, given the classes of the nodes before. -/
def Chain.srcClass (c : Chain) (outs : List (Option Cls)) (src : Nat) : Option Cls :=
  match src with
  | 1 => some (typeClass c.la.type)
  | 2 => some (typeClass c.lb.type)
  | 3 => some (typeClass c.lc.type)
  | 4 => some .real
  | 5 => some .real
  | _ => outs.getD (src - 8) none

/-- The output class of every node, none where a rule is broken. -/
def Chain.classes (c : Chain) : List (Option Cls) :=
  c.node.foldl (fun outs n =>
    let ins := n.inputs.map (c.srcClass outs)
    outs ++ [if ins.contains none then none else opClass n.unit n.op (ins.map fun x => x.getD .real)]) []

/-- The node that feeds ST, where one does. -/
def Chain.stNode (c : Chain) : Option WNode := if c.nodes = 0 then none else c.node[c.stSrc - 8]?

/-- The classes of the values meet (R485). -/
def Chain.typed (c : Chain) : Bool :=
  let outs := c.classes
  outs.all (·.isSome) && c.srcClass outs c.stSrc == some (typeClass c.st.type) &&
  (match c.stNode with
   | some n => !(n.unit == 5 && decide (3 ≤ n.op)) || c.st.type == 5
   | none => true)

/-- log2 G of a RED node, and the block size of a PRM node (R483). -/
def WNode.group (n : WNode) : Nat := 2 ^ (n.param % 32)
def WNode.rows (n : WNode) : Nat := n.param % 64 + 1
def WNode.cols (n : WNode) : Nat := n.param / 64 % 64 + 1
def WNode.block (n : WNode) : Nat := if n.op = 3 then 2 ^ (n.param % 16) else n.rows * n.cols

/-- The count of a source, none for a constant or a broken value. -/
def Chain.srcCount (c : Chain) (outs : List (Option Nat)) (src : Nat) : Option Nat :=
  match src with
  | 1 => some c.la.count
  | 2 => some c.lb.count
  | 3 => some c.lc.count
  | 4 => none
  | 5 => none
  | _ => outs.getD (src - 8) none

/-- The count of a node's output from its inputs that are not constants; none where a rule is broken (R486). A node whose
inputs are all constants has no count. -/
def countOf (n : WNode) (ins : List (Option Nat)) : Option Nat :=
  match ins with
  | some k :: rest =>
    if rest.all (· == some k) then
      (if n.unit = 5 then (if k % n.group = 0 then some (k / n.group) else none)
       else if n.unit = 4 ∧ n.op = 2 then some (2 * k)
       else if n.unit = 7 ∧ 3 ≤ n.op then (if k % n.block = 0 then some k else none)
       else some k)
    else none
  | _ => none

/-- The count of every node's output. -/
def Chain.counts (c : Chain) : List (Option Nat) :=
  c.node.foldl (fun outs n =>
    outs ++ [countOf n ((n.inputs.filter fun x => x != 4 && x != 5).map (c.srcCount outs))]) []

/-- A stream of rows holds whole rows. -/
def Stream.wholeRows (x : Stream) : Bool := x.rowLog2 == 0 || x.count % 2 ^ x.rowLog2 == 0

/-- The counts meet (R486). -/
def Chain.counted (c : Chain) : Bool :=
  let outs := c.counts
  outs.all (·.isSome) && c.srcCount outs c.stSrc == some c.st.count &&
  (c.st :: c.loads).all Stream.wholeRows

/-- FORMAT (R501 code 3). -/
def Chain.formed (c : Chain) : Bool :=
  c.format == 1 && decide (c.nodes ≤ 8) && c.node.all (fun n => (opArity n.unit n.op).isSome) &&
  ([c.la, c.lb, c.lc, c.st].filter (·.enable)).all fun x =>
    decide (1 ≤ x.type) && decide (x.type ≤ 5) && decide (1 ≤ x.count) && decide (x.count ≤ 2 ^ 28)

/-- Nodes on some path from a load stream (source code `src`) to ST. -/
def Chain.fedBy (c : Chain) (src : Nat) : List Nat :=
  (List.range c.nodes).foldl (fun acc i =>
    if (c.node.getD i ⟨0, 0, 0, 0, 0, 0⟩).inputs.any fun x => x == src || (decide (8 ≤ x) && acc.contains (x - 8))
    then acc ++ [i] else acc) []

/-- ST may coincide with the extent of load stream `src`: an update in place (R502). Every node the stream's values pass
through has the stream's count. -/
def Chain.inPlace (c : Chain) (src : Nat) (x : Stream) : Bool :=
  x.addr == c.st.addr && x.type == c.st.type && x.stride == c.st.stride && x.rowLog2 == c.st.rowLog2 &&
  x.rowStride == c.st.rowStride && x.count == c.st.count && x.stride != 0 &&
  (x.rowLog2 == 0 || decide ((2 ^ x.rowLog2 : Nat) * x.stride.natAbs ≤ x.rowStride.natAbs)) &&
  (c.fedBy src).all (fun i => c.counts.getD i none == some x.count) &&
  (c.nodes == 0 || (c.fedBy src).contains (c.stSrc - 8))

/-- ST overlaps a load extent against R502 (R501 code 10). -/
def Chain.aliased (c : Chain) : Bool :=
  let hit := [(1, c.la), (2, c.lb), (3, c.lc)].filter fun x => x.2.enable && meets x.2.extent c.st.extent
  match hit with
  | [] => false
  | [x] => !c.inPlace x.1 x.2
  | _ => true

/-! ## The twiddle generator (R489) -/

/-- π × 2^192, rounded down. -/
def piFix : Nat := 0x3243f6a8885a308d313198a2e03707344a4093822299f31d0

/-- The alternating power series of sine (term k = 1) or cosine (k = 0) in 2^-192 units, `n` more terms: `t` is the
magnitude of the term of power k. -/
def trigSeries (x2 : Nat) : Nat → Nat → Nat → Int
  | 0, _, _ => 0
  | n + 1, k, t => (t : Int) - trigSeries x2 n (k + 2) (t * x2 / 2 ^ 192 / ((k + 1) * (k + 2)))

/-- sin of x × 2^-192 for 0 ≤ x ≤ π/4, in the same units. -/
def sinFix (x : Nat) : Nat := (trigSeries (x * x / 2 ^ 192) 30 1 x).toNat

/-- cos of x × 2^-192 for 0 ≤ x ≤ π/4. -/
def cosFix (x : Nat) : Nat := (trigSeries (x * x / 2 ^ 192) 30 0 (2 ^ 192)).toNat

/-- sin and cos of 2π t / 2^k for 2^3 ∣ t or not, reduced to the first octant: magnitudes in 2^-192 units and signs
(negative), for 0 ≤ t < 2^k. -/
def sinCos (k t : Nat) : (Bool × Nat) × (Bool × Nat) :=
  let quad := 4 * t / 2 ^ k
  let r := 4 * t % 2 ^ k            -- angle r / 2^k of a quarter turn
  let ang := fun (u : Nat) => piFix * u / 2 ^ (k + 1)
  let sc := if 2 * r ≤ 2 ^ k then (sinFix (ang r), cosFix (ang r))
    else (cosFix (ang (2 ^ k - r)), sinFix (ang (2 ^ k - r)))
  match quad % 4 with
  | 0 => ((false, sc.1), (false, sc.2))
  | 1 => ((false, sc.2), (true, sc.1))
  | 2 => ((true, sc.1), (true, sc.2))
  | _ => ((true, sc.2), (false, sc.1))

/-- A fixed-point value as the nearest binary32. -/
def fixToFp (x : Bool × Nat) : Nat := (roundFp .nearestEven (x.1 && x.2 != 0) x.2 (-192)).1

/-- The twiddle w of index t of a transform of 2^k points: (cos θ, −sin θ), or (cos θ, sin θ) inverse (R489). -/
def twiddle (k t : Nat) (inverse : Bool) : Nat × Nat :=
  let sc := sinCos k (t % 2 ^ k)
  let s := if inverse then sc.1 else (!sc.1.1, sc.1.2)
  (fixToFp sc.2, fixToFp s)

/-! ## Arithmetic of elements (R487 to R492) -/

/-- An element: a real value or an integer (two's complement, 32 bits) in `re`, a complex one in both. -/
structure Elem where
  re : Nat
  im : Nat
deriving DecidableEq, Repr

/-- fl(a × b) with its sign inverted where `neg`, as an addend. -/
def prodNeg (neg : Bool) (p : Nat) : Nat := if neg then p ^^^ 2 ^ 31 else p

/-- The complex product (R488): with `conj`, by the conjugate of b. -/
def cmul (rm : Rm) (conj : Bool) (a b : Elem) : Elem × Nat :=
  let bi := if conj then b.im ^^^ 2 ^ 31 else b.im
  let p := fmul rm a.im bi
  let q := fmul rm a.im b.re
  let r := fma rm false false a.re b.re (prodNeg true p.1)
  let i := fma rm false false a.re bi q.1
  ({ re := r.1, im := i.1 }, p.2 ||| q.2 ||| r.2 ||| i.2)

/-- A two-input real operation part by part. -/
def partwise (f : Nat → Nat → Nat × Nat) (cplx : Bool) (a b : Elem) : Elem × Nat :=
  let r := f a.re b.re
  if cplx then let i := f a.im b.im; ({ re := r.1, im := i.1 }, r.2 ||| i.2) else ({ re := r.1, im := 0 }, r.2)

/-- One element of an operation without blocks: element i of inputs a, b, c (R483). `cplx` is the class of input a. `st` is
the type of ST. -/
def elemOp (n : WNode) (rm : Rm) (cplx : Bool) (st i : Nat) (a b c : Elem) : Elem × Nat :=
  let real := fun (x : Nat × Nat) => (({ re := x.1, im := 0 } : Elem), x.2)
  match n.unit, n.op with
  | 1, _ => partwise (fun x _ => fmul rm x b.re) cplx a a
  | 2, 0 => partwise (fadd rm) cplx a b
  | 2, 1 => partwise (fsub rm) cplx a b
  | 2, 2 => real (fminmax true a.re b.re)
  | 2, 3 => real (fminmax false a.re b.re)
  | 2, 4 => real (a.re % 2 ^ 31, 0)
  | 2, _ => real (a.re ^^^ 2 ^ 31, 0)
  | 3, op =>
    let f := fun (x y : Nat) => fma rm (op == 2 || op == 3) (op == 1 || op == 3) x b.re y
    partwise f cplx a c
  | 4, 0 => cmul rm false a b
  | 4, 1 => cmul rm true a b
  | 4, 3 => let w := twiddle (n.param % 32) i (bit n.param 10); cmul rm false a { re := w.1, im := w.2 }
  | 4, 4 => let p := fmul rm a.im a.im; let r := fma rm false false a.re a.re p.1; ({ re := r.1, im := 0 }, p.2 ||| r.2)
  | 4, _ => ({ a with im := a.im ^^^ 2 ^ 31 }, 0)
  | 6, 0 => real (fromInt rm (signed 32 a.re) (signed 8 (n.param % 256)))
  | 6, _ =>
    let w := if st = 3 then 16 else if st = 4 then 24 else 32
    let r := toInt rm a.re (-(signed 8 (n.param % 256))) (-(2 ^ (w - 1) : Nat)) ((2 ^ (w - 1) : Nat) - 1)
    ({ re := wrap 32 r.1, im := 0 }, r.2)
  | 7, 0 => ({ re := a.re, im := b.re }, 0)
  | 7, 1 => ({ re := a.re, im := 0 }, 0)
  | 7, _ => ({ re := a.im, im := 0 }, 0)
  | 8, 0 => real (fdiv rm a.re b.re)
  | 8, 1 => real (fsqrt rm a.re)
  | 8, _ => real (frsqrt rm a.re)
  | _, _ => (a, 0)

/-- BFLY: the two results of pair i. -/
def bfly (n : WNode) (rm : Rm) (i : Nat) (a b : Elem) : (Elem × Elem) × Nat :=
  let k := n.param % 32
  let p := 2 ^ (n.param / 32 % 32)
  let w := twiddle k (i % 2 ^ (k - 1) / p * p) (bit n.param 10)
  let t := cmul rm false { re := w.1, im := w.2 } b
  let x := partwise (fadd rm) true a t.1
  let y := partwise (fsub rm) true a t.1
  ((x.1, y.1), t.2 ||| x.2 ||| y.2)

/-- The accumulators of RED SUM with the elements of a group added in order, element j to accumulator j mod `lanes`. -/
def accumulate (rm : Rm) (lanes : Nat) : Nat → List Nat → SMap Nat × Nat → Nat → SMap Nat × Nat
  | _, [], acc, _ => acc
  | j, x :: xs, acc, z =>
    let r := fadd rm (SMap.get z acc.1 (j % lanes)) x
    accumulate rm lanes (j + 1) xs (SMap.set z acc.1 (j % lanes) r.1, acc.2 ||| r.2) z

/-- Values combined in pairs, level by level, as VSUM's tree combines them (R448). -/
def sumTree (rm : Rm) : Nat → List Nat → Nat × Nat
  | 0, xs => (xs.getD 0 0, 0)
  | n + 1, xs =>
    let h := 2 ^ n
    let l := sumTree rm n (xs.take h)
    let r := sumTree rm n (xs.drop h)
    let s := fadd rm l.1 r.1
    (s.1, l.2 ||| r.2 ||| s.2)

/-- The sum of a group's values over 2^k accumulators (R490). -/
def groupSum (rm : Rm) (k : Nat) (xs : List Nat) : Nat × Nat :=
  let z := if rm = .down then 0 else 2 ^ 31
  let acc := accumulate rm (2 ^ k) 0 xs ([], 0) z
  let t := sumTree rm k ((List.range (2 ^ k)).map (SMap.get z acc.1))
  (t.1, acc.2 ||| t.2)

/-- maximumNumber or minimumNumber of a group (R491). -/
def groupExt (isMax : Bool) (xs : List Nat) : Nat × Nat :=
  match xs with
  | [] => (canonNan, 0)
  | x :: rest => rest.foldl (fun acc y => let r := fminmax isMax acc.1 y; (r.1, acc.2 ||| r.2))
      (fminmax isMax x x)

/-- One group through RED. -/
def redOp (n : WNode) (rm : Rm) (cplx : Bool) (xs : List Elem) : Elem × Nat :=
  if n.op = 0 then
    (if cplx then
      let r := groupSum rm 4 (xs.map (·.re)); let i := groupSum rm 4 (xs.map (·.im))
      ({ re := r.1, im := i.1 }, r.2 ||| i.2)
    else let r := groupSum rm 5 (xs.map (·.re)); ({ re := r.1, im := 0 }, r.2))
  else
    let m := groupExt (n.op == 1 || n.op == 3) (xs.map (·.re))
    if n.op ≤ 2 then ({ re := m.1, im := 0 }, m.2)
    else
      let allNan := xs.all fun x => (fpOf x.re).isNan
      let i := if allNan then 0xFFFFFFFF else (xs.findIdx fun x => !(fpOf x.re).isNan && (fpOf x.re).cmp (fpOf m.1) == .eq)
      ({ re := i, im := 0 }, m.2)

/-- The low b bits of i in reverse order. -/
def bitrev : Nat → Nat → Nat
  | 0, _ => 0
  | b + 1, i => i % 2 * 2 ^ b + bitrev b (i / 2)

/-- A list cut into pieces of n; at most `fuel` of them. -/
def chunks {α : Type} : Nat → Nat → List α → List (List α)
  | 0, _, _ => []
  | fuel + 1, n, xs => if xs.isEmpty then [] else xs.take n :: chunks fuel n (xs.drop n)

/-- A block through BITREV or TRANSPOSE: read by rows of C_t, written by columns (R483). -/
def permute (n : WNode) (xs : List Elem) : List Elem :=
  let z : Elem := ⟨0, 0⟩
  if n.op = 3 then (List.range xs.length).map fun i => xs.getD (bitrev (n.param % 16) i) z
  else (List.range xs.length).map fun i => xs.getD (i % n.rows * n.cols + i / n.rows) z

/-- A parameter outside the range R483 gives it: the result is then not stated. -/
def badParam (n : WNode) (cplx : Bool) : Bool :=
  let k := n.param % 32
  (n.unit == 4 && (n.op == 2 || n.op == 3) && (k == 0 || decide (27 < k))) ||
  (n.unit == 4 && n.op == 2 && decide (26 < n.param / 32 % 32)) ||
  (n.unit == 5 && decide (27 < k)) ||
  (n.unit == 7 && n.op == 3 && (n.param % 16 == 0 || decide ((if cplx then 11 else 12) < n.param % 16)))

/-- The values of a node from those of its inputs: input a as a list, b and c by index. Elements whose parameter is out of
range are free values from number `free` on. -/
def nodeValues (n : WNode) (rm : Rm) (cplx : Bool) (st free : Nat) (len : Nat) (a b c : Nat → Elem) : List Elem × Nat :=
  let xs := (List.range len).map a
  if badParam n cplx then
    let outLen := if n.unit = 5 then len / n.group else if n.unit = 4 ∧ n.op = 2 then 2 * len else len
    ((List.range outLen).map fun i =>
      { re := (Config.freeWord (free + 2 * i)).toNat, im := (Config.freeWord (free + 2 * i + 1)).toNat }, 0)
  else if n.unit = 5 then
    let rs := (chunks (len / n.group) n.group xs).map (redOp n rm cplx)
    (rs.map (·.1), rs.foldl (fun f x => f ||| x.2) 0)
  else if n.unit = 4 ∧ n.op = 2 then
    let rs := (List.range len).map fun i => bfly n rm i (a i) (b i)
    (rs.flatMap fun x => [x.1.1, x.1.2], rs.foldl (fun f x => f ||| x.2) 0)
  else if n.unit = 7 ∧ 3 ≤ n.op then ((chunks (len / n.block) n.block xs).flatMap (permute n), 0)
  else
    let rs := (List.range len).map fun i => elemOp n rm cplx st i (a i) (b i) (c i)
    (rs.map (·.1), rs.foldl (fun f x => f ||| x.2) 0)

/-- The element of a source by index: a stream's, a constant, or a node's. -/
def srcElem (c : Chain) (ld : Nat → List Elem) (outs : List (List Elem)) (src i : Nat) : Elem :=
  match src with
  | 4 => { re := c.k0, im := 0 }
  | 5 => { re := c.k1, im := 0 }
  | _ => ((if src ≤ 3 then ld src else outs.getD (src - 8) []).getD i ⟨0, 0⟩)

/-- The values that reach ST, and the chain's flags (R493), from the elements its load streams deliver (by source code).
Free values are numbered from `free` on, 2^30 to a node. -/
def Chain.run (c : Chain) (free : Nat) (ld : Nat → List Elem) : List Elem × Nat :=
  let cls := c.classes
  let r := c.node.foldl (fun (acc : List (List Elem) × Nat) n =>
    let outs := acc.1
    let len := ((n.inputs.filter fun x => x != 4 && x != 5).map fun x =>
      (if x ≤ 3 then (ld x).length else (outs.getD (x - 8) []).length)).getD 0 0
    let cplx := c.srcClass cls n.a == some .cplx
    let v := nodeValues n c.rm cplx c.st.type (free + outs.length * 2 ^ 30) len (srcElem c ld outs n.a)
      (srcElem c ld outs n.b) (srcElem c ld outs n.c)
    (outs ++ [v.1], acc.2 ||| v.2)) ([], 0)
  (if c.nodes = 0 then ld 1 else r.1.getD (c.stSrc - 8) [], r.2)

/-- A stream's element from its bytes: integers sign-extended to 32 bits (R479, R492). -/
def elemOf (type : Nat) (bs : List Byte) : Elem :=
  match type with
  | 2 => { re := fieldLE bs 0 4, im := fieldLE bs 4 4 }
  | 3 => { re := wrap 32 (signed 16 (ofLE bs)), im := 0 }
  | 4 => { re := wrap 32 (signed 24 (ofLE bs)), im := 0 }
  | _ => { re := ofLE bs, im := 0 }

/-- An element's bytes as stored. -/
def elemBytes (type : Nat) (e : Elem) : List Byte :=
  if type = 2 then bytesLE 4 e.re ++ bytesLE 4 e.im else bytesLE (typeSize type) e.re

end Sys2Proof.Machine
end

