-- ==== Sys2Proof/Machine/Web.lean ====
section
/-!
DEFINITION. The Web engine: submission, start, discard and end of chains, completion records and flushes (spec/08, R494 to
R518).
-/
namespace Sys2Proof.Machine

def State.web (s : State) (w : Nat) : WebSt := SMap.get WebSt.reset s.webs w

/-! ## Completion records (R512) -/

/-- The 16-byte completion record of a chain. -/
def chainRecord (ref : ChainRef) (e : ChainFin) : List Byte :=
  bytesLE 2 e.tag ++ bytesLE 1 e.status ++ bytesLE 1 (if e.status = 0 ∨ e.status = 2 then e.flags else 0) ++
  bytesLE 1 e.cause ++ bytesLE 1 ref.src ++ bytesLE 2 0 ++ bytesLE 4 ref.seq ++ bytesLE 4 e.cycles

/-- The ticket of a job chain ends with its chain (R786). -/
def State.chainTicket (s : State) (ref : ChainRef) (e : ChainFin) : State :=
  if ref.src = 0 then s
  else
    let st := if e.status = 0 then (0, 0) else if e.status = 1 then (1, 7) else (2, 9)
    s.endTicket (ref.src - 1) ref.ticket
      { status := st.1, cause := st.2, kind := 3, result := ref.seq, cycles := e.cycles,
        result2 := e.status + e.cause * 2 ^ 8 + (if e.status = 0 ∨ e.status = 2 then e.flags else 0) * 2 ^ 16 }

/-- A chain ends: its record is written where EN is set, and what its end brings with it (R507, R512, R517, R518). -/
def State.endChain (s : State) (w : Nat) (ref : ChainRef) (e : ChainFin) : State :=
  let p := pgWEB w
  let base := s.pair p WEB_CREC_LO WEB_CREC_HI / 16 * 16
  let a := base + 16 * (ref.seq % 2 ^ s.get p WEB_CREC_CFG_LOG2)
  let s1 := if s.on p WEB_CREC_CFG_EN then (s.write (2 + w) a (chainRecord ref e)).2 else s
  let s2 := if e.status = 0 then s1.count64 p WEB_CHAINS_LO WEB_CHAINS_HI
    else ((((s1.put p WEB_LAST_ERROR_STATUS e.status).put p WEB_LAST_ERROR_CAUSE e.cause).put p WEB_LAST_ERROR_TAG e.tag)).put
      p WEB_LAST_SEQ ref.seq
  let s3 := if e.evt then s2.event p 0 else s2
  (s3.onWeb w fun x => { x with running := x.running.filter fun r => r.ref.seq != ref.seq }).chainTicket ref e

/-- Records in order of SEQ, up to the first whose chain has not ended: the state, and the records that remain. -/
def State.endChains (s : State) (w : Nat) : List ChainRec → State × List ChainRec
  | [] => (s, [])
  | r :: rs => match r.fin with
    | none => (s, r :: rs)
    | some e => (s.endChain w r.ref e).endChains w rs

/-- The records that are due written; QUEUE_EMPTY when the last chain has ended and both queues are empty. -/
def State.drainRecords (s : State) (w : Nat) : State :=
  let r := s.endChains w (s.web w).recs
  let s1 := r.1.onWeb w fun x => { x with recs := r.2 }
  let x := s1.web w
  if (s.web w).recs.length ≠ r.2.length ∧ r.2.isEmpty ∧ x.standing.isEmpty ∧ x.job.isEmpty then s1.event (pgWEB w) 3 else s1

/-- How a submission's chain ended, known. -/
def State.finChain (s : State) (w seq : Nat) (e : ChainFin) : State :=
  (s.onWeb w fun x => { x with recs := x.recs.map fun r => if r.ref.seq = seq then { r with fin := some e } else r }).drainRecords w

/-- A chain refused (R501): counted, REFUSED raised, one CHAIN_REFUSED message; a standing chain voids (R510). -/
def State.refuseChain (s : State) (w : Nat) (ref : ChainRef) (cause tag : Nat) (evt : Bool) : State :=
  let s1 := ((s.count (pgWEB w) WEB_REFUSED).event (pgWEB w) 1).report (pgWEB w) (0x020 + w) 15 ref.desc cause
  let s2 := if ref.src = 0 then s1.setVoid 5 else s1
  s2.finChain w ref.seq { status := 1, cause := cause, tag := tag, flags := 0, cycles := 0, evt := evt }

/-! ## Submission (R494 to R496) -/

/-- Chains in the standing queue (0) or the job queue (1) of a web, those a flush will end among them. -/
def State.webDepth (s : State) (w q : Nat) : Nat :=
  let x := s.web w
  (if q = 0 then x.standing.length else x.job.length) + (x.flushing.filter fun r => (r.src == 0) == (q == 0)).length

/-- A submission takes its SEQ, and its queue where there is room. -/
def State.submitChain (s : State) (w : Nat) (desc src ticket : Nat) : State :=
  let p := pgWEB w
  let seq := s.get p WEB_CREC_HEAD
  let ref : ChainRef := { desc := desc, seq := seq, src := src, ticket := ticket }
  let s1 := (s.put p WEB_CREC_HEAD ((seq + 1) % 2 ^ 32)).onWeb w fun x => { x with recs := x.recs ++ [{ ref := ref, fin := none }] }
  let slots := s.get p WEB_QCFG_JOB_SLOTS
  let full := if src = 0 then decide (64 - slots ≤ s.webDepth w 0) else decide (slots ≤ s.webDepth w 1)
  if full then s1.refuseChain w ref 1 0 false
  else if src = 0 then s1.onWeb w fun x => { x with standing := x.standing ++ [ref] }
  else s1.onWeb w fun x => { x with job := x.job ++ [ref] }

/-- WEB_SUBMIT: a write of WEB_SUBMIT_HI from the pair enqueues a standing chain; a submission of the pair that the web
ignores voids the execution (R494, R510, R516). A sleeping web wakes (R518). -/
def execWebSubmit (w m : Nat) (v : W32) (s : State) : Result :=
  let p := pgWEB w
  let rs := reasonIf (m != 0) .wrongMaster
  let desc := (s.get p WEB_SUBMIT_LO + bits v.toNat 15 0 * 2 ^ 32) / 128 * 128
  let s1 := s.tryWrite m p 0x050 rs fun s => (if s.asleep (4 + w) then s.wake (4 + w) 5 else s).submitChain w desc 0 0
  .next (if m = 0 ∧ s.pageAllows m p 0x050 true ∧ (lowest (s.pageReasons p ++ rs)).isSome then s1.setVoid 5 else s1)

/-- JOB_CHAIN_SUBMIT: the oldest job submission packet on its way to a web enqueues its chain. A sleeping web wakes, and the
packet is held until it has (R494, R605). -/
def execJobChainSubmit (w : Nat) (s : State) : Result :=
  match (s.web w).incoming with
  | [] => .next s
  | ref :: rest =>
    if s.asleep (4 + w) then .next (s.wake (4 + w) 5)
    else .next ((s.onWeb w fun x => { x with incoming := rest }).submitChain w ref.desc ref.src ref.ticket)

/-! ## Start (R497, R498, R501) -/

/-- An extent in Stone, or in populated Reel memory (R501 code 8). -/
def State.inMemory (s : State) (e : Int × Int) : Bool :=
  (decide (0 ≤ e.1) && decide (e.2 < 0x04000000)) ||
  (decide ((reelBase : Int) ≤ e.1) && decide (e.2 < (reelBase : Int) + s.reelBytes))

/-- An extent lies within one region of a master that grants the access. -/
def State.extentGranted (s : State) (m : Nat) (e : Int × Int) (write : Bool) : Bool :=
  s.regionOk m e.1.toNat (e.2 - e.1 + 1).toNat write

/-- The first failing check of a descriptor, codes 3 to 11 of R501. -/
def State.chainCause (s : State) (w : Nat) (job : Bool) (c : Chain) : Option Nat :=
  let en := c.st :: c.loads
  if !c.formed then some 3
  else if !c.wired then some 4
  else if !c.typed then some 5
  else if !c.counted then some 6
  else if !(en.all fun x => x.addr % typeAlign x.type == 0) then some 7
  else if !(en.all fun x => s.inMemory x.extent) then some 8
  else if !(c.loads.all fun x => s.extentGranted (2 + w) x.extent false) ||
      !s.extentGranted (2 + w) c.st.extent true then some 9
  else if c.aliased then some 10
  else if job && !(en.all fun x => decide (x.count ≤ 2 ^ s.get (pgWEB w) WEB_QCFG_JOB_COUNT_LOG2)) then some 11
  else none

/-- Chain c must wait for a chain of the same web that has not ended (R498). -/
def hazardWith (c d : Chain) : Bool :=
  (c.st :: c.loads).any (fun x => meets x.extent d.st.extent) || d.loads.any fun x => meets x.extent c.st.extent

/-- The Reel stacks a chain needs that sleep. -/
def State.sleepingStacks (s : State) (ref : ChainRef) (c : Chain) : List Nat :=
  if decide (reelBase ≤ ref.desc) || (c.st :: c.loads).any fun x => decide (reelBase ≤ x.addr)
  then s.stacks.filter fun k => s.asleep (12 + k) else []

/-- The descriptor of a submission: none where its address or its fetch fails (R501 code 2). -/
def State.fetchChain (s : State) (w : Nat) (ref : ChainRef) : Option (List Byte) × State :=
  if s.inMemory (ref.desc, ref.desc + 127) then
    match s.read (2 + w) ref.desc 128 with
    | (.ok bs, s1) => (some bs, s1)
    | (_, s1) => (none, s1)
  else (none, (s.read (2 + w) ref.desc 128).2)

/-- The chain that starts next, taken from its queue. -/
def State.takeChain (s : State) (w : Nat) (ref : ChainRef) : State :=
  s.onWeb w fun x =>
    if ref.src = 0 then { x with standing := x.standing.drop 1, checked := SMap.set [] x.checked ref.seq [], hazard := false }
    else { x with job := x.job.drop 1, checked := SMap.set [] x.checked ref.seq [], hazard := false }

/-- The next chain of a web: the standing queue goes first (R497). -/
def WebSt.next (x : WebSt) : Option ChainRef :=
  match x.standing with
  | r :: _ => some r
  | [] => x.job.head?

/-- A checked chain waits for an earlier chain of its web that has not ended (R498). -/
def WebSt.blocked (x : WebSt) (d : List Byte) : Bool := x.running.any fun r => hazardWith (chainOf d) (chainOf r.desc)

/-- WEB_STATUS.HAZARD_WAIT: the next chain has passed its check and waits (R498). -/
def WebSt.hazardWait (x : WebSt) : Bool :=
  match x.next with
  | some ref => decide (SMap.get [] x.checked ref.seq ≠ []) && x.blocked (SMap.get [] x.checked ref.seq)
  | none => false

/-- A chain that has passed its check waits or issues its first load (R498, R500). -/
def State.startChecked (s : State) (w : Nat) (ref : ChainRef) (d : List Byte) : State :=
  let x := s.web w
  let asleep := s.sleepingStacks ref (chainOf d)
  if !asleep.isEmpty then asleep.foldl (fun s k => s.wake (12 + k) 6) s
  else if x.blocked d then
    (if x.hazard then s else (s.count (pgWEB w) WEB_HAZARD_WAITS).onWeb w fun x => { x with hazard := true })
  else (s.takeChain w ref).onWeb w fun x =>
    { x with running := x.running ++ [{ ref := ref, desc := d, discard := none, done := false }] }

/-- CHAIN_START: the web fetches and checks its next chain, the standing queue first, and starts its loads; a chain that
fails a check is refused, one with a hazard waits with its check passed (R497 to R503). -/
def execChainStart (w : Nat) (s : State) : Result :=
  let x := s.web w
  match x.next with
  | none => .next s
  | some ref =>
    if !s.webUp w || !s.on (pgWEB w) WEB_CTRL_ENABLE || !x.flushing.isEmpty || decide (2 ≤ s.domState (4 + w)) then .next s
    else
      let held := SMap.get [] x.checked ref.seq
      if held ≠ [] then .next (s.startChecked w ref held)
      else match s.fetchChain w ref with
      | (none, s1) => .next ((s1.takeChain w ref).refuseChain w ref 2 0 false)
      | (some d, s1) =>
        let c := chainOf d
        match s1.chainCause w (ref.src != 0) c with
        | some cause => .next ((s1.takeChain w ref).refuseChain w ref cause c.tag c.evt)
        | none => .next ((s1.onWeb w fun x => { x with checked := SMap.set [] x.checked ref.seq d }).startChecked w ref d)

/-! ## Running, discard and end (R507 to R511) -/

/-- The Stone line or Reel sector of an address, as its first address (R506). -/
def lineOf (a : Nat) : Nat := if a < reelBase then a / 64 * 64 else a / 32 * 32

/-- The parts of an element at address a, address and length, that lie in one line or sector each. -/
def linePieces (a z : Nat) : List (Nat × Nat) :=
  let h := lineOf (a + z - 1)
  if h = lineOf a then [(a, z)] else [(a, h - a), (h, a + z - h)]

/-- The memory words that pieces of a stream read, in order: consecutive pieces in one Stone line or Reel sector share an
access, which reads a word once (R506). `line` and `seen` are the access before and its words. -/
def wordsRead : (line : Nat) → (seen : List Nat) → List (Nat × Nat) → List Nat
  | _, _, [] => []
  | line, seen, (a, z) :: ps =>
    let ws := wordsTouched a z
    if lineOf a = line then ws.filter (fun u => !seen.contains u) ++ wordsRead line (seen ++ ws) ps
    else ws ++ wordsRead (lineOf a) ws ps

/-- A load stream's elements; the first element whose access fails gives its cause and address (R508). -/
def State.loadStream (s : State) (m : Nat) (x : Stream) : Except (Nat × Nat) (List Elem) × State :=
  let z := typeSize x.type
  let as := (List.range x.count).map fun i => (x.elem i).toNat
  let good := as.takeWhile fun a => s.extentOk a z && !(wordsTouched a z).any s.isBad
  match as[good.length]? with
  | none => (.ok (as.map fun a => elemOf x.type (s.bytes a z)), (s.readWords m false (wordsRead (2 ^ 48) [] (as.flatMap (linePieces · z)))).2)
  | some a =>
    let s1 := (s.readWords m false (wordsRead (2 ^ 48) [] (good.flatMap (linePieces · z)))).2
    if s.extentOk a z then (.error (1, a), (s1.readWords m false (wordsTouched a z)).2)
    else (.error (2, a), s1.refuseAddress m a false)

/-- The accesses that carry a stream's stores, newest first, each a line or sector with the bytes stored in it by address:
consecutive elements in one Stone line or Reel sector share an access; an element across two is in both (R506). -/
def joinStores (rs : List (Nat × SMap (Option Byte))) (x : Nat × List Byte) : List (Nat × SMap (Option Byte)) :=
  let ys := x.2.zipIdx.map fun y => (x.1 + y.2, y.1)
  let put := fun (m : SMap (Option Byte)) (ys : List (Nat × Byte)) => ys.foldl (fun m y => SMap.set none m y.1 (some y.2)) m
  let at' := fun (rs : List (Nat × SMap (Option Byte))) (l : Nat) (ys : List (Nat × Byte)) =>
    match rs with
    | (k, m) :: rest => if ys.isEmpty then rs else if k = l then (k, put m ys) :: rest else (l, put [] ys) :: rs
    | [] => if ys.isEmpty then [] else [(l, put [] ys)]
  let lo := lineOf x.1
  let hi := lineOf (x.1 + x.2.length - 1)
  let now := match rs with | (k, _) :: _ => k | [] => lo
  let first := if now = hi then hi else lo
  at' (at' rs first (ys.filter fun y => lineOf y.1 == first)) (lo + hi - first) (ys.filter fun y => lineOf y.1 != first)

/-- Stores in order, up to one that fails (R508 cause 3): its address. -/
def State.storeAll (s : State) (m : Nat) : List (Nat × List Byte) → Option Nat × State
  | [] => (none, s)
  | (a, bs) :: rest =>
    match s.writeRaw m a bs with
    | (.ok, s1) => s1.storeAll m rest
    | (_, s1) => (some a, s1)

/-- A running chain meets a cause: one CHAIN_DISCARDED message, counted, DISCARDED raised, the address recorded; a standing
chain voids (R508 to R510). -/
def State.discardChain (s : State) (w : Nat) (ref : ChainRef) (cause addr : Nat) : State :=
  let p := pgWEB w
  let a := if cause = 4 ∨ cause = 6 then 0 else addr
  let s1 := (((s.count p WEB_DISCARDED).event p 2).report p (0x020 + w) 16 a cause).putPair p WEB_FAULT_ADDR_LO
    WEB_FAULT_ADDR_HI (a % 2 ^ 48)
  if ref.src = 0 then s1.setVoid 5 else s1

/-- The ST extent left undefined by a discard: free bytes with correct check bits (R10, R509). -/
def State.undefineExtent (s : State) (x : Stream) : State :=
  let lo := x.extent.1.toNat
  let n := (x.extent.2 - x.extent.1 + 1).toNat
  let f := s.free
  let s1 := (wordsTouched lo n).foldl State.clearWord s
  (s1.setBytes lo ((List.range n).map fun i => Config.freeByte (f + i))).skipFree n

/-- Queued chains of a flush end, once no chain runs (R511). -/
def State.endFlush (s : State) (w : Nat) : State :=
  let x := s.web w
  if x.running.all (·.done) then
    x.flushing.foldl (fun s r => (s.count (pgWEB w) WEB_FLUSHED).finChain w r.seq
      { status := 3, cause := 0, tag := 0, flags := 0, cycles := 0, evt := false })
      (s.onWeb w fun x => { x with flushing := [] })
  else s

/-- A running chain's last store has committed or failed: its record becomes due. -/
def State.overChain (s : State) (w seq : Nat) (e : ChainFin) : State :=
  ((s.onWeb w fun x => { x with running := x.running.map fun r => if r.ref.seq = seq then { r with done := true } else r }).finChain
    w seq e).endFlush w

/-- A chain that was discarded ends. -/
def State.endDiscarded (s : State) (w : Nat) (r : ChainRun) (cause cycles : Nat) : State :=
  let c := chainOf r.desc
  let f := s.takeFree
  (f.2.undefineExtent c.st).overChain w r.ref.seq
    { status := 2, cause := cause, tag := c.tag, flags := (Config.freeWord f.1).toNat % 32, cycles := cycles, evt := c.evt }

/-- A load stream read where it is enabled and nothing has failed. -/
def State.loadNext (m : Nat) (acc : Except (Nat × Nat) (SMap (List Elem)) × State) (x : Nat × Stream) :
    Except (Nat × Nat) (SMap (List Elem)) × State :=
  match acc.1 with
  | .error e => (.error e, acc.2)
  | .ok ls =>
    if x.2.enable then
      match acc.2.loadStream m x.2 with
      | (.error e, s1) => (.error e, s1)
      | (.ok es, s1) => (.ok (SMap.set [] ls x.1 es), s1)
    else acc

/-- A chain runs: its loads, its nodes and its stores. -/
def State.runChain (s : State) (w : Nat) (r : ChainRun) (cycles : Nat) : State :=
  let c := chainOf r.desc
  let m := 2 + w
  match [(1, c.la), (2, c.lb), (3, c.lc)].foldl (State.loadNext m) (.ok [], s) with
  | (.error e, s1) => (s1.discardChain w r.ref e.1 e.2).endDiscarded w r e.1 cycles
  | (.ok ls, s1) =>
    let v := c.run s1.free (SMap.get [] ls)
    let s2 := s1.skipFree (2 ^ 34)
    let stores := ((v.1.zipIdx).map fun x => ((c.st.elem x.2).toNat, elemBytes c.st.type x.1)).foldl joinStores []
    match s2.storeAll m (stores.reverse.flatMap fun x => runsOf x.2) with
    | (some a, s3) => (s3.discardChain w r.ref 3 a).endDiscarded w r 3 cycles
    | (none, s3) => s3.overChain w r.ref.seq
        { status := 0, cause := 0, tag := c.tag, flags := v.2, cycles := cycles, evt := c.evt }

/-- The chain running in place i of a web, whose last store has not committed. -/
def State.runningChain (s : State) (w i : Nat) : Option ChainRun :=
  match (s.web w).running[i]? with
  | some r => if r.done then none else some r
  | none => none

/-- An access of a chain lies at an address: causes 1 and 2 name an element it loads, 3 one it stores, 5 either; causes 4 and 6
name none (R508, R509). -/
def Chain.namesAt (c : Chain) (cause addr : Nat) : Bool :=
  let holds := fun (x : Stream) => (List.range x.count).any fun i => decide ((x.elem i).toNat ≤ addr) &&
    decide (addr < (x.elem i).toNat + typeSize x.type)
  if cause = 1 ∨ cause = 2 then c.loads.any holds
  else if cause = 3 then holds c.st
  else if cause = 5 then (c.st :: c.loads).any holds else true

/-- CHAIN_DISCARD: the chain running in place i meets an error at an address it accesses (R508): a failing load shows in its
memory, and causes 2 to 6 come from outside the model. -/
def execChainDiscard (w i cause addr : Nat) (s : State) : Result :=
  match s.runningChain w i with
  | none => .next s
  | some r =>
    if r.discard.isSome || cause = 0 || decide (6 < cause) || !(chainOf r.desc).namesAt cause addr then .next s
    else
      let chk := if cause = 1 then s.readRaw (2 + w) addr 1 else (.uncorr, s)
      if chk.1 = .uncorr then
        .next ((chk.2.discardChain w r.ref cause addr).onWeb w fun x =>
          { x with running := x.running.map fun q => if q.ref.seq = r.ref.seq then { q with discard := some (cause, addr) } else q })
      else .next s

/-- CHAIN_END: the chain running in place i ends `cycles` Fc cycles after its first load (R507, R512). -/
def execChainEnd (w i cycles : Nat) (s : State) : Result :=
  match s.runningChain w i with
  | none => .next s
  | some r =>
    let n := min cycles 0xFFFFFFFF
    match r.discard with
    | some d => .next (s.endDiscarded w r d.1 n)
    | none => .next (s.ioTouch.runChain w r n)

/-- Every chain of the standing queue, and of the job queue where `all`, is to end FLUSHED. -/
def State.flushWeb (s : State) (w : Nat) (all : Bool) : State :=
  (s.onWeb w fun x => { x with
    flushing := x.flushing ++ x.standing ++ (if all then x.job else []), standing := [],
    job := if all then [] else x.job
    checked := if all then [] else x.checked.filter fun y => x.job.any (·.seq == y.1), hazard := false }).endFlush w

/-- A write of WEB_CTRL. -/
def State.webCtrlWrite (s : State) (w m : Nat) (v : W32) : State :=
  s.tryWrite m (pgWEB w) 0x040 [] fun s =>
    let s1 := s.put (pgWEB w) WEB_CTRL_ENABLE (b2n (v.getLsbD 0))
    if v.getLsbD 2 then s1.flushWeb w true else s1

/-- WEB_FLUSH: a write of WEB_CTRL with FLUSH (R511). -/
def execWebFlush (w m : Nat) (v : W32) (s : State) : Result := .next (s.webCtrlWrite w m v)

/-- WEB_ENABLE_WRITE: a write of WEB_CTRL.ENABLE (R516). -/
def execWebEnableWrite (w m : Nat) (v : W32) (s : State) : Result := .next (s.webCtrlWrite w m v)

/-- Standing chains of a web that have not ended (WEB_SP_PENDING, R507). -/
def State.spPending (s : State) (w : Nat) : Nat := ((s.web w).recs.filter fun r => r.ref.src == 0).length

end Sys2Proof.Machine
end

