-- ==== Sys2Proof/Machine/Compositor.lean ====
section
/-!
DEFINITION. Impressions in the Compositor: entry, end, void executions and recompute, the trio, migrations, the cross-check
and the spare core (spec/06, R344 to R365; spec/04, R256 to R259; spec/15, R801, R802).
-/
namespace Sys2Proof.Machine

/-! ## The cores (R344, R362 to R365, R681) -/

/-- The Compositor core out of service (state 0). -/
def State.coreOut (s : State) (n : Nat) : State := s.put pgCOMPOSITOR (coreStateFld n) 0

/-- The pair, rising. -/
def State.pair2 (s : State) : List Nat := [s.get pgCOMPOSITOR COMP_PAIR_FIRST, s.get pgCOMPOSITOR COMP_PAIR_SECOND]

/-- The states of the cores in service shown: 2 paired, 3 trio, 5 proving, 1 standby. -/
def State.showCores (s : State) (trio : Bool) : State :=
  (s.coresInService).foldl (fun s n => s.put pgCOMPOSITOR (coreStateFld n)
    (if trio then 3 else if s.pair2.contains n then 2 else if s.get pgCOMPOSITOR (coreStateFld n) = 5 then 5 else 1))
    (s.put pgCOMPOSITOR COMP_PAIR_TRIO (b2n trio))

/-- The pair formed anew from the cores in service: those of the pair that stay, the spare for one that left. CORE_SWAP is
raised and the DEVICE page updated (R365, R414, R681). -/
def State.formPair (s : State) : State :=
  let up := s.coresInService
  let keep := s.pair2.filter up.contains
  let extra := up.filter fun n => !s.pair2.contains n
  let pair := (keep ++ extra).take 2
  let a := min (pair.getD 0 0) (pair.getD 1 0)
  let b := max (pair.getD 0 0) (pair.getD 1 0)
  let spare := (up.filter fun n => !pair.contains n).getD 0 3
  let s1 := if pair.length = 2 then (s.put pgCOMPOSITOR COMP_PAIR_FIRST a).put pgCOMPOSITOR COMP_PAIR_SECOND b else s
  let s2 := (s1.put pgCOMPOSITOR COMP_PAIR_SPARE spare).put pgCOMPOSITOR COMP_PAIR_PAIR_OK (b2n (decide (pair.length = 2)))
  let s3 := if s2.pair2 ≠ s.pair2 then s2.event pgCOMPOSITOR 2 else s2
  (s3.showCores false).deviceUpdate

/-- Cores whose tally reached CORE_LIMIT leave service at an impression entry while a spare is in service (R681). -/
def State.swapCores (s : State) : State :=
  let s1 := s.onFault fun f => { f with coreLeaves := [] }
  match s.fault.coreLeaves.filter fun n => s.coresInService.contains n && decide (3 ≤ s.coresInService.length) with
  | [] => s1
  | n :: _ => (s1.coreOut n).formPair

/-- The end of a trio execution: the agreeing cores form the pair and a FAILING core leaves service; without one the pair
resumes (R363, R364). -/
def State.endTrio (s : State) : State :=
  if s.on pgCOMPOSITOR COMP_PAIR_TRIO then
    let s1 := s.put pgCOMPOSITOR COMP_PAIR_TRIO 0
    if s.comp.failing.isEmpty then s1.showCores false
    else (s.comp.failing.foldl State.coreOut s1).formPair
  else s

/-! ## Impression entry (R353 to R355) -/

/-- A core as impression entry leaves it, its counts those of c (R354, R425); bits [1:0] of a pc are always 0 (R419) and
FAST is 0 (R422). -/
def enterCore (c : CoreSt) (b : List Byte) : CoreSt :=
  let w := fun (o : Nat) => BitVec.ofNat 32 (fieldLE b o 4)
  let regs := fun (n o : Nat) => (List.range n).foldl (fun (m : SMap W32) k => SMap.set 0 m k (w (o + 4 * k))) []
  { CoreSt.reset with
    g := SMap.set 0 (regs 32 0x040) 0 0
    f := regs 64 0x0C0
    seg := (List.range 9).foldl (fun m k => SMap.set Seg.none m k (segOf (slice b (0x1C0 + 16 * k) 16))) []
    pc := alignPc (w 0)
    qstatus := w 4 &&& 0x1F3F#32
    cycle := c.cycle
    instret := c.instret
    capCycle := c.capCycle
    capInstret := c.capInstret }

/-- Device address of the impression context block: the pair as it took effect when _HI was written (R412), kept at
index 1. -/
def State.icbAddr (s : State) : Nat := s.pair pgCOMPOSITOR COMP_ICB_LO COMP_ICB_HI 1

/-- The first word of the block that cannot be read. -/
def State.icbBadWord (s : State) (a : Nat) : Nat := ((wordsTouched a 1024).find? s.isBad).getD a

/-- Impression entry: the discard state ends, cores that must leave do, and the cores of the execution are loaded from the
context block and started; where the load fails ICB_ERROR is reported and no core starts (R354, R355). CYCLE and INSTRET go
on from a core that executed last (notes/assumptions/32.md). With `late` the timer has run since the tick (R361). -/
def State.enterImpression (s : State) (trio recompute : Bool) (late : Bool := false) : State :=
  let s1 := (s.onSeq fun q => { q with discard := false, marked := [] }).swapCores
  let s2 := (s1.put pgCOMPOSITOR COMP_IMP_STATUS_VOID 0).put pgCOMPOSITOR COMP_IMP_STATUS_RECOMPUTING (b2n recompute)
  let s3 := s2.showCores (trio && decide (s2.coresInService.length = 3))
  let cores := if s3.on pgCOMPOSITOR COMP_PAIR_TRIO then s3.coresInService else s3.pair2.filter s3.coresInService.contains
  let s4 := if late then s3 else s3.onSp fun p => { p with entryAt := s.mono, told := false }
  let s5 := (s4.resetStack 0).onComp fun c => { c with cores := cores, phase := 1, after := 0, ended := false, failing := [], suppressed := false }
  let a := s.icbAddr
  match (if placeOf a = .stone then s5.read 0 a 1024 else (.refused, s5.refuseAddress 0 a false)) with
  | (.ok b, s6) => cores.foldl (fun t n => t.setCore n (enterCore (s.core (s.comp.cores.getD 0 0)) b)) s6
  | (r, s6) =>
    (s6.report pgCOMPOSITOR 0x019 10 (if r = .uncorr then s.icbBadWord a else a) 0).onComp fun c =>
      { c with cores := [], phase := 4 }

/-! ## Timing (R801, R802) -/

/-- Time of the execution in progress so far. -/
def State.execNs (s : State) : Nat := s.mono - s.sp.entryAt

/-- An execution has passed 0.45 × P: counted and raised once (R802). -/
def State.halfPress (s : State) : State :=
  if s.inExecution && !s.sp.told && decide (45 * s.period < 100 * s.execNs) then
    ((s.count pgJOBS JOBS_HALF_PRESS_EXCEEDED).event pgJOBS 1).onSp fun p => { p with told := true }
  else s

/-- HALF_PRESS_EXCEEDED: time passes 0.45 × P in an execution (R802). -/
def execHalfPressExceeded (t : Nat) (s : State) : Result := .next (s.advance t).halfPress

/-- The impression timer's registers at the sample of R356 (R801). -/
def State.timeExecution (s : State) : State :=
  let ns := min s.execNs (2 ^ 32 - 1)
  if s.on pgCOMPOSITOR COMP_IMP_STATUS_RECOMPUTING then
    s.put pgJOBS JOBS_IMP_RECOMP_MAX_NS (max ns (s.get pgJOBS JOBS_IMP_RECOMP_MAX_NS))
  else (s.put pgJOBS JOBS_IMP_LAST_NS ns).put pgJOBS JOBS_IMP_MAX_NS (max ns (s.get pgJOBS JOBS_IMP_MAX_NS))

/-! ## Migrations (R256 to R259) -/

/-- What a migration moves of a sort: case memory with its error marks, and the flags (R256, R261). -/
def State.contents (s : State) (key : Nat) : SMap Nat × List Nat × List Nat × Nat :=
  let m := s.sort key
  (m.mem, m.bad, m.weak, m.flags)

/-- Contents put at a place. -/
def State.putContents (s : State) (key : Nat) (x : SMap Nat × List Nat × List Nat × Nat) : State :=
  s.setSort key { s.sort key with mem := x.1, bad := x.2.1, weak := x.2.2.1, fixes := [], flags := x.2.2.2, e := false }

/-- Sorts moved all at once, from and to a place each, E cleared in those that receive and in the retired sorts (R258). -/
def State.moveSorts (s : State) (moves : List (Nat × Nat)) (retired : List Nat) : State :=
  let data := moves.map fun x => (x.2, s.contents x.1)
  let s1 := retired.foldl (fun s k => if (s.sort k).e then s.setSort k { s.sort k with e := false } else s) s
  data.foldl (fun s d => s.putContents d.1 d.2) s1

/-- The column migrations of a row, all galleys at once, the spare among them: each sort from the retired column to column 31
moves one physical column east, and the column map switches (R256). -/
def State.migrateColumns (s : State) (row : Nat) : State :=
  let ps := (List.range 17).filter fun p => s.on (pgGALLEY row) (GALLEY_COL_RETIRED_PENDING.at p)
  if ps.isEmpty then s
  else
    let q := fun p => s.get (pgGALLEY row) (GALLEY_COL_RETIRED_COLUMN.at p)
    let moves := ps.flatMap fun p => ((List.range 32).filter fun c => decide (q p ≤ c)).flatMap fun c =>
      (List.range 32).map fun r => (sortKey row p c r, sortKey row p (c + 1) r)
    let retired := ps.flatMap fun p => (List.range 32).map fun r => sortKey row p (q p) r
    let new := ps.foldl (fun s p => s.put (pgGALLEY row) (GALLEY_COL_RETIRED_PENDING.at p) 0) (s.moveSorts moves retired)
    new.put pgFORME FORME_MIGRATIONS ((s.get pgFORME FORME_MIGRATIONS + ps.length) % 2 ^ 32)

/-- The galley migration of a row: the columns of every galley from the retired one to physical galley 15 move to the next
galley's, and the galley map switches (R257). -/
def State.migrateGalley (s : State) (row : Nat) : State :=
  if s.on (pgGALLEY row) GALLEY_REMAP_PENDING then
    let p := s.get (pgGALLEY row) GALLEY_REMAP_RETIRED
    let moves := ((List.range 16).filter fun g => decide (p ≤ g)).flatMap fun g => (List.range 32).flatMap fun c =>
      (List.range 32).map fun r => (sortKey row g (s.physColumn row g c) r, sortKey row (g + 1) (s.physColumn row (g + 1) c) r)
    let retired := (List.range 33).flatMap fun q => (List.range 32).map fun r => sortKey row p q r
    ((s.moveSorts moves retired).put (pgGALLEY row) GALLEY_REMAP_PENDING 0).put pgFORME FORME_MIGRATIONS
      ((s.get pgFORME FORME_MIGRATIONS + 1) % 2 ^ 32)
  else s

/-- The recompute of R359, once no migration is pending: E and the void causes cleared, and an entry in the trio when cause
3 is among them. -/
def State.startRecompute (s : State) : State :=
  let trio := bit (s.get pgCOMPOSITOR COMP_IMP_STATUS_VOID) 3
  ((s.clearE).count pgCOMPOSITOR COMP_RECOMPUTES).enterImpression trio true

/-- MIGRATION_DONE: every pending migration ends, columns before galleys of a row; what waited for it follows (R256 to R259,
R359, R361). Nothing moves while an execution is in progress or being ended. -/
def execMigrationDone (s : State) : Result :=
  if s.migrating = false ∨ s.inExecution ∨ s.comp.phase = 3 then .next s
  else
    let s1 := (List.range 16).foldl (fun s row => (s.migrateColumns row).migrateGalley row) s
    let s2 := s1.event pgFORME 1
    if s.comp.after = 1 then .next s2.startRecompute
    else if s.comp.after = 2 then .next (s2.enterImpression false false true)
    else if s.comp.after = 3 then .next (s2.enterImpression false false)
    else .next s2

/-! ## The end of an execution (R356 to R361) -/

/-- A write of COMP_IMP_CTRL (R412). -/
def execImpEndWrite (m : Nat) (v : W32) (s : State) : Result :=
  .next (s.tryWrite m pgCOMPOSITOR 0x064 (reasonIf (v.getLsbD 0 && s.comp.phase != 1 && s.comp.phase != 2) .state) fun s =>
    if v.getLsbD 0 then s.onComp fun c => { c with phase := 2 } else s)

/-- Galley I/O is done, the Platen settled, no routine runs and no standing chain is left (R356, R361). -/
def State.executionQuiet (s : State) : Bool :=
  s.seq.cur.isNone && s.seq.platen.isEmpty && s.forme.io.isNone && s.websUp.all fun w => s.spPending w == 0

/-- An execution found void (R357, R359, R360): a first execution is recomputed, after pending migrations; a void recompute
fails the impression. No recompute starts after the fatal reaction (R687). -/
def State.voidExecution (s : State) : State :=
  let s1 := ((s.count pgCOMPOSITOR COMP_VOIDS).event pgCOMPOSITOR 6).dropHeld
  if s.on pgCOMPOSITOR COMP_IMP_STATUS_RECOMPUTING then
    (s1.report pgCOMPOSITOR 0x018 12 0 (s.get pgJOBS JOBS_IMP_COUNT)).endCalls 2 9
  else if s.on pgFAULT FAULT_STATUS_FATAL then s1
  else if s.migrating then s1.onComp fun c => { c with after := 1 }
  else s1.startRecompute

/-- EXECUTION_END: the waits of R356 or R361 end. After END, E_ANY is sampled, the execution timed and judged (R357 to
R360); in the ending of R361 the impression entry of the next impression follows, after pending migrations. -/
def execExecutionEnd (t : Nat) (s : State) : Result :=
  let s := s.advance t
  if s.comp.phase = 2 ∧ s.executionQuiet ∧ s.seq.queue.isEmpty then
    let s1 := ((if s.eAny then s.setVoid 0 else s).halfPress).timeExecution
    let s2 := (s1.onComp fun c => { c with phase := 0 }).endTrio
    if s2.get pgCOMPOSITOR COMP_IMP_STATUS_VOID = 0 then
      .next ((s2.onComp fun c => { c with ended := true }).writeHeld)
    else .next s2.voidExecution
  else if s.comp.phase = 3 ∧ s.executionQuiet then
    let s1 := ((s.dropHeld).put pgCOMPOSITOR COMP_IMP_STATUS_VOID 0).endTrio
    let s2 := s1.onComp fun c => { c with phase := 0 }
    if s.comp.after = 2 ∧ s.migrating = false then .next (s2.enterImpression false false true) else .next s2
  else .next s

/-! ## Cross-check and spare (R349 to R351) -/

/-- Every architected register of a core, by the numbers of R664, and its control registers. -/
def xcheckRegs (c : CoreSt) : List (Nat × Nat) :=
  ((List.range 32).map fun r => (r, (SMap.get 0 c.g r).toNat)) ++
  ((List.range 64).map fun r => (32 + r, (c.getF r).toNat)) ++
  ((List.range 16).map fun r => (96 + r, (SMap.get 0 c.shadow (16 + r)).toNat)) ++
  ((List.range 9).map fun r => (112 + r, let g := c.getSeg r; g.base + g.limit * 2 ^ 48 + g.rights * 2 ^ 80)) ++
  (([c.qstatus, c.epc, c.estatus, c.ecause, c.eaddr, c.fepc, c.festatus, c.hvecExc, c.hvecNormal, c.hvecFast,
     BitVec.ofNat 32 c.cycle, c.capCycle.getD 0, BitVec.ofNat 32 c.instret, c.capInstret.getD 0].zipIdx).map fun x => (128 + x.2, x.1.toNat))

/-- The registers in which two cores differ. -/
def xcheckDiffs (a b : CoreSt) : List Nat :=
  (((xcheckRegs a).zip (xcheckRegs b)).filter fun x => x.1.2 != x.2.2).map (·.1.1)

/-- The core a differing register is attributed to: the one whose copy fails parity; 3 neither (R351). -/
def State.xcheckCore (s : State) (a b r : Nat) : Nat :=
  let pa := (s.core a).parBad.contains r
  let pb := (s.core b).parBad.contains r
  if pa && !pb then a else if pb && !pa then b else 3

/-- XCHECK_PASS: the 10 ms comparison of the pair's registers (R350, R351). -/
def execXcheckPass (s : State) : Result :=
  match s.pair2 with
  | [a, b] =>
    if s.on pgCOMPOSITOR COMP_PAIR_PAIR_OK then
      .next ((xcheckDiffs (s.core a) (s.core b)).foldl (fun s r =>
        ((s.count pgCOMPOSITOR COMP_XCHECK_DIFFS).event pgCOMPOSITOR 3).report pgCOMPOSITOR 0x013 8 0
          (r + s.xcheckCore a b r * 2 ^ 8)) s)
    else .next s
  | _ => .next s

/-- SPARE_CORE_PROOF: the spare core's 1 s proof starts (none), or ends; a failure takes the spare out of service (R349, R412).
A trio that takes the spare drops its proof (notes/assumptions/28.md). -/
def execSpareCoreProof (passes : Option Bool) (s : State) : Result :=
  let n := s.get pgCOMPOSITOR COMP_PAIR_SPARE
  if n = 3 ∨ s.on pgCOMPOSITOR COMP_PAIR_TRIO then .next s
  else match passes with
    | none => .next (s.put pgCOMPOSITOR (coreStateFld n) 5)
    | some true => .next (s.put pgCOMPOSITOR (coreStateFld n) 1)
    | some false => .next (((s.coreOut n).report pgCOMPOSITOR 0x016 9 0 n).formPair)

end Sys2Proof.Machine
end

