-- ==== Sys2Proof/Machine/Drive.lean ====
section
/-!
DEFINITION. The commands of the drive table and of the fade (spec/03, R183, R196 to R203).
-/
namespace Sys2Proof.Machine

/-! ## The drive table (R181, R183) -/

/-- An entry of the drive image. -/
def driveEntryOf (b : List Byte) : DriveEntry :=
  { serial := fieldLE b 0 8, channel := fieldLE b 8 2, valid := bit (fieldLE b 10 1) 0, srcWord := fieldLE b 12 4 }

/-- The BOUND drive stream that covers a channel, of lowest STREAM_ID. -/
def State.driveBinding (s : State) (serial ch : Nat) : Option StreamEntry :=
  match s.boundEntry serial with
  | none => none
  | some e => lowestStream (e.streams.filter fun x => x.dir == 2 && decide (x.first ≤ ch) && decide (ch < x.first + x.channels))

/-- An entry's block leaves its buffer (R183 code 3): B_d words of a BOUND stream, one word else. -/
def State.badArea (s : State) (e : DriveEntry) : Bool :=
  let need := match s.driveBinding e.serial e.channel with
    | some st => max 1 (s.driveBlock st)
    | none => 1
  decide (s.get pgDRIVE DRIVE_BUF_WORDS < e.srcWord + need)

/-- A serial has a BOUND drive stream whose RATE × P is no multiple of 10^9 (R183 code 5). -/
def badDriveRate (p : Nat) (e : FtEntry) : Bool :=
  e.state == .bound && e.streams.any fun st => st.dir == 2 && st.rate * p % 1000000000 != 0

/-- The first failing cause of codes 2, 3 and 5, with its lowest entry. -/
def State.driveFault (s : State) (es : List (Nat × DriveEntry)) : Option (Nat × Nat) :=
  let bad := (s.feed.table.filter fun x => badDriveRate s.period x.2).map (·.2.serial)
  match es.find? fun e => es.any fun f => f.1 != e.1 && f.2.serial == e.2.serial && f.2.channel == e.2.channel with
  | some e => some (2, e.1)
  | none => match es.find? fun e => s.badArea e.2 with
    | some e => some (3, e.1)
    | none => if bad = [] then none else some (5, ((es.find? fun e => e.2.serial ∈ bad).map (·.1)).getD 0)

/-- A refused drive commit (R183, R154). -/
def State.driveRefused (s : State) (code entry : Nat) (r : Reason) : State :=
  let s1 := (s.put pgDRIVE DRIVE_COMMIT_STATUS_ERROR code).put pgDRIVE DRIVE_COMMIT_STATUS_ERR_ENTRY entry
  (s1.event pgDRIVE 4).ignored pgDRIVE 0x068 r

/-- DRIVE_COMMIT (R183): GO starts validation of the image that DRIVE_IMAGE and DRIVE_IMAGE_ENTRIES name then; while one
validates or waits, code 4 PENDING. -/
def execDriveCommit (m : Nat) (s : State) : Result :=
  .next (s.tryWrite m pgDRIVE 0x068 [] fun s =>
    if s.drive.validating || s.drive.waiting.isSome then
      ((s.put pgDRIVE DRIVE_COMMIT_STATUS_ERROR 4).event pgDRIVE 4).ignored pgDRIVE 0x068 .busy
    else s.onDrive fun d => { d with validating := true, image :=
      (s.pair pgDRIVE DRIVE_IMAGE_LO DRIVE_IMAGE_HI, s.get pgDRIVE DRIVE_IMAGE_ENTRIES) })

/-- DRIVE_VALIDATION_DONE (R183): the image is refused, or takes effect at once, or waits for the next release tick while
a program runs. -/
def execDriveValidationDone (s : State) : Result :=
  if s.drive.validating = false then .next s
  else
    let s1 := s.onDrive fun d => { d with validating := false }
    let n := s1.drive.image.2
    if n = 0 ∨ 1024 < n then .next (s1.driveRefused 1 0 .commitRefused)
    else match s1.readImage s1.drive.image.1 16 0 n [] with
    | (.error k, s2) => .next (s2.driveRefused 1 k .commitRefused)
    | (.ok bs, s2) =>
      let es := (bs.map fun x => (x.1, driveEntryOf x.2)).filter (·.2.valid)
      match s2.driveFault es with
      | some (c, k) => .next (s2.driveRefused c k .commitRefused)
      | none =>
        let s3 := s2.onDrive fun d => { d with waiting := some es }
        .next (if s3.running then s3 else s3.applyDrive)

/-! ## The fade -/

/-- A write of DRIVE_CTRL: ENABLE is stored, a FADE_CLEAR is taken or alone ignored, and a FADE_REQ comes after a clear
(R196, R202, R203, R885). -/
def State.driveCtrlWrite (s : State) (m : Nat) (v : W32) : State :=
  s.tryWrite m pgDRIVE 0x040 [] fun s =>
    let s1 := s.put pgDRIVE DRIVE_CTRL_ENABLE v.toNat
    let s2 := if bit v.toNat 2 then
        (if s1.clearForbidden then s1.ignored pgDRIVE 0x040 .state else s1.clearFade)
      else s1
    if bit v.toNat 1 then s2.requestFade 4 else s2

/-- FADE_REQ_WRITE (R196): a write of DRIVE_CTRL with FADE_REQ = 1 requests a fade with CAUSE 4. -/
def execFadeReqWrite (m : Nat) (v : W32) (t : Nat) (s : State) : Result :=
  .next ((s.advance t).driveCtrlWrite m (v ||| 2#32))

/-- FADE_CLEAR (R202): a write of DRIVE_CTRL with FADE_CLEAR = 1. -/
def execFadeClear (m : Nat) (v : W32) (t : Nat) (s : State) : Result :=
  .next ((s.advance t).driveCtrlWrite m (v ||| 4#32))

/-- FADE_FRAME_REPEAT (R198): until t0 + T, and three times more after it. -/
def execFadeFrameRepeat (t : Nat) (s : State) : Result :=
  let s := s.advance t
  match s.get pgDRIVE DRIVE_FADE_STATUS_STATE, s.drive.afterRamp with
  | 1, _ => .next s.sheetFade
  | 2, n + 1 => .next (s.sheetFade.onDrive fun d => { d with afterRamp := n })
  | _, _ => .next s

/-- FADE_DONE (R197, R205): device time reaches t0 + T; the drive sends zeros and FADE_DONE is raised. -/
def execFadeDone (t : Nat) (s : State) : Result :=
  let s := s.advance t
  if s.get pgDRIVE DRIVE_FADE_STATUS_STATE = 1 ∧ s.drive.t0 + s.drive.fadeT ≤ s.dev then
    .next ((s.put pgDRIVE DRIVE_FADE_STATUS_STATE 2).event pgDRIVE 1)
  else .next s

end Sys2Proof.Machine
end

