-- ==== Sys2Proof/Machine/LogOps.lean ====
section
/-!
DEFINITION. The journal, the signature counter, the signed test record and the log ports' writes (spec/14, R749 to R761).
-/
namespace Sys2Proof.Machine

/-! ## The journal (R759, R760) -/

def State.onJournal (s : State) (f : JournalSt → JournalSt) : State := s.onColo fun c => { c with journal := f c.journal }

/-- An entry for the journal: dropped where the buffer of 256 is full, unless it is of type 7 (R760). -/
def State.journal (s : State) (type : Nat) (body : List Byte) : State :=
  let j := s.colo.journal
  if 256 ≤ j.buffer.length ∧ type ≠ 7 then
    ((s.count pgCOLOPHON COLOPHON_JOURNAL_DROPS).event pgCOLOPHON 2).onJournal fun j => { j with dropped := min (j.dropped + 1) 65535 }
  else s.onJournal fun j => { j with
    buffer := j.buffer ++ [(type, s.dev, body.take 484)], programming := j.programming || !j.erasing }

/-- An entry whose body the specification leaves to firmware: free bytes, at most 104 of them (R760). -/
def State.journalFree (s : State) (type : Nat) : State :=
  let n := (Config.freeWord s.free).toNat % 105
  (s.skipFree 105).journal type ((List.range n).map fun i => Config.freeByte (s.free + i))

/-- A journal record's 512 bytes (R759). -/
def journalRecord (seq time type dropped : Nat) (body : List Byte) : List Byte :=
  let b := bytesLE 8 seq ++ bytesLE 8 time ++ bytesLE 2 type ++ bytesLE 2 body.length ++ bytesLE 2 dropped ++ bytesLE 2 0 ++
    slice body 0 484
  b ++ bytesLE 4 (crc32 b)

/-! ## The signature counter (R753) -/

/-- COUNTER last used. -/
def State.sigCounter (s : State) : Nat := s.pair pgCRYPTO CRYPTO_SIG_COUNTER_LO CRYPTO_SIG_COUNTER_HI

/-- The next counter value used; a new step of 65,536 is reserved first by a journal record of type 7. -/
def State.useCounter (s : State) : Nat × State :=
  let n := s.sigCounter + 1
  let s1 := if s.colo.flash.counterEnd < n then
      (s.onColo fun c => { c with flash := { c.flash with counterEnd := c.flash.counterEnd + 65536 } }).journalFree 7
    else s
  (n, s1.putPair pgCRYPTO CRYPTO_SIG_COUNTER_LO CRYPTO_SIG_COUNTER_HI n)

/-- Signing has not stopped (R767). -/
def State.canSign (s : State) : Bool := !s.on pgCRYPTO CRYPTO_STATUS_DRBG_FAULT

/-- A message signed with the identity key. -/
def State.sign (s : State) (m : List Byte) : List Byte × State :=
  (ecSign identityKey (freeScalar s.free) m, s.skipFree 1)

/-- DEVICE_SERIAL as 8 bytes. -/
def State.serialBytes (s : State) : List Byte := bytesLE 8 s.deviceSerial

/-! ## Log ports (R755 to R757) -/

def State.logPort (s : State) (k : Nat) : LogPortSt := SMap.get LogPortSt.reset s.log.ports k
def State.onLogPort (s : State) (k : Nat) (f : LogPortSt → LogPortSt) : State :=
  s.onLog fun l => { l with ports := SMap.set LogPortSt.reset l.ports k (f (SMap.get LogPortSt.reset l.ports k)) }

/-- A port can write: enabled, its drive ready and not failed. -/
def State.logUp (s : State) (k : Nat) : Bool :=
  s.on (pgLOGPORT k) LOG_CTRL_ENABLE && s.on (pgLOGPORT k) LOG_STATUS_DRIVE_READY && !s.on (pgLOGPORT k) LOG_STATUS_DRIVE_FAILED

/-- The ports that write: both that can with MIRROR set, else the first (R757). -/
def State.logPorts (s : State) : List Nat :=
  let up := [0, 1].filter s.logUp
  if s.on (pgLOGPORT 0) LOG_CTRL_MIRROR then up else up.take 1

/-- Blocks below this number may be overwritten: the pair as applied by a write of _HI, kept at index 1 (R768). -/
def State.logRelease (s : State) (k : Nat) : Nat := s.pair (pgLOGPORT k) LOG_RELEASE_LO LOG_RELEASE_HI 1

/-- The port may write: a block whose place in the ring is released, a signature record, a Flush (R756). -/
def State.logRoom (s : State) (k what num : Nat) : Bool :=
  decide ((s.logPort k).cmds.length < 63) &&
  (what != 0 || decide (num < s.logRelease k + s.get (pgLOGPORT k) LOG_DATA_BLOCKS_BLOCKS))

/-- The first LBA of a block or record. -/
def State.logLba (s : State) (k what num : Nat) : Nat :=
  let p := pgLOGPORT k
  if what = 0 then s.pair p LOG_DATA_LBA_LO LOG_DATA_LBA_HI + 256 * (num % s.get p LOG_DATA_BLOCKS_BLOCKS)
  else s.pair p LOG_SIG_LBA_LO LOG_SIG_LBA_HI + num % s.get p LOG_SIG_RECORDS_RECORDS

/-- A command goes to a drive. -/
def State.logIssue (s : State) (k what num : Nat) (data : List Byte) : State :=
  let id := (s.logPort k).nextId
  let c : NvmeCmd := { id := id, what := what, num := num, data := data, tries := 0, issued := s.mono }
  (s.onLogPort k fun l => { l with nextId := (id + 1) % 65536, cmds := l.cmds ++ [c] }).emit
    (.nvmeWrite k (s.logLba k what num) data)

/-- The commands that wait at a port issue, in order, while there is room; FULL shows a block that waits for release. -/
def State.logPump (s : State) (k : Nat) : List (Nat × Nat × List Byte) → State
  | [] => (s.onLogPort k fun l => { l with waiting := [] }).put (pgLOGPORT k) LOG_STATUS_FULL 0
  | (what, num, data) :: rest =>
    if s.logRoom k what num then (s.logIssue k what num data).logPump k rest
    else
      let full := decide (what = 0) && decide (s.logRelease k + s.get (pgLOGPORT k) LOG_DATA_BLOCKS_BLOCKS ≤ num)
      let s1 := if full && !s.on (pgLOGPORT k) LOG_STATUS_FULL then s.event (pgLOGPORT k) 1 else s
      (s1.onLogPort k fun l => { l with waiting := (what, num, data) :: rest }).put (pgLOGPORT k) LOG_STATUS_FULL (b2n full)

/-- A write queued at every port that writes. -/
def State.logWrite (s : State) (what num : Nat) (data : List Byte) : State :=
  s.logPorts.foldl (fun s k => s.logPump k ((s.logPort k).waiting ++ [(what, num, data)])) s

/-! ## Blocks (R749, R750) -/

/-- Payload bytes of a full block. -/
def blockPayload : Nat := 1048448

/-- A block's 1,048,576 bytes. -/
def State.blockBytes (s : State) (flags : Nat) (payload : List Byte) : List Byte :=
  let l := s.log
  ascii "EVSB" ++ bytesLE 1 1 ++ bytesLE 1 flags ++ bytesLE 2 0 ++ bytesLE 8 l.num ++ bytesLE 8 l.run ++ bytesLE 8 l.time ++
  bytesLE 4 l.imp ++ bytesLE 4 payload.length ++ l.prev ++ List.replicate 40 0 ++ slice payload 0 blockPayload

/-- A block opens (R749). -/
def State.openRecordBlock (s : State) : State :=
  s.onLog fun l => { l with time := s.dev, imp := s.get pgJOBS JOBS_IMP_COUNT }

/-- The open block closes with up to a block of the bytes taken: chained and written; FLAGS bit 0 PARTIAL, bit 1 FINAL. -/
def State.closeRecordBlock (s : State) (final : Bool) : State :=
  let payload := s.log.stream.take blockPayload
  let flags := b2n (decide (payload.length < blockPayload)) + b2n final * 2
  let b := s.blockBytes flags payload
  let n := s.log.num
  let s1 := s.onLog fun l => { l with num := n + 1, prev := sha384 b, stream := l.stream.drop blockPayload }
  (s1.logWrite 0 n b).openRecordBlock

/-! ## Signature records (R751, R752) -/

/-- Bytes 0 to 415 of a signature record. -/
def State.recordHead (s : State) (reason counter : Nat) : List Byte :=
  let l := s.log
  ascii "EVSS" ++ bytesLE 1 1 ++ bytesLE 1 reason ++ bytesLE 2 0 ++ bytesLE 8 counter ++ bytesLE 8 l.run ++ bytesLE 8 l.first ++
  bytesLE 8 (l.num + 2 ^ 64 - 1) ++ l.prev ++ bytesLE 8 s.dev ++ bytesLE 4 (s.get pgJOBS JOBS_IMP_COUNT) ++
  bytesLE 8 (s.pair pgFAULT FAULT_LOG_HEAD_LO FAULT_LOG_HEAD_HI) ++ bytesLE 8 l.lost ++ bytesLE 8 l.prevCounter ++
  List.replicate 292 0

/-- A signature record is written over the chain, a Flush after it (R752, R756). Nothing is signed after a DRBG fault. -/
def State.signRecord (s : State) (reason : Nat) : State :=
  if s.canSign then
    let u := s.useCounter
    let head := u.2.recordHead reason u.1
    let g := u.2.sign head
    let n := s.log.sigs
    let s1 := (g.2.logWrite 1 n (slice (head ++ g.1) 0 4096)).logWrite 2 n []
    let s2 := s1.logPorts.foldl (fun s k => s.event (pgLOGPORT k) 2) s1
    s2.onLog fun l => { l with first := l.num, lastAt := s.mono, prevCounter := u.1, sigs := n + 1 }
  else s

/-- The run closes: the open block with FINAL, and its signature record (REASON 3 or 4). -/
def State.closeRun (s : State) (reason : Nat) : State :=
  if s.log.open_ then
    let s1 := (s.closeRecordBlock true).signRecord reason
    [0, 1].foldl (fun s k => s.put (pgLOGPORT k) LOG_STATUS_RUN_OPEN 0) (s1.onLog fun l => { l with open_ := false, stream := [] })
  else s

/-! ## Record data (R754, R805) -/

/-- The log stream buffer is full: a closed block waits at some port that writes. -/
def State.logFull (s : State) : Bool := s.logPorts.any fun k => (s.logPort k).waiting.any fun x => x.1 == 0

/-- The log ports take the record data of an impression from its half of bank 30, or lose it where the buffer is full. How
many bytes the standing program placed there the specification does not say: a free number. -/
def State.takeRecord (s : State) (n : Nat) : State :=
  if s.log.open_ && !s.logPorts.isEmpty then
    let len := (Config.freeWord s.free).toNat % (2 ^ 20 + 1)
    let s1 := s.skipFree 1
    if s1.logFull then
      [0, 1].foldl (fun s k => s.putPair (pgLOGPORT k) LOG_BYTES_LOST_LO LOG_BYTES_LOST_HI (s1.log.lost + len))
        (s1.onLog fun l => { l with lost := l.lost + len })
    else
      match s1.readRaw 15 (0x03C00000 + n % 2 * 2 ^ 20) len with
      | (.ok bs, s2) => s2.onLog fun l => { l with stream := l.stream ++ bs }
      | (_, s2) => s2
  else s

end Sys2Proof.Machine
end

