-- ==== Sys2Proof/Machine/Feeder.lean ====
section
/-!
DEFINITION. The commands of the feeder ports: frames, link, LLDP, Sheet hello, the feeder table, pairing and MKA
(spec/02_feeder_ports.md).
-/
namespace Sys2Proof.Machine

/-! ## Frame reception -/

/-- A group address configured on the DRIVE page (R80, R191). -/
def State.groupAddress (s : State) (dst : Nat) : Bool :=
  (List.range 64).any fun g => s.on pgDRIVE DRIVE_GRP_CFG_VALID (g + 1) &&
    s.pair pgDRIVE DRIVE_GRP_MAC_LO DRIVE_GRP_MAC_HI (g + 1) == dst

/-- The address filter of R80. -/
def State.addressPasses (s : State) (p dst : Nat) : Bool :=
  dst == s.portMac p || dst ∈ [macLldp, macPae, macControl, macPtp] || s.groupAddress dst

/-- The nesting of step 1 of the parser (R82, R144). -/
def deepNest (f : EthFrame) : Bool :=
  decide (2 < f.tags.length) || (f.sec.isSome && (f.etherType ∈ vlanTpids || f.etherType == etSecTag))

/-- A pairing step of a Sheet hello (R94, R95): KIND 3 in the Sheet header, STEP 7 or 8 in the body. -/
def isPairStep (f : EthFrame) : Bool :=
  (sheetHdrOf f.body).kind == 3 && ((helloOf f.body).step == 7 || (helloOf f.body).step == 8)

/-- A frame passed on by the port. -/
def State.passFrame (s : State) (p : Nat) (f : EthFrame) : State :=
  { s with feed := { s.feed with passed := s.feed.passed ++ [(p, f)] } }

/-- MACsec verification of a frame with a SecTAG: false with the counted failure, or true with the highest packet number
kept (R82, R123); a packet number at the limit of R120 brings a fresh SAK. DESIGN CHOICE: one highest packet number for the
port and its SAK, not one per sender (notes/assumptions/51.md). -/
def State.macsecVerify (s : State) (p : Nat) (g : SecTag) : Bool × State :=
  if g.known = false ∨ g.icvOk = false then (false, s.count (pgFEED p) FEED_MACSEC_BAD_ICV)
  else
    let q := s.port p
    if g.pn + s.get (pgFEED p) FEED_REPLAY_WINDOW ≤ q.rxHigh then (false, s.count (pgFEED p) FEED_MACSEC_LATE)
    else
      let s1 := s.setPort p { q with rxHigh := max q.rxHigh g.pn }
      (true, if pnLimit ≤ g.pn then s1.freshSak p else s1)

/-- The EtherType decisions of R82 and R94 after MACsec. -/
def State.classify (s : State) (p : Nat) (f : EthFrame) : State :=
  if deepNest f then s.passFrame p f
  else if f.etherType = etLldp ∨ f.etherType = etEapol then s.passFrame p f
  else if f.etherType = etPtp then
    if f.sec.isNone ∧ s.on (pgFEED p) FEED_CTRL_PTP_UNCONTROLLED = false then s.count (pgFEED p) FEED_RX_UNSECURED
    else s.passFrame p f
  else if f.etherType = s.sheetType then
    if f.sec.isNone ∧ ¬(isPairStep f ∧ s.on (pgFEED p) FEED_CTRL_PAIRING) then s.count (pgFEED p) FEED_RX_UNSECURED
    else s.passFrame p f
  else s.count (pgFEED p) FEED_RX_OTHER

/-- The checks of R81, the filter of R80, MACsec and the EtherType (R79 to R82, R87). -/
def State.receiveFrame (s : State) (p : Nat) (f : EthFrame) : State :=
  let s := if s.on (pgFEED p) FEED_STATUS_FEC_ACTIVE then
      (s.count (pgFEED p) FEED_FEC_CORRECTED f.fecCorrected).count (pgFEED p) FEED_FEC_UNCORR f.fecUncorr
    else s
  if f.length < 64 then s.count (pgFEED p) FEED_RX_RUNT
  else if 9216 < f.length then s.count (pgFEED p) FEED_RX_OVERSIZE
  else if f.fcsOk = false then s.count (pgFEED p) FEED_RX_FCS_ERR
  else if s.addressPasses p f.dst = false then s
  else if f.dst = macControl then s.count (pgFEED p) FEED_RX_PAUSE
  else
    let s1 := s.count64 (pgFEED p) FEED_RX_FRAMES_LO FEED_RX_FRAMES_HI
    match f.sec with
    | some g =>
      if 2 < f.tags.length then s1.classify p f
      else
        let r := s1.macsecVerify p g
        if r.1 then r.2.classify p f else r.2
    | none => s1.classify p f

/-- FEED_FRAME_RECEIVE (R81): a port without block lock receives nothing; a frame received in Nap wakes the port
(R854 source 4). -/
def execFeedFrameReceive (p : Nat) (f : EthFrame) (t : Nat) (s : State) : Result :=
  let s := s.advance t
  if s.on (pgFEED p) FEED_STATUS_LINK then
    let s1 := if s.domState (16 + p) = 2 then (s.wake (16 + p) 4).wakeMap 4 else s
    .next (s1.receiveFrame p f)
  else .next s

/-! ## Link -/

/-- The port's MACsec ends with a reset of the port: SECURED falls, no peer is live, and a new SAK is due before a protected
frame (R105, R122). -/
def State.resetKeys (s : State) (p : Nat) : State :=
  ((s.setPort p { s.port p with peers := [], sakKey := [] }).setSecured p false).stalePort p

/-- SPEED and RS_FEC as the port uses them: at another speed it gives up its lock; a search not under way starts at 25GBASE-R;
RS-FEC is in use on a locked 25GBASE-R port with RS_FEC = 1 (R79, R83, R86). `was` is SPEED before the write. -/
def State.applySpeed (s : State) (p was : Nat) : State :=
  let pg := pgFEED p
  let sp := s.get pg FEED_CTRL_SPEED
  let now := s.get pg FEED_STATUS_SPEED_ACTIVE
  let want := if sp = 1 then 1 else if sp = 0 then 0 else if was = 2 ∨ s.on pg FEED_STATUS_LINK then now else 0
  let s1 := if want = now then s else (s.giveUpLink p).put pg FEED_STATUS_SPEED_ACTIVE want
  s1.put pg FEED_STATUS_FEC_ACTIVE (b2n (s1.on pg FEED_STATUS_LINK && s1.on pg FEED_CTRL_RS_FEC && want == 0))

/-- FEED_CTRL.ENABLE of a port written: 1 powers the SerDes and starts at the speed of SPEED; 0 turns the port off, so its
lock and its keys are lost and its feeders become stale (R86, R105, R122). -/
def State.feedEnable (s : State) (p : Nat) (v : Bool) : State :=
  if v then
    if s.on (pgFEED p) FEED_CTRL_ENABLE then s
    else (s.put (pgFEED p) FEED_CTRL_ENABLE 1).put (pgFEED p) FEED_STATUS_SPEED_ACTIVE
      (b2n (s.get (pgFEED p) FEED_CTRL_SPEED == 1))
  else
    (((s.put (pgFEED p) FEED_CTRL_ENABLE 0).giveUpLink p).resetKeys p).stalePort p

/-- FEED_ENABLE_WRITE (R86): a write of FEED_CTRL that sets or clears ENABLE. -/
def execFeedEnableWrite (m p : Nat) (v : Bool) (t : Nat) (s : State) : Result :=
  let s := s.advance t
  .next (s.tryWrite m (pgFEED p) 0x040 [] fun s => s.feedEnable p v)

/-- FEED_PAIRING_OPEN (R114): PAIRING is set on the port. -/
def execFeedPairingOpen (m p : Nat) (s : State) : Result :=
  .next (s.tryWrite m (pgFEED p) 0x040 [] fun s => s.put (pgFEED p) FEED_CTRL_PAIRING 1)

/-- BLOCK_LOCK_GAIN (R83): LINK rises on an enabled port; RS-FEC is in use at 25GBASE-R when RS_FEC = 1 (R86). -/
def execBlockLockGain (p : Nat) (t : Nat) (s : State) : Result :=
  let s := s.advance t
  if s.on (pgFEED p) FEED_CTRL_ENABLE && !s.on (pgFEED p) FEED_STATUS_LINK then
    let fec := s.on (pgFEED p) FEED_CTRL_RS_FEC && s.get (pgFEED p) FEED_STATUS_SPEED_ACTIVE == 0
    let s1 := (s.setLink p true).put (pgFEED p) FEED_STATUS_FEC_ACTIVE (b2n fec)
    .next (s1.setPort p { s1.port p with held := false })
  else .next s

/-- BLOCK_LOCK_LOSS (R83, R84, R105): the port loses its lock, in a frame or between frames. -/
def execBlockLockLoss (p : Nat) (inFrame : Bool) (t : Nat) (s : State) : Result :=
  .next ((s.advance t).dropLink p inFrame)

/-- SPEED_WINDOW_EXPIRY (R83): a window without lock ends and the port tries the other speed. -/
def execSpeedWindowExpiry (p : Nat) (s : State) : Result :=
  if s.on (pgFEED p) FEED_CTRL_ENABLE && s.get (pgFEED p) FEED_CTRL_SPEED == 2 && !s.on (pgFEED p) FEED_STATUS_LINK then
    .next (s.put (pgFEED p) FEED_STATUS_SPEED_ACTIVE (1 - s.get (pgFEED p) FEED_STATUS_SPEED_ACTIVE))
  else .next s

/-- LOCK_HOLD_EXPIRY (R83): the lock has held 10 ms and the port stays at this speed. -/
def execLockHoldExpiry (p : Nat) (s : State) : Result :=
  if s.on (pgFEED p) FEED_STATUS_LINK then .next (s.setPort p { s.port p with held := true }) else .next s

/-! ## LLDP -/

/-- The LLDP frame of a port (R89, R90). -/
def State.lldpPdu (s : State) (p : Nat) : List Byte :=
  lldpTlv 1 (7#8 :: bytesLE 8 s.deviceSerial) ++ lldpTlv 2 (3#8 :: bytesLE 6 (s.portMac p)) ++
  lldpTlv 3 (bytesBE 2 (4 * s.get (pgFEED p) FEED_CTRL_LLDP_INTERVAL)) ++
  lldpOrg 1 [1#8] ++ lldpOrg 2 (bytesBE 2 s.sheetType) ++ lldpOrg 4 [BitVec.ofNat 8 p] ++
  lldpOrg 5 [BitVec.ofNat 8 (s.get (pgFEED p) FEED_CTRL_PAIRING)] ++ lldpTlv 0 []

/-- LLDP_TRANSMIT (R89): while ENABLE = 1 and LINK = 1 the port sends its LLDP frame on the uncontrolled port (R124). A
due transmission wakes a sleeping port (R854). -/
def execLldpTransmit (p : Nat) (s : State) : Result :=
  if s.on (pgFEED p) FEED_CTRL_ENABLE && s.on (pgFEED p) FEED_STATUS_LINK then
    let s1 := if s.asleep (16 + p) then (s.wake (16 + p) 4).wakeMap 4 else s
    .next (s1.sendFrame p false macLldp [] etLldp (s1.lldpPdu p))
  else .next s

/-- One organisation-specific TLV received (R90 to R92). DESIGN CHOICE: one of subtype 3 whose information is not 8 bytes long
changes nothing (notes/assumptions/51.md). -/
def State.lldpTake (s : State) (p : Nat) (x : LldpTlv) : State :=
  if x.oui = 0x6AD416 ∧ x.subtype = 3 ∧ x.info.length = 8 then
    s.putPair (pgFEED p) FEED_LLDP_SERIAL_LO FEED_LLDP_SERIAL_HI (ofLE x.info)
  else s

/-- LLDP_RECEIVE (R91, R92): of the TLVs of a PDU, subtype 3 under Adkigan's identifier sets the port's last feeder serial;
every other organisation-specific TLV changes nothing. -/
def execLldpReceive (p : Nat) (pdu : List Byte) (s : State) : Result :=
  .next ((lldpTlvs pdu.length pdu).foldl (fun s x => s.lldpTake p x) s)

/-! ## Sheet hello -/

/-- The checks of R99 ahead of R107. -/
def offerRefusal (sec : SecTag) (h : Hello) : Option Nat :=
  if sec.serial ≠ h.serial then some 5
  else if 64 < h.streams then some 3
  else if badList h then some 4
  else none

/-- An assign: the entry becomes OFFERED on the port with the offered streams, and the assign carries its handle
(R96, R107, R108, R925). DESIGN CHOICE: the age of an entry taken anew counts from the offer (notes/assumptions/51.md). -/
def State.assign (s : State) (p i : Nat) (f : EthFrame) (h : Hello) : State :=
  let e := s.ft i
  let s1 := s.setFt i { e with state := .offered, serial := h.serial, port := p, caps := capsOf h.caps, streams := h.entries
                               lastFrame := if e.state = .free then s.mono else e.lastFrame, tags := f.tags, mac := f.src }
  (s1.leftActive s).sendHello p f (helloAnswer 2 0 ((s1.ft i).handle i) h.serial [])

/-- An offer reaches the engine of the feeder table: through MACsec on a secured port, and no check of R99 ahead of R107
refuses it (R94, R99). -/
def State.offerEnters (s : State) (p : Nat) (f : EthFrame) : Bool :=
  s.helloSecured p f && f.sec.any fun g => (offerRefusal g (helloOf f.body)).isNone

/-- An offer of the same serial that reaches the engine in the same cycle on a lower-numbered port waits behind this one: the
engine takes it first (R109). The same ns stands for the same Nc cycle (notes/assumptions/48.md). -/
def State.lowerOffer (s : State) (p serial t : Nat) : Bool :=
  s.pending.any fun c => match c with
    | .helloOffer p' f' t' =>
      decide (p' < p) && t' == t && (helloOf f'.body).serial == serial && s.offerEnters p' f' &&
      (match s.resolveOffer p' serial with
        | .assign _ _ => true
        | .refuse _ => false)
    | _ => false

/-- HELLO_OFFER (R94, R99, R107, R109). -/
def execHelloOffer (p : Nat) (f : EthFrame) (t : Nat) (s : State) : Result :=
  let s := (s.advance t).takePassed p f
  let h := helloOf f.body
  if s.helloSecured p f = false then .next (s.helloUnsecured p)
  else match f.sec.bind fun g => offerRefusal g h with
  | some c => .next (s.refuseHello p f h.serial c)
  | none =>
    if s.lowerOffer p h.serial t then .next (s.refuseHello p f h.serial 2)
    else match s.resolveOffer p h.serial with
    | .refuse c => .next (s.refuseHello p f h.serial c)
    | .assign i reclaim => .next ((if reclaim then s.freeFt i else s).assign p i f h)

/-- The slots that name a serial wait for their first accepted frame (R111, R162). -/
def State.deactivate (s : State) (serial : Nat) : State :=
  let off := fun (names : Nat → Nat) => SMap.mapVals SlotDyn.zero fun k d =>
    if names k = serial then { d with active := false } else d
  let dyn := off (fun k => (s.slot k).serial) s.impose.dyn
  let waiting := s.impose.waiting.map fun p =>
    { p with dyn := off (fun k => (SMap.get SlotImage.none p.table k).serial) p.dyn }
  { s with impose := { s.impose with dyn := dyn, waiting := waiting } }

/-- HELLO_CONFIRM (R96, R105, R146, R162): the OFFERED entry of the port becomes BOUND, its streams' sequence values are
forgotten, its slots wait for their first frame, and FEEDER_BOUND is raised. A confirm that matches an entry BOUND or STALE
there is a frame from its feeder. DESIGN CHOICE: one that comes on another port changes nothing (notes/assumptions/51.md). -/
def execHelloConfirm (p : Nat) (f : EthFrame) (t : Nat) (s : State) : Result :=
  let s := (s.advance t).takePassed p f
  if s.helloSecured p f = false then .next (s.helloUnsecured p)
  else match s.ftMatch (helloOf f.body) (fun st => st != .free) with
  | none => .next s
  | some i =>
    let e := s.ft i
    if e.port ≠ p then .next s
    else if e.state ≠ .offered then .next (s.renewFt i f)
    else
      let s1 := (s.renewFt i f).setFt i { (s.renewFt i f).ft i with state := .bound, rxSeq := [] }
      .next ((s1.deactivate e.serial).event (pgFEED p) 2)

/-- HELLO_LEAVE (R100): a matching BOUND or STALE entry is freed; FEEDER_LOST belongs to staleness alone. -/
def execHelloLeave (p : Nat) (f : EthFrame) (t : Nat) (s : State) : Result :=
  let s := (s.advance t).takePassed p f
  if s.helloSecured p f = false then .next (s.helloUnsecured p)
  else match s.ftMatch (helloOf f.body) (fun st => st == .bound || st == .stale) with
  | none => .next s
  | some i => .next (s.freeFt i)

/-- HELLO_KEEPALIVE (R101, R105): a hello whose HANDLE and SERIAL match an entry renews its last-frame time when it comes on
the entry's port. -/
def execHelloKeepalive (p : Nat) (f : EthFrame) (t : Nat) (s : State) : Result :=
  let s := (s.advance t).takePassed p f
  if s.helloSecured p f = false then .next (s.helloUnsecured p)
  else match s.ftMatch (helloOf f.body) (fun st => st != .free) with
  | none => .next s
  | some i => if (s.ft i).port = p then .next (s.renewFt i f) else .next s

/-- The six decimal digits of a confirmation code, most significant first (R114). -/
def codeDigits (code : Nat) : List Nat := [100000, 10000, 1000, 100, 10, 1].map fun k => code / k % 10

/-- HELLO_PAIR_REQUEST (R94, R114, R118): a pair request on a pairing port is answered with the device's ephemeral key, the
shared secret is kept for the confirmation and its code shown, or TABLE_FULL is sent when no pairing slot is free and the
serial holds none. A request that MACsec protects on a port not open for pairing changes nothing. DESIGN CHOICE: a second
request on a port takes the place of the ceremony that waits there (notes/assumptions/51.md). -/
def execHelloPairRequest (p : Nat) (f : EthFrame) (t : Nat) (s : State) : Result :=
  let s := (s.advance t).takePassed p f
  let h := helloOf f.body
  if s.on (pgFEED p) FEED_CTRL_PAIRING = false then
    if s.helloSecured p f then .next s else .next (s.helloUnsecured p)
  else if 256 ≤ s.feed.pairings.length ∧ s.feed.pairings.all (fun q => q.serial != h.serial) then
    .next (s.refuseHello p f h.serial 1)
  else
    let (n, s1) := s.takeFree
    let x := ecShared n h.key
    let s2 := s1.setPort p { s1.port p with ceremony := some { serial := h.serial, x := x, code := confirmCode x } }
    let s3 := (s2.put (pgFEED p) FEED_STATUS_PAIRING_ACTIVE 1).emit (.pairingCode p (codeDigits (confirmCode x)))
    .next (s3.sendHello p f (helloAnswer 8 0 0 s3.deviceSerial (publicKey (freeScalar n))))

/-- HELLO_BAD_STEP (R95): a hello with a reserved STEP is discarded and counted in SHEET_HELLO_BAD; an unprotected one
is discarded by R94 first. -/
def execHelloBadStep (p : Nat) (f : EthFrame) (s : State) : Result :=
  let s := s.takePassed p f
  if s.helloSecured p f then .next (s.count pgSHEET SHEET_HELLO_BAD) else .next (s.helloUnsecured p)

/-- CONFIRM_TIMEOUT (R97): an entry still OFFERED 100 ms after its assign is freed. -/
def execConfirmTimeout (i : Nat) (s : State) : Result :=
  if (s.ft i).state = .offered then .next (s.freeFt i) else .next s

/-- FEEDER_LIVE_EXPIRY (R105): a BOUND entry whose last frame is SHEET_FT_LIVE_MS old becomes STALE. -/
def execFeederLiveExpiry (i t : Nat) (s : State) : Result :=
  let s := s.advance t
  if s.liveNs ≤ s.ageNs (s.ft i) then .next (s.staleFt i) else .next s

/-- An offer of a serial in the same Ac cycle as time t, of 40 ns, waits and will reach the engine (R110). -/
def State.offerThisCycle (s : State) (serial t : Nat) : Bool :=
  s.pending.any fun c => match c with
    | .helloOffer p f t' => t' / 40 == t / 40 && (helloOf f.body).serial == serial && s.offerEnters p f
    | _ => false

/-- STALE_HOLD_EXPIRY (R106, R110): a STALE entry becomes FREE with a new generation after SHEET_FT_HOLD_S, unless an offer of
its serial falls in the same Ac cycle: the offer is taken first. -/
def execStaleHoldExpiry (i t : Nat) (s : State) : Result :=
  let s := s.advance t
  let e := s.ft i
  if e.state = .stale ∧ e.staleSince + s.get pgSHEET SHEET_FT_CTRL_HOLD_S * 1000000000 ≤ s.mono ∧
      s.offerThisCycle e.serial t = false then .next (s.freeFt i)
  else .next s

/-! ## The feeder table's registers -/

/-- The number of a feeder table state (R112). -/
def FtState.code : FtState → Nat
  | .free => 0 | .offered => 1 | .bound => 2 | .stale => 3

/-- A consistent copy of entry i in SHEET_FT_ENTRY, SHEET_FT_SERIAL and SHEET_FT_AGE_MS (R112). -/
def State.captureFt (s : State) (i : Nat) : State :=
  let e := s.ft i
  let free := e.state = .free
  let s1 := (s.put pgSHEET SHEET_FT_ENTRY_HANDLE (if free then 0 else e.handle i)).put pgSHEET SHEET_FT_ENTRY_STREAMS
    e.streams.length
  let s2 := (s1.put pgSHEET SHEET_FT_ENTRY_PORT e.port).put pgSHEET SHEET_FT_ENTRY_STATE e.state.code
  let s3 := s2.putPair pgSHEET SHEET_FT_SERIAL_LO SHEET_FT_SERIAL_HI e.serial
  s3.put pgSHEET SHEET_FT_AGE_MS (if free then 0 else min (s.ageNs e / 1000000) 0xFFFFFFFF)

/-- FT_INDEX_CAPTURE (R112): INDEX is set and the entry captured, its age included. -/
def execFtIndexCapture (m i t : Nat) (s : State) : Result :=
  let s := s.advance t
  .next (s.tryWrite m pgSHEET 0x044 [] fun s => (s.put pgSHEET SHEET_FT_INDEX_INDEX i).captureFt (i % 256))

/-- FT_EVICT (R112, R113): the indexed entry is freed as by a leave and the copy shows it FREE; a FREE entry makes the
write ignored. -/
def execFtEvict (m i t : Nat) (s : State) : Result :=
  let s := s.advance t
  .next (s.tryWrite m pgSHEET 0x044 (reasonIf (decide ((s.ft (i % 256)).state = .free)) .state) fun s =>
    ((s.put pgSHEET SHEET_FT_INDEX_INDEX i).freeFt (i % 256)).captureFt (i % 256))

/-! ## Pairing and MKA -/

/-- A pairing stored: it replaces that of the same serial, and 256 are kept (R117). DESIGN CHOICE: a 257th, of ceremonies that
waited on several ports, is not stored (notes/assumptions/51.md). -/
def storePairing (ps : List Pairing) (q : Pairing) : List Pairing :=
  let others := ps.filter (·.serial != q.serial)
  if others.length < 256 then others ++ [q] else ps

/-- PAIR_CONFIRM_WRITE (R115): a matching code stores the pairing, another discards the secret; both end the ceremony. A
code above 999,999 and a port with no reply waiting make the write ignored. -/
def execPairConfirmWrite (m p code : Nat) (s : State) : Result :=
  .next (s.tryWrite m pgCOLOPHON 0x044
    (reasonIf (decide (999999 < code)) .outOfRange ++ reasonIf (s.port p).ceremony.isNone .state) fun s =>
    match (s.port p).ceremony with
    | none => s
    | some c =>
      let s1 := if c.code = code then
          s.onFeed fun x => { x with pairings := storePairing x.pairings (pairingOf c.x s.deviceSerial c.serial) }
        else s
      s1.endPairing p)

/-- PAIRING_TIMEOUT (R115): 120 s without a confirm discard the secret. -/
def execPairingTimeout (p : Nat) (s : State) : Result :=
  if (s.port p).ceremony.isSome then .next (s.endPairing p) else .next s

/-- The live peers of a port once an MKPDU of a member came at time t: it is live from then on, or it has left (R121). -/
def peersAfter (peers : List (Nat × Nat)) (serial t : Nat) (live : Bool) : List (Nat × Nat) :=
  let others := peers.filter (·.1 != serial)
  if live then others ++ [(serial, t)] else others

/-- EAPOL_RECEIVE (R119, R120): an authentic MKPDU of a paired feeder, which shows it live or leaving. A port that becomes live
and a change of its members bring a fresh SAK, and SECURED is set where a peer is live. -/
def execEapolReceive (p serial : Nat) (authentic live : Bool) (t : Nat) (s : State) : Result :=
  let s := s.advance t
  if authentic = false ∨ s.feed.pairings.all (fun q => q.serial != serial) then .next s
  else
    let q := s.port p
    let member := q.peers.any (·.1 == serial)
    let s1 := s.setPort p { q with peers := peersAfter q.peers serial s.mono live }
    if member = live ∧ (live = false ∨ s.on (pgFEED p) FEED_STATUS_SECURED) then .next s1
    else if live then .next ((s1.freshSak p).setSecured p true)
    else if s.on (pgFEED p) FEED_STATUS_SECURED then .next (s1.freshSak p)
    else .next s1

/-- MKA_HELLO_TRANSMIT (R121): the port sends an MKPDU with key server priority 0x10 on the uncontrolled port. -/
def execMkaHelloTransmit (p : Nat) (s : State) : Result :=
  if s.on (pgFEED p) FEED_CTRL_ENABLE && s.on (pgFEED p) FEED_STATUS_LINK then
    let s1 := if s.asleep (16 + p) then (s.wake (16 + p) 4).wakeMap 4 else s
    .next (s1.sendFrame p false macPae [] etEapol [0x10#8])
  else .next s

/-- MKA's life time (R121): 6 s. -/
def mkaLife : Nat := 6000000000

/-- MKA_LIFE_EXPIRY (R105, R120, R121): the peers with no MKPDU for the life time are live no more. Without a live peer SECURED
clears and the port's feeders become stale; where some are left, the change of members brings a fresh SAK. -/
def execMkaLifeExpiry (p t : Nat) (s : State) : Result :=
  let s := s.advance t
  let q := s.port p
  let live := q.peers.filter fun x => decide (s.mono < x.2 + mkaLife)
  let s1 := s.setPort p { q with peers := live }
  if s1.on (pgFEED p) FEED_STATUS_SECURED = false then .next s1
  else if live = [] then .next ((s1.setSecured p false).stalePort p)
  else if live.length < q.peers.length then .next (s1.freshSak p)
  else .next s1

end Sys2Proof.Machine
end

