-- ==== Sys2Proof/Machine/Sheet.lean ====
section
/-!
DEFINITION. The Sheet parser and the readiness of a block's samples (spec/03, R137 to R150, R171).
-/
namespace Sys2Proof.Machine

/-- Step 1: a frame nested deeper than the parser reads goes to the Colophon exception queue of 16 frames (R144, R148,
R150). -/
def State.exception (s : State) (f : EthFrame) : State :=
  let s1 := s.count pgSHEET SHEET_DEEP_NEST
  if 16 ≤ s1.feed.excq.length then s1.count pgSHEET SHEET_EXCQ_DROPS
  else
    let s2 := s1.onFeed fun x => { x with excq := x.excq ++ [f] }
    let s3 := s2.put pgSHEET SHEET_EXCQ_STATUS_DEPTH s2.feed.excq.length
    if s1.feed.excq.isEmpty then s3.event pgSHEET 1 else s3

/-- The index of the BOUND entry a data frame names: current generation, its own port, its SCI's CAK (step 6). -/
def State.frameEntry (s : State) (p : Nat) (sec : Option SecTag) (handle : Nat) : Option Nat :=
  let i := handle % 256
  let e := s.ft i
  if e.state = .bound ∧ e.handle i = handle ∧ e.port = p ∧ sec.any (fun g => g.known && g.serial == e.serial) then some i
  else none

/-- Step 11: the window of R146. -/
def State.seqStep (s : State) (i stream seq : Nat) : State :=
  let e := s.ft i
  let s1 := s.setFt i { e with rxSeq := SMap.set none e.rxSeq stream (some seq) }
  match SMap.get none e.rxSeq stream with
  | none => s1
  | some last =>
    let d := (seq + 2 * 65536 - last - 1) % 65536
    if d = 0 then s1
    else if d ≤ 32767 then s1.count pgSHEET SHEET_SEQ_GAPS
    else s1.count pgSHEET SHEET_SEQ_OLD

/-- Step 12: TIMESTAMP differs from FIRST_SAMPLE × 10^9 / RATE by more than SHEET_TS_TOL. -/
def State.tsSkewed (s : State) (h : SheetHdr) (rate : Nat) : Bool :=
  decide (s.get pgSHEET SHEET_TS_TOL_TOL_NS * rate <
    ((h.ts * rate : Nat) - (h.first * 1000000000 : Nat) : Int).natAbs)

/-- Sample j of frame channel c, widened (R139, R140). -/
def frameWord (b : List Byte) (h : SheetHdr) (j c : Nat) : W32 :=
  let z := formatSize h.format
  widen h.format (slice b (32 + (j * h.channels + c) * z) z)

/-- Step 13: every sample in order of index, then of channel (R168). -/
def State.placeFrame (s : State) (serial : Nat) (st : StreamEntry) (b : List Byte) (h : SheetHdr) : State :=
  (List.range h.samples).foldl (fun s j =>
    (List.range h.channels).foldl (fun s c =>
      s.takeSample serial st (st.first + h.chOff + c) (h.first + j) (frameWord b h j c) (bit h.flags 0) (bit h.flags 1)) s) s

/-- Steps 7 to 13 for a frame of entry i. -/
def State.parseStream (s : State) (p i : Nat) (f : EthFrame) (h : SheetHdr) : State :=
  let e := s.ft i
  match e.streams.find? fun x => x.id == h.stream && x.dir == 1 with
  | none => s.count pgSHEET SHEET_BAD_STREAM
  | some st =>
    if h.format ≠ st.format then s.count pgSHEET SHEET_BAD_FORMAT
    else if h.samples = 0 ∨ h.channels = 0 ∨ st.channels < h.chOff + h.channels then s.count pgSHEET SHEET_BAD_SHAPE
    else if h.len ≠ h.samples * h.channels * formatSize h.format ∨ h.len ≠ f.body.length - 32 then
      s.count pgSHEET (SHEET_PORT_DISCARDS.at p)
    else
      let s1 := (s.setFt i { e with tags := f.tags, mac := f.src }).seqStep i h.stream h.seq
      let s2 := if s1.tsSkewed h st.rate then s1.count pgSHEET SHEET_TS_SKEW else s1
      let s3 := if bit h.flags 1 then s2.count pgSHEET SHEET_FEEDER_UNLOCKED else s2
      s3.placeFrame e.serial st f.body h

/-- The decisions of R144 in their order. -/
def State.parseFrame (s : State) (p : Nat) (f : EthFrame) : State :=
  let h := sheetHdrOf f.body
  if deepNest f then s.exception f
  else if f.body.length < 32 then s.count pgSHEET (SHEET_PORT_DISCARDS.at p)
  else if h.version ≠ 1 then s.count pgSHEET SHEET_BAD_VERSION
  else if h.kind = 3 then s
  else if h.kind ≠ 1 then s.count pgSHEET SHEET_BAD_KIND
  else match s.frameEntry p f.sec h.handle with
  | none => s.count pgSHEET SHEET_BAD_HANDLE
  | some i => (s.setFt i { s.ft i with lastFrame := s.mono }).parseStream p i f h

/-- The parser takes a frame that a port passed; one that is not among them it has taken before. -/
def State.takeFrame (s : State) (p : Nat) (f : EthFrame) : State :=
  if (p, f) ∈ s.feed.passed then (s.ioTouch.takePassed p f).parseFrame p f else s

/-- SHEET_DATA_FRAME (R144): a frame the port passed meets the parser's decisions; its samples are placed or it is
discarded. A hello (KIND 3) goes on to the hello engine. -/
def execSheetDataFrame (p : Nat) (f : EthFrame) (t : Nat) (s : State) : Result := .next ((s.advance t).takeFrame p f)

/-- A frame for the parser's later steps: of the Sheet EtherType and no hello. -/
def State.isData (s : State) (f : EthFrame) : Bool :=
  !deepNest f && f.etherType == s.sheetType && (sheetHdrOf f.body).kind != 3

/-- The data frames that arrived before a tick are taken before it, though the parser comes to them after it (R169). -/
def State.settlePassed (s : State) : State :=
  (s.feed.passed.filter fun x => s.isData x.2).foldl (fun s x => s.takeFrame x.1 x.2) s

/-! ## The exception queue (R148) -/

/-- What the block does with no command waiting: firmware, where it runs, drains the exception queue. No frame from it
reaches the sample path (notes/assumptions/1.md). -/
def State.idle (s : State) : State :=
  if s.firmware && !s.feed.excq.isEmpty then (s.onFeed fun x => { x with excq := [] }).put pgSHEET SHEET_EXCQ_STATUS_DEPTH 0
  else s

/-- STONE_DATA_READY (R171): every sample of the closed block stands in Stone and the rings. -/
def execStoneDataReady (s : State) : Result :=
  match s.impose.openBlock with
  | none => .next s
  | some m => .next (if m = 0 then s else s.onImpose fun i => { i with ready := some (m - 1) })

end Sys2Proof.Machine
end

