-- ==== Sys2Proof/Machine/Program.lean ====
section
/-!
DEFINITION. The standing program: loading, start, stop, impression ticks and what each tick brings about (spec/15, R791 to
R800; spec/01, R37 to R41; spec/06, R361).
-/
namespace Sys2Proof.Machine

/-! ## Loading (R791 to R793) -/

def spPeriod (b : List Byte) : Nat := fieldLE b 8 4
def spIcbAddr (b : List Byte) : Nat := fieldLE b 24 6
def spCodeAddr (b : List Byte) : Nat := fieldLE b 32 6
def spCodeLen (b : List Byte) : Nat := fieldLE b 40 4

/-- The geometry of the imposition table or the drive table in force fails at a period. -/
def State.badPeriod (s : State) (p : Nat) : Bool :=
  (s.validSlots.any fun k => badGeometry p (s.slot k)) || s.feed.table.any fun x => badDriveRate p x.2

/-- The loader's first failing cause (R792). -/
def State.spFault (s : State) (b : List Byte) : Option Nat :=
  let p := spPeriod b
  let trig := fieldLE b 5 1
  if s.running then some 1
  else if b.take 4 ≠ ascii "EVSR" ∨ fieldLE b 4 1 ≠ 1 ∨ (trig ≠ 1 ∧ trig ≠ 2) ∨ b.length ≠ 1088 + spCodeLen b then some 2
  else if p < 50000 ∨ 1000000000 < p then some 3
  else if (bitList 8 (fieldLE b 12 1)).any fun w => !s.webUp w then some 4
  else if 45 * p < 100 * fieldLE b 16 4 then some 5
  else if s.badPeriod p then some 6
  else if spIcbAddr b % 1024 ≠ 0 ∨ 0x400000 < spIcbAddr b + 1024 ∨
      s.regionOk 0 (spCodeAddr b) (spCodeLen b) false = false then some 7
  else none

/-- A pair of address registers written and in force. -/
def State.putForce (s : State) (p : Nat) (lo hi : Fld) (v : Nat) : State := (s.putPair p lo hi v).putPair p lo hi v 1

/-- The image installed (R793): CODE and the ICB copied, the registers written whatever a quoin locks, MEAS4 recorded. -/
def State.installProgram (s : State) (image b : List Byte) : State :=
  let s1 := (s.writeRaw 1 (spCodeAddr b) (b.drop 1088)).2
  let s2 := (s1.writeRaw 1 (spIcbAddr b) (slice b 64 1024)).2
  let s3 := s2.putForce pgCOMPOSITOR COMP_ICB_LO COMP_ICB_HI (spIcbAddr b)
  let s4 := s3.stacks.foldl (fun s k => s.put (pgREEL k) REEL_CAL_OFFSET_OFFSET_NS (fieldLE b 20 4)) s3
  let s5 := ((s4.put pgJOBS JOBS_SP_PERIOD_NS_P (spPeriod b)).put pgJOBS JOBS_SP_STATUS_TRIGGER (fieldLE b 5 1)).put pgJOBS
    JOBS_SP_STATUS_LOADED 1
  let s6 := s5.onSp fun p => { p with webMask := fieldLE b 12 1 }
  (s6.onColo fun c => { c with meas := SMap.set [] c.meas 4 (sha384 image) }).event pgJOBS 3

/-- The loader: true where the image is installed; a refused image changes nothing but LOAD_ERROR (R792). -/
def State.loadProgram (s : State) (image b : List Byte) : Bool × State :=
  match s.spFault b with
  | some c => (false, s.put pgJOBS JOBS_SP_STATUS_LOAD_ERROR c)
  | none => (true, s.installProgram image b)

/-! ## Start and stop (R794, R800) -/

/-- START is forbidden (R794). -/
def State.startForbidden (s : State) : Bool :=
  !s.on pgJOBS JOBS_SP_STATUS_LOADED || s.running || !s.on pgPTP PTP_STATUS_TIME_SET ||
  (s.get pgJOBS JOBS_SP_STATUS_TRIGGER == 1 && !(s.slot (s.get pgJOBS JOBS_SP_REF_SLOT_SLOT)).valid)

/-- STOP is forbidden (R800). -/
def State.stopForbidden (s : State) : Bool :=
  s.on pgDRIVE DRIVE_CTRL_ENABLE && s.get pgDRIVE DRIVE_FADE_STATUS_STATE != 2

/-- The program starts: blocks m0 and m0 + 1 open (R794). -/
def State.startProgram (s : State) : State :=
  let m0 := s.dev / s.period + 2
  let s1 := (s.openBlocks m0).putPair pgJOBS JOBS_SP_BLOCK0_LO JOBS_SP_BLOCK0_HI m0
  let s2 := ((s1.put pgJOBS JOBS_IMP_COUNT 0).put pgJOBS JOBS_IMP_MAX_NS 0).put pgJOBS JOBS_IMP_RECOMP_MAX_NS 0
  (s2.put pgJOBS JOBS_SP_STATUS_RUNNING 1).onSp fun p =>
    { p with next := m0, tickAt := s.mono, imp := 0, stage := false, entryAt := 0, told := false, stopping := false }

/-- A write of JOBS_SP_CTRL: START, then STOP. -/
def State.spCtrlWrite (s : State) (m : Nat) (v : W32) : State :=
  s.tryWrite m pgJOBS 0x048
    (reasonIf ((v.getLsbD 0 && s.startForbidden) || (v.getLsbD 1 && s.stopForbidden)) .state) fun s =>
    let s1 := if v.getLsbD 0 then s.startProgram else s
    if v.getLsbD 1 && s.running then s1.onSp fun p => { p with stopping := true } else s1

/-- SP_START: a write of JOBS_SP_CTRL with START (R794). -/
def execSpStart (m : Nat) (v : W32) (t : Nat) (s : State) : Result := .next ((s.advance t).spCtrlWrite m v)

/-- SP_STOP: a write of JOBS_SP_CTRL with STOP (R800). -/
def execSpStop (m : Nat) (v : W32) (s : State) : Result := .next (s.spCtrlWrite m v)

/-! ## Ticks (R795 to R799) -/

/-- Tick times in the past: how many blocks from the next one on are due to close (R796, R797, R799). -/
def State.dueBlocks (s : State) : Nat :=
  let p := s.period
  let byTime := fun (lag : Nat) => (s.dev - lag) / p - s.sp.next
  if s.get pgJOBS JOBS_SP_STATUS_TRIGGER = 2 then byTime (s.get pgJOBS JOBS_SP_LAG_NS_LAG)
  else
    let k := s.get pgJOBS JOBS_SP_REF_SLOT_SLOT
    let n := byTime (s.get pgJOBS JOBS_SP_GRACE_NS_GRACE)
    if n = 0 ∧ (s.slot k).valid ∧ (s.sp.next + 1) * (s.slot k).block ≤ (s.dynOf k).nx then 1 else n

/-- The compute stage of the impression has ended: an execution of it ended not void (R358). -/
def State.stageEnded (s : State) : Bool := s.comp.ended

/-- The impression overrun reported (R40). -/
def State.overrun (s : State) (n : Nat) : State := s.report pgCOMPOSITOR 0x017 11 0 (n % 2 ^ 32)

/-- The execution in progress is ended at the release tick (R361, steps 1 to 3); `entry` is whether an impression entry
follows its waits. -/
def State.cutOff (s : State) (entry : Bool) : State :=
  let s1 := (s.onComp fun c => { c with phase := 3, suppressed := true, after := if entry then 2 else 0 }).enterDiscard
  s1.websUp.foldl (fun s w => s.flushWeb w false) s1

/-- The compute stage of impression n, which the tick releases: its drive samples go out, or those before it again with an
overrun; the log ports take its record data (R39, R40, R805). -/
def State.releaseStage (s : State) (n m : Nat) (entry : Bool) : State :=
  let ended := s.stageEnded
  let s1 := s.release n m ended
  if ended then s1.takeRecord n else (s1.overrun n).cutOff entry

/-- Skipped impressions, n the first of them: each is one whose compute stage did not end (R799). -/
def State.skip (s : State) (n m : Nat) : Nat → State
  | 0 => s
  | k + 1 => ((s.release n m false).overrun n).skip (n + 1) (m + 1) k

/-- The compute stage of impression n begins from block m (R38, R354); where R361 is still ending the execution before, the
entry follows its waits. -/
def State.beginStage (s : State) (n m : Nat) : State :=
  let s1 := (s.onSp fun p => { p with imp := n, stage := true }).put pgJOBS JOBS_IMP_COUNT (n % 2 ^ 32)
  let s2 := s1.onComp fun c => { c with block := m, ended := false }
  if s2.comp.phase = 3 then
    (if s2.executionQuiet && !s2.migrating then
      (((s2.dropHeld).endTrio).onComp fun c => { c with phase := 0 }).enterImpression false false
     else s2.onSp fun p => { p with entryAt := s.mono, told := false })
  else if s2.migrating then s2.onComp fun c => { c with after := 3 }
  else s2.enterImpression false false

/-- The program's last tick is past: RUNNING clears, blocks are no longer opened, the calls queued end (R790, R800). -/
def State.endProgram (s : State) : State :=
  let s1 := (s.put pgJOBS JOBS_SP_STATUS_RUNNING 0).imposeStop
  (s1.onSp fun p => { p with stage := false, stopping := false }).endCalls 1 8

/-- A routine that waits for the tick sees it (R340 code 3). -/
def State.tickSeen (s : State) : State :=
  s.onSeq fun q => { q with cur := q.cur.map fun r => { r with ticked := true } }

/-- IMPRESSION_TICK: blocks that are due close, oldest first; the impression in compute is released, with those skipped; the
compute stage of the newest block begins, unless the program stops or a fatal fault has stopped it (R37 to R41, R170, R687,
R795 to R800). -/
def execImpressionTick (t : Nat) (s : State) : Result :=
  let s := (s.advance t).ioTouch.settlePassed
  let k := s.dueBlocks
  if s.running = false ∨ k = 0 then .next s
  else
    let m := s.sp.next
    let m0 := s.pair pgJOBS JOBS_SP_BLOCK0_LO JOBS_SP_BLOCK0_HI
    let last := m + k - 1
    let fatal := s.on pgFAULT FAULT_STATUS_FATAL
    let going := !s.sp.stopping && !fatal
    let s1 := (List.range k).foldl (fun s i => s.closeBlock (m + i)) s
    let s2 := ((s1.onSp fun p => { p with next := last + 1, tickAt := s.mono }).tickSeen).raisePacket 448
    let s3 := if s2.sp.stage then s2.releaseStage s2.sp.imp (m0 + s2.sp.imp) going
      else if fatal ∧ m0 < last then s2.release (last - m0 - 1) (last - 1) false else s2
    let s4 := if 2 ≤ k then
        (((s3.skip (m - m0) m (k - 1)).count pgJOBS JOBS_IMP_SKIPPED (k - 1)).event pgJOBS 2) else s3
    let s5 := s4.sheetTime ((last - m0) % 2 ^ 32)
    if s5.sp.stopping then .next s5.endProgram
    else if fatal then .next ((s5.onSp fun p => { p with stage := false }).put pgJOBS JOBS_IMP_COUNT ((last - m0) % 2 ^ 32))
    else .next (s5.beginStage (last - m0) last)

end Sys2Proof.Machine
end

