-- ==== Sys2Proof/Machine/Mailbox.lean ====
section
/-!
DEFINITION. The mailbox commands of the Colophon's firmware: attestation, regions, flows, owners, images, updates, the
record's runs, and reads of log and journal (spec/14, R738 to R748, R758, R762, R763). Where the specification gives no
layout for a command's arguments, they are operands of the command (notes/assumptions/20.md).
-/
namespace Sys2Proof.Machine

/-! ## Taking and answering a command (R738, R739) -/

def mbOpcode (h : List Byte) : Nat := fieldLE h 0 2
def mbLen (h : List Byte) : Nat := fieldLE h 4 4
def mbArgs (h : List Byte) : List Byte := slice h 9 55

/-- The header of a mailbox as memory holds it. -/
def State.mbHeader (s : State) (box : Nat) : List Byte := s.bytes (mbBase box) 64

/-- The mailbox holds a command firmware has taken, with this opcode. -/
def State.mbTaken (s : State) (box op : Nat) : Bool :=
  decide (box ∈ s.colo.taken) && s.firmware && mbOpcode (s.mbHeader box) == op

/-- Firmware answers: data first, STATUS last, then the ring of source 65 or 67. -/
def State.mbAnswer (s : State) (box status : Nat) (data : List Byte := []) : State :=
  let s1 := if data.isEmpty then s else (s.writeRaw 1 (mbBase box + 4096) data).2
  let s2 := (s1.writeRaw 1 (mbBase box + 8) [BitVec.ofNat 8 status]).2
  let s3 := s2.onColo fun c => { c with taken := c.taken.filter (· != box) }
  (s3.emit (.mailbox box status data)).raiseSource (65 + 2 * box)

/-- A command answered with the status and state its action gives. -/
def State.mbDo (s : State) (box op : Nat) (act : State → Nat × State) : Result :=
  if s.mbTaken box op then
    let r := act s
    .next (r.2.mbAnswer box r.1)
  else .next s

/-- The data area's LEN bytes; none where LEN is above 1,044,480 or the memory does not answer. -/
def State.mbData (s : State) (box : Nat) : Option (List Byte) × State :=
  let n := mbLen (s.mbHeader box)
  if 1044480 < n then (none, s)
  else match s.readRaw 1 (mbBase box + 4096) n with
    | (.ok bs, s1) => (some bs, s1)
    | (_, s1) => (none, s1)

/-! ## GET_CERT and ATTEST (R741, R742) -/

/-- The identity certificate as flash holds it, within the 64 KiB it shares with the signature counter (R731). -/
def certBytes : List Byte := Config.identityCert.take 65536

/-- MB_GET_CERT: the identity certificate into the data area. -/
def execMbGetCert (box : Nat) (s : State) : Result :=
  if s.mbTaken box 0x01 then .next (s.mbAnswer box 0 certBytes) else .next s

/-- The 32 bytes of a control store word (R54). -/
def cstoreBytes (w : Nat) : List Byte := bytesLE 22 w ++ List.replicate 10 0

/-- What MEAS2 is taken over: customer store words, then dispatch entries 768 to 1,023 (R741). -/
def State.meas2 (s : State) : List Byte :=
  sha384 ((List.range 0x2000).flatMap (fun k => cstoreBytes (SMap.get 0 s.cstore.words (0x8000 + k))) ++
    (List.range 256).flatMap fun k => bytesLE 4 (s.reg pgCSTORE 0x048 (768 + k + 1)).toNat)

/-- The enrolled slot, none while unowned (R743). -/
def State.ownerSlot (s : State) : Option Nat :=
  firstBelow 4 fun k => let v := SMap.get 0 s.colo.fuses.states k; bits v 1 0 == 3 && bits v 3 2 == 0

/-- The enrolled key's hash, or 48 zero bytes. -/
def State.ownerHash (s : State) : List Byte :=
  match s.ownerSlot with
  | some k => SMap.get [] s.colo.fuses.keys k
  | none => List.replicate 48 0

/-- A measurement, zero where nothing is loaded. -/
def State.measure (s : State) (k : Nat) : List Byte := slice (SMap.get [] s.colo.meas k) 0 48

/-- Bytes 0 to 543 of an attestation report (R741). -/
def State.attestHead (s : State) (nonce : List Byte) : List Byte :=
  ascii "EVSA" ++ bytesLE 1 1 ++ bytesLE 3 0 ++ slice nonce 0 48 ++ s.serialBytes ++ bytesLE 8 s.sigCounter ++ bytesLE 8 s.dev ++
  bytesLE 1 (s.get pgDEVICE DEVICE_SERVICE_LEVEL) ++
  bytesLE 1 (match s.ownerSlot with | some k => k | none => 0xFF) ++ bytesLE 1 (b2n s.colo.fuses.debugLock) ++ bytesLE 1 0 ++
  s.ownerHash ++ s.measure 0 ++ s.measure 1 ++ s.meas2 ++ s.measure 3 ++ s.measure 4 ++
  sha384 (Config.serviceMap s.colo.flash.service) ++ List.replicate 124 0

/-- MB_ATTEST: the signed report for the nonce in ARGS; refused while signing has stopped (R767). -/
def execMbAttest (box : Nat) (s : State) : Result :=
  if s.mbTaken box 0x02 then
    if s.canSign then
      let nonce := (mbArgs (s.mbHeader box)).take 48
      let head := s.attestHead nonce
      let g := (s.onColo fun c => { c with nonce := nonce }).sign head
      .next (g.2.mbAnswer box 0 (head ++ g.1))
    else .next (s.mbAnswer box 1)
  else .next s

/-! ## REGION_SET and FLOW_SET (R740, R567, R598) -/

/-- The extents R740 guards: Stone bank 31 and the six pages. -/
def guardedExtents : List (Nat × Nat) :=
  (31 * 2 ^ 21, 2 ^ 21) :: [pgCOLOPHON, pgCRYPTO, pgFAULT, pgCSTORE, pgPOWER, pgCLOCK].map fun p => (regBase + p * 0x1000, 0x1000)

/-- A region reaches some byte of an extent. -/
def Region.meets (g : Region) (x : Nat × Nat) : Bool :=
  g.whole || (decide (0 < g.size) && decide (g.base < x.1 + x.2) && decide (x.1 < g.base + 256 * g.size))

/-- R740 refuses a region for a master. -/
def regionGuarded (m : Nat) (g : Region) : Bool := m != 1 && g.w && guardedExtents.any g.meets

/-- MB_REGION_SET: firmware sets region r of master m through the STONE page, when R740 allows. -/
def execMbRegionSet (box m r : Nat) (g : Region) (s : State) : Result :=
  s.mbDo box 0x10 fun s =>
    if 18 ≤ m ∨ 16 ≤ r ∨ g.tooHigh = true then (4, s)
    else if regionGuarded m g = true ∨ s.quoined pgSTONE = true then (1, s)
    else
      let s1 := (s.put pgSTONE STONE_REGION_SEL_MASTER m).put pgSTONE STONE_REGION_SEL_REGION r
      (0, (s1.setRegion m r { g with base := g.base / 256 * 256 }).stageRegion)

/-- A flow staged. -/
def State.stageFlow (s : State) (k : Nat) (f : Flow) : State :=
  let s1 := (s.put pgNOC NOC_FLOW_CFG_SRC f.src (k + 1)).put pgNOC NOC_FLOW_CFG_DST f.dst (k + 1)
  (s1.put pgNOC NOC_FLOW_CFG_VALID (b2n f.valid) (k + 1)).put pgNOC NOC_FLOW_CFG_SLOTS f.slots (k + 1)

/-- MB_FLOW_SET: flow k staged and the table committed (R598); STATUS 1 where the commit is refused. -/
def execMbFlowSet (box k : Nat) (f : Flow) (s : State) : Result :=
  s.mbDo box 0x11 fun s =>
    if k = 0 ∨ 63 < k ∨ 127 < f.slots then (4, s)
    else if s.on pgNOC NOC_FLOW_STATUS_CHECKING then (1, s.flowRefused 1 (s.get pgNOC NOC_FLOW_STATUS_ERR_FLOW) .busy)
    else
      let s0 := s.stageFlow k f
      let s1 := (s0.onNoc fun n => { n with checking := s0.stagedFlows }).put pgNOC NOC_FLOW_STATUS_CHECKING 1
      ((match s1.checkFlows s1.stagedFlows with | .ok _ => 0 | .error _ => 1), s1.flowCheckEnd)

/-! ## Owners (R743 to R745) -/

/-- CRYPTO_STATUS and CSTORE_STATUS.OWNER_ONLY show the fuses' owner (R743, R767). -/
def State.showOwner (s : State) : State :=
  let o := s.ownerSlot
  let s1 := s.put pgCRYPTO CRYPTO_STATUS_OWNER_SLOT (match o with | some k => k | none => 0xF)
  (s1.put pgCRYPTO CRYPTO_STATUS_OWNED (b2n o.isSome)).put pgCSTORE CSTORE_STATUS_OWNER_ONLY (b2n o.isSome)

/-- The fuses changed. -/
def State.onFuses (s : State) (f : FuseSt → FuseSt) : State := s.onColo fun c => { c with fuses := f c.fuses }

/-- A slot's released bits set. -/
def State.releaseSlot (s : State) (k : Nat) : State :=
  s.onFuses fun f => { f with states := SMap.set 0 f.states k (setBits (SMap.get 0 f.states k) 3 2 3) }

/-- A public key is the enrolled owner's. -/
def State.isOwner (s : State) (key : List Byte) : Bool := s.ownerSlot.isSome && sha384 key == s.ownerHash

/-- MB_ENROL: `key` and its signature; while owned also the current owner's key and its signature over the same bytes and
the new key's hash (R744, R745). -/
def execMbEnrol (box : Nat) (key sig owner ownerSig : List Byte) (s : State) : Result :=
  s.mbDo box 0x20 fun s =>
    let msg := ascii "EVS-ENROL" ++ s.serialBytes ++ s.colo.nonce
    match firstBelow 4 fun k => SMap.get 0 s.colo.fuses.states k == 0 with
    | none => (1, s)
    | some k =>
      if s.colo.nonce.isEmpty then (1, s)
      else if ecVerify key msg sig = false then (2, s)
      else if s.ownerSlot.isSome && !(s.isOwner owner && ecVerify owner (msg ++ sha384 key) ownerSig) then (2, s)
      else
        let s1 := s.onFuses fun f => { f with keys := SMap.set [] f.keys k (sha384 key), states := SMap.set 0 f.states k 3 }
        let s2 := match s.ownerSlot with
          | some old => s1.releaseSlot old
          | none => s1
        (0, s2.showOwner.journalFree 6)

/-- MB_RELEASE: signed by the current owner (R745). -/
def execMbRelease (box : Nat) (owner sig : List Byte) (s : State) : Result :=
  s.mbDo box 0x21 fun s =>
    match s.ownerSlot with
    | none => (1, s)
    | some k =>
      if s.colo.nonce.isEmpty then (1, s)
      else if s.isOwner owner && ecVerify owner (ascii "EVS-RELEASE" ++ s.serialBytes ++ s.colo.nonce) sig then
        (0, ((s.releaseSlot k).showOwner).journalFree 6)
      else (2, s)

/-! ## Adkigan's keys (R730) -/

/-- A public key is one of the Adkigan indices lo to hi of the boot ROM, not revoked: 0 to 3 sign Colophon firmware, 4 and 5
patches (R726, R730). -/
def State.adkKey (s : State) (lo hi : Nat) (key : List Byte) : Bool :=
  (List.range 8).any fun k =>
    decide (lo ≤ k) && decide (k ≤ hi) && !bit s.colo.fuses.revoke k && s.device.adkKeys[k]? == some (sha384 key)

/-- A firmware image verifies: a signature under a valid index, TARGET_REV 0xB0, and rollback at least FW_ROLLBACK (R735
step 3). -/
def State.fwValid (s : State) (h : FwHead) : Bool :=
  h.verifies && s.adkKey 0 3 h.key && h.rev == 0xB0 && decide (s.colo.fuses.fw ≤ h.rollback)

/-! ## Owner images (R746 to R748, R827) -/

def imgKind (b : List Byte) : Nat := fieldLE b 5 1
def imgRollback (b : List Byte) : Nat := fieldLE b 8 4
def imgKey (b : List Byte) : List Byte := slice b 16 97
def imgBody (b : List Byte) : List Byte := slice b 160 (fieldLE b 12 4)

/-- An image with a whole header, body and signature, of a kind in use (R746). -/
def imgFormed (b : List Byte) : Bool :=
  b.take 4 == ascii "EVSO" && fieldLE b 4 1 == 1 && decide (1 ≤ imgKind b) && decide (imgKind b ≤ 3) &&
  b.length == 160 + fieldLE b 12 4 + 96

/-- The checks of R747. -/
def State.imgAccepted (s : State) (b : List Byte) : Bool :=
  let n := b.length - 96
  ecVerify (imgKey b) (b.take n) (b.drop n) &&
  decide ((if imgKind b = 2 then s.colo.fuses.frisket else s.colo.fuses.owner) ≤ imgRollback b) &&
  (s.ownerSlot.isNone || s.isOwner (imgKey b))

/-- A boundary block sets a reserved bit or carries a reserved code (R827, R835). -/
def boundaryBad (b : List Byte) : Bool :=
  (List.range 256).any fun k =>
    let off := 0x080 + 4 * k
    let v := fieldLE b (4 * k) 4
    let mask := if off = 0x080 then 0xFF else if off = 0x084 then 0xF else if off = 0x088 then 3
      else if 0x100 ≤ off ∧ off < 0x200 then 0x3B
      else if 0x200 ≤ off ∧ off < 0x300 then (if off % 8 = 0 then 0x1FFFFF else 0xFFFFFFFF) else 0
    v &&& mask != v || (off == 0x088 && v == 3) ||
    (decide (0x200 ≤ off) && decide (off < 0x300) && off % 8 == 0 && decide (5 < bits v 19 16))

/-- STATUS of a kind 2 image refused under R827; 0 where it is accepted. -/
def State.friskRefusal (s : State) (b : List Byte) : Nat :=
  if s.quoined pgFRISKET = true ∨ s.running = true then 1
  else if fieldLE b 12 4 ≠ 2622464 ∨ imgFormed b = false ∨ boundaryBad ((imgBody b).drop 2621440) = true then 4
  else if s.imgAccepted b = false then 2 else 0

/-- Where flash keeps an owner image of a kind: a Frisket image goes with the active firmware slot (R731, R732). -/
def State.imgSlot (s : State) (kind : Nat) : Nat := if kind = 2 then 2 + 8 * s.colo.flash.active else kind

/-- What an accepted image leaves behind: its journal entry, with the signer's key hash while unowned, and its copy in flash
where it is to be stored (R747, R748). -/
def State.imgKept (s : State) (b : List Byte) (store : Bool) : State :=
  let s1 := if s.ownerSlot.isNone then s.journal 5 (sha384 (imgKey b)) else s.journalFree 5
  if store then s1.onColo fun c => { c with flash := { c.flash with owner := SMap.set [] c.flash.owner (s.imgSlot (imgKind b)) b } }
  else s1

/-- Customer microcode: the dispatch entries and microwords of a kind 1 body, written under R403 to R405. -/
def State.loadMicrocode (s : State) (words entries : List (Nat × Nat)) : State :=
  let ws := words.filter fun x => decide (0x8000 ≤ x.1) && decide (x.1 ≤ 0x9FFF)
  let es := entries.filter fun x => decide (768 ≤ x.1) && decide (x.1 ≤ 1023) &&
    !(bit x.2 31 && (decide (bits x.2 15 0 < 0x8000) || decide (0x9FFF < bits x.2 15 0)))
  (s.onCStore fun c => { c with ready := c.ready ++ ws.map (fun x => (x.1, x.2 % 2 ^ 176))
                                entries := c.entries ++ es.map fun x => (x.1, x.2 &&& 0x8000FFFF) }).commitIfIdle

/-- The fabric enters LOADING with an image's body (R828). -/
def State.friskLoad (s : State) (body : List Byte) (box : Option Nat) : State :=
  (s.setFabric 1).onFrisket fun f => { f with loading := some body, loadFor := box }

/-- An image of kind 1 or 3 loaded: STATUS and the state after. `words` and `entries` are what a kind 1 body lists; the
specification does not give its layout. -/
def State.loadImage (s : State) (b : List Byte) (words entries : List (Nat × Nat)) : Nat × State :=
  if imgFormed b = false then (4, s)
  else if s.imgAccepted b = false then (2, s)
  else if imgKind b = 1 then (0, s.loadMicrocode words entries)
  else
    let r := s.loadProgram b (imgBody b)
    (if r.1 then 0 else 1, r.2)

/-- MB_LOAD_IMAGE (R746 to R748, R827, R828). The image is the data area's LEN bytes and `more`: a Frisket image is longer than
a mailbox, and the specification does not say how the rest comes (notes/assumptions/21.md). A Frisket load is answered
when it ends. -/
def execMbLoadImage (box : Nat) (more : List Byte) (words entries : List (Nat × Nat)) (s : State) : Result :=
  if s.mbTaken box 0x22 then
    match s.mbData box with
    | (none, s1) => .next (s1.mbAnswer box 4)
    | (some d, s1) =>
      let b := d ++ more
      let store := decide (fieldLE (mbArgs (s.mbHeader box)) 0 1 = 1)
      if b.take 4 = ascii "EVSO" ∧ imgKind b = 2 then
        let st := s1.friskRefusal b
        if st ≠ 0 then .next (s1.mbAnswer box st) else .next ((s1.imgKept b store).friskLoad (imgBody b) (some box))
      else
        let r := s1.loadImage b words entries
        .next ((if r.1 = 0 then r.2.imgKept b store else r.2).mbAnswer box r.1)
  else .next s

/-- A Frisket load's mailbox answered, where one waits. -/
def State.friskAnswer (s : State) (status : Nat) : State :=
  match s.frisket.loadFor with
  | some box => (s.onFrisket fun f => { f with loadFor := none }).mbAnswer box status
  | none => s

/-- FRISKET_LOAD_DONE (R828): the cells are written and their proof passes: the boundary block is applied, the quoin set,
and the fabric enters HELD and then RUNNING; or the proof fails, PROOF_FAILED of class 14 is reported and the fabric is
EMPTY. -/
def execFrisketLoadDone (ok : Bool) (s : State) : Result :=
  match s.frisket.loading with
  | none => .next s
  | some body =>
    let s1 := s.onFrisket fun f => { f with loading := none }
    if ok then
      let s2 := (s1.onFrisket fun f => { f.lose with cells := body.take 2621440 }).applyBoundary (body.drop 2621440)
      let s3 := (s2.put pgFRISKET PAGE_CTRL_QUOIN 1).put pgFRISKET PAGE_STATUS_QUOINED 1
      let s4 := s3.onColo fun c => { c with meas := SMap.set [] c.meas 3 (sha384 (body.take 2621440)) }
      .next (((s4.setFabric 2).setFabric 3).friskAnswer 0)
    else .next (((s1.setFabric 0).report pgFRISKET 0x000 34 0 14).friskAnswer 1)

/-! ## Live firmware update (R762, R763) -/

def State.onFlash (s : State) (f : FlashSt → FlashSt) : State := s.onColo fun c => { c with flash := f c.flash }

/-- MB_UPDATE_BEGIN: the inactive slot is to be written. -/
def execMbUpdateBegin (box : Nat) (s : State) : Result :=
  s.mbDo box 0x30 fun s =>
    (0, (s.onColo fun c => { c with update := some [] }).onFlash fun f => { f with fw := SMap.set none f.fw (1 - f.active) (some []) })

/-- MB_UPDATE_DATA: the data area's bytes go on into the inactive slot of 8 MiB; refused with no update begun. -/
def execMbUpdateData (box : Nat) (s : State) : Result :=
  s.mbDo box 0x31 fun s =>
    match s.colo.update, s.mbData box with
    | none, _ => (1, s)
    | some _, (none, s1) => (4, s1)
    | some u, (some d, s1) =>
      let u' := u ++ d
      if 2 ^ 23 < u'.length then (4, s1)
      else (0, (s1.onColo fun c => { c with update := some u' }).onFlash fun f => { f with fw := SMap.set none f.fw (1 - f.active) (some u') })

/-- MB_UPDATE_SWITCH: `h` what the image written carries, verified under R735 step 3. The new image runs in place, on trial
(R762, R763). -/
def execMbUpdateSwitch (box : Nat) (h : FwHead) (t : Nat) (s : State) : Result :=
  (s.advance t).mbDo box 0x32 fun s =>
    match s.colo.update with
    | none => (1, s)
    | some u =>
      if s.get pgFAULT FAULT_HB_CFG_TIMEOUT_MS < 10 then (1, s)
      else if s.fwValid h = false then (2, s)
      else
        let s1 := s.onColo fun c => { c with update := none, trialRollback := h.rollback, meas := SMap.set [] c.meas 0 (sha384 u) }
        let s2 := s1.onFlash fun f => { f with active := 1 - f.active, trial := true }
        let s3 := (s2.put pgCOLOPHON COLOPHON_STATUS_FW_VERSION h.version).put pgCOLOPHON COLOPHON_STATUS_TRIAL 1
        (0, ((s3.put pgCOLOPHON COLOPHON_STATUS_SLOT s2.colo.flash.active).journalFree 5).kick)

/-- CRYPTO_ROLLBACK shows the fused counters; FW and PATCH read 255 for 256 (R767). -/
def State.showRollback (s : State) : State :=
  let f := s.colo.fuses
  let s1 := (s.put pgCRYPTO CRYPTO_ROLLBACK_FW (min f.fw 255)).put pgCRYPTO CRYPTO_ROLLBACK_PATCH (min f.patch 255)
  (s1.put pgCRYPTO CRYPTO_ROLLBACK_FRISKET f.frisket).put pgCRYPTO CRYPTO_ROLLBACK_OWNER f.owner

/-- MB_UPDATE_CONFIRM: the trial flag clears and FW_ROLLBACK rises to the value of the image on trial (R763); refused with no
trial. -/
def execMbUpdateConfirm (box : Nat) (s : State) : Result :=
  s.mbDo box 0x33 fun s =>
    if s.colo.flash.trial then
      let s1 := (s.onFlash fun f => { f with trial := false }).onFuses fun f => { f with fw := max f.fw (min s.colo.trialRollback 256) }
      (0, ((s1.showRollback.put pgCOLOPHON COLOPHON_STATUS_TRIAL 0).event pgCOLOPHON 3).journalFree 5)
    else (1, s)

/-! ## Runs of the record (R749, R751) -/

/-- A run opens: RUN is the signature counter; its blocks are numbered from 0. -/
def State.openRun (s : State) : State :=
  let run := s.sigCounter
  let s1 := s.onLog fun l => { l with
    open_ := true, run := run, num := 0, stream := [], prev := sha384 (ascii "EVS-RECORD" ++ s.serialBytes ++ bytesLE 8 run)
    first := 0, lastAt := s.mono, prevCounter := 0, lost := 0 }
  ([0, 1].foldl (fun s k =>
    (((s.put (pgLOGPORT k) LOG_STATUS_RUN_OPEN 1).putPair (pgLOGPORT k) LOG_BYTES_LOST_LO LOG_BYTES_LOST_HI 0).putPair
      (pgLOGPORT k) LOG_WRITTEN_LO LOG_WRITTEN_HI 0).putPair (pgLOGPORT k) LOG_RELEASE_LO LOG_RELEASE_HI 0 1) s1).openRecordBlock

/-- MB_RECORD_OPEN: refused while a run is open. -/
def execMbRecordOpen (box t : Nat) (s : State) : Result :=
  (s.advance t).mbDo box 0x40 fun s => if s.log.open_ then (1, s) else (0, s.openRun)

/-- MB_RECORD_CLOSE: the open block closes with FINAL and the signature record has REASON 3; refused with no run open. -/
def execMbRecordClose (box t : Nat) (s : State) : Result :=
  (s.advance t).mbDo box 0x41 fun s => if s.log.open_ then (0, s.closeRun 3) else (1, s)

/-- MB_READ_LOG: `count` blocks (what 0) or signature records (what 1) from number `first`, as the drive of port k returns
them, into memory at `dst` within a region of master 13 (R758). -/
def execMbReadLog (box k what first count dst : Nat) (data : List Byte) (s : State) : Result :=
  s.mbDo box 0x42 fun s =>
    let unit := if what = 0 then 1048576 else 4096
    if 2 ≤ k ∨ 2 ≤ what ∨ count = 0 then (4, s)
    else if s.on (pgLOGPORT k) LOG_STATUS_DRIVE_READY = false ∨ s.on (pgLOGPORT k) LOG_STATUS_DRIVE_FAILED = true ∨
        s.regionOk 13 dst (count * unit) true = false then (1, s)
    else
      let s1 := (List.range count).foldl (fun s i => s.emit (.nvmeRead k (s.logLba k what (first + i)) (unit / 4096))) s
      match s1.writeRaw 13 dst (slice data 0 (count * unit)) with
      | (.ok, s2) => (0, s2)
      | (_, s2) => (1, s2)

/-- MB_READ_JOURNAL: the journal records numbered `first` to `first + count − 1` that flash holds, into the data area. -/
def execMbReadJournal (box first count : Nat) (s : State) : Result :=
  if s.mbTaken box 0x43 then
    let rs := (List.range (min count 2040)).flatMap fun i =>
      let r := SMap.get [] s.colo.journal.recs ((first + i) % 32768)
      if fieldLE r 0 8 = first + i then r else []
    .next (s.mbAnswer box 0 rs)
  else .next s

/-- Opcodes of the command table (R739). -/
def mbKnown : List Nat := [0x01, 0x02, 0x10, 0x11, 0x20, 0x21, 0x22, 0x30, 0x31, 0x32, 0x33, 0x40, 0x41, 0x42, 0x43]

/-- MB_BAD_OPCODE: STATUS 4. -/
def execMbBadOpcode (box : Nat) (s : State) : Result :=
  let op := mbOpcode (s.mbHeader box)
  if s.mbTaken box op && !(op ∈ mbKnown) then .next (s.mbAnswer box 4) else .next s

end Sys2Proof.Machine
end

