-- ==== Sys2Proof/Machine/Colophon.lean ====
section
/-!
DEFINITION. The Colophon's sensors, journal, log ports and consoles: the commands that are not mailbox commands (spec/14,
R702, R723 to R728, R749 to R761).
-/
namespace Sys2Proof.Machine

/-! ## Sensors (R723 to R725) -/

def State.sensor (s : State) (k : Nat) : SensorSt := SMap.get (SensorSt.reset k) s.colo.sensors k

def State.setSensor (s : State) (k : Nat) (x : SensorSt) : State :=
  s.onColo fun c => { c with sensors := SMap.set (SensorSt.reset k) c.sensors k x }

/-- The value of a sensor word: signed for thermal and clock sensors (R723). -/
def sensorValue (k : Nat) (v : W32) : Int := if k < 32 ∨ 64 ≤ k then v.toInt else (v.toNat : Int)

/-- The fault source of a sensor's class (R662, R723). -/
def sensorSource (k : Nat) : Nat := if k < 32 then 0x003 else if k < 56 then 0x004 else if k < 64 then 0x006 else 0x005

/-- SENSOR_LIMIT sent for sensor k, which firmware journals; `above` the direction (R664, R724, R759). -/
def State.sensorLimit (s : State) (k : Nat) (above : Bool) : State :=
  let s1 := (s.report pgCOLOPHON (sensorSource k) 37 0 (k + b2n above * 2 ^ 8)).event pgCOLOPHON 1
  if s1.firmware then s1.journalFree 2 else s1

/-- The domains whose PLL a clock monitor watches (R839). -/
def clockDomains (k : Nat) : List Nat :=
  if k = 68 then [1] else if k = 69 then (List.range 8).map (4 + ·) else if k = 70 then (List.range 16).map (36 + ·)
  else if k = 71 then [2] else if k = 72 then [3] else if k = 73 then [0] else if k = 74 then [35]
  else if k = 75 then (List.range 4).map (12 + ·) else []

/-- The clock a monitor watches is stopped by its domains' sleep states (R840, R843, R866). -/
def State.clockStopped (s : State) (k : Nat) : Bool :=
  !(clockDomains k).isEmpty && (clockDomains k).all fun d => decide (2 ≤ s.domState d)

/-- SENSOR_SAMPLE (R723, R724, R840): a monitor whose clock is stopped reads 0 and sends nothing; a sample outside LOWER to
UPPER sends one SENSOR_LIMIT; no further one goes out until 16 samples in a row have lain within. -/
def execSensorSample (k : Nat) (value : W32) (t : Nat) (s : State) : Result :=
  let s := s.advance t
  if 76 ≤ k ∨ s.device.stage = 0 then .next s
  else if s.clockStopped k then .next (s.setSensor k { s.sensor k with value := 0 })
  else
    let x := s.sensor k
    let v := sensorValue k value
    let above := decide (sensorValue k x.upper < v)
    let out := above || decide (v < sensorValue k x.lower)
    let good := if out then 0 else x.good + 1
    let s1 := s.setSensor k { x with value := value, good := if x.sent ∧ good < 16 then good else 0,
                                     sent := out || (x.sent && decide (good < 16)) }
    if out && !x.sent then .next (s1.sensorLimit k above) else .next s1

/-- PMBUS_POLL (R725): every fault status word that is not zero is journalled; `words` is what the regulators return. -/
def execPmbusPoll (words : List W32) (t : Nat) (s : State) : Result :=
  let s := s.advance t
  if s.firmware then
    .next (words.zipIdx.foldl (fun s x =>
      let s1 := s.emit (.pmbus x.2)
      if x.1 = 0 then s1 else s1.journalFree 8) s)
  else .next s

/-- DRBG_HEALTH_FAIL (R767): DRBG_FAULT is set and signing stops. -/
def execDrbgHealthFail (s : State) : Result := .next (s.put pgCRYPTO CRYPTO_STATUS_DRBG_FAULT 1)

/-- COLOPHON_CROSS_CHECK (R702): a difference between the architected registers of cores 3 and 4 is fatal COLO_LOCKSTEP. -/
def execColophonCrossCheck (s : State) : Result :=
  if s.firmware && !(xcheckDiffs (s.core 3) (s.core 4)).isEmpty then .next s.coloMismatch else .next s

/-! ## Record blocks and signatures (R749 to R752) -/

/-- RECORD_BLOCK_CLOSE (R749, R751): a full block closes; 64 blocks since the last signature record give one of REASON 1. -/
def execRecordBlockClose (t : Nat) (s : State) : Result :=
  let s := s.advance t
  if s.log.open_ && decide (blockPayload ≤ s.log.stream.length) then
    let s1 := s.closeRecordBlock false
    .next (if 64 ≤ s1.log.num - s1.log.first then s1.signRecord 1 else s1)
  else .next s

/-- SIGNATURE_TIMER (R751): 60 s since the last signature record; a block with payload closes PARTIAL, then REASON 2. -/
def execSignatureTimer (t : Nat) (s : State) : Result :=
  let s := s.advance t
  if s.log.open_ && decide (s.log.lastAt + 60000000000 ≤ s.mono) then
    let n := ceilDiv s.log.stream.length blockPayload
    .next (((List.range n).foldl (fun s _ => s.closeRecordBlock false) s).signRecord 2)
  else .next s

/-! ## Drives (R756, R757, R768) -/

/-- The command of port k with an identifier. -/
def State.nvme (s : State) (k id : Nat) : Option NvmeCmd := (s.logPort k).cmds.find? (·.id == id)

/-- A command leaves the port's list. -/
def State.nvmeDone (s : State) (k id : Nat) : State := s.onLogPort k fun l => { l with cmds := l.cmds.filter (·.id != id) }

/-- The waiting commands issue as room allows. -/
def State.logGo (s : State) (k : Nat) : State := s.logPump k (s.logPort k).waiting

/-- The drive of port k fails: DRIVE_FAILED, LOG_DRIVE_ERROR with the NVMe status and the identifier, and the port stops. -/
def State.driveFail (s : State) (k status id : Nat) : State :=
  let s1 := (s.put (pgLOGPORT k) LOG_STATUS_DRIVE_FAILED 1).event (pgLOGPORT k) 0
  (s1.onLogPort k fun l => { l with cmds := [], waiting := [] }).report (pgLOGPORT k) (0x040 + k) 38 0
    (status % 2 ^ 16 + id % 2 ^ 16 * 2 ^ 16)

/-- NVME_COMPLETION (R757): a write ends; another status than success is retried up to three times unless DNR is set, and
then fails the drive. `status` is laid out as the detail's bits [14:0]. -/
def execNvmeCompletion (k id status t : Nat) (s : State) : Result :=
  let s := s.advance t
  let k := k % 2
  match s.nvme k id with
  | none => .next s
  | some c =>
    if status % 2 ^ 11 = 0 then
      let s1 := s.nvmeDone k id
      .next ((if c.what = 0 then s1.putPair (pgLOGPORT k) LOG_WRITTEN_LO LOG_WRITTEN_HI (c.num + 1) else s1).logGo k)
    else
      let s1 := s.count (pgLOGPORT k) LOG_WRITE_ERRORS
      if bit status 14 ∨ 3 ≤ c.tries then .next (s1.driveFail k (status % 2 ^ 15) id)
      else
        let new := (s.logPort k).nextId
        .next ((s1.onLogPort k fun l => { l with
          nextId := (new + 1) % 65536
          cmds := l.cmds.map fun x => if x.id = id then { x with id := new, tries := x.tries + 1, issued := s.mono } else x }).emit
          (.nvmeWrite k (s1.logLba k c.what c.num) c.data))

/-- NVME_TIMEOUT (R757): a command that has not completed in 5 s fails the drive; detail bit 15. -/
def execNvmeTimeout (k id t : Nat) (s : State) : Result :=
  let s := s.advance t
  let k := k % 2
  match s.nvme k id with
  | none => .next s
  | some c =>
    if s.mono < c.issued + 5000000000 then .next s
    else .next ((s.count (pgLOGPORT k) LOG_WRITE_ERRORS).driveFail k (2 ^ 15) id)

/-- LOG_RELEASE_WRITE (R756, R768): a write of LOG_RELEASE_HI applies the pair; a value above LOG_WRITTEN is ignored. -/
def execLogReleaseWrite (k m : Nat) (v : W32) (s : State) : Result :=
  let k := k % 2
  let p := pgLOGPORT k
  let n := s.get p LOG_RELEASE_LO + v.toNat * 2 ^ 32
  .next (s.tryWrite m p 0x06C (reasonIf (decide (s.pair p LOG_WRITTEN_LO LOG_WRITTEN_HI < n)) .outOfRange) fun s =>
    ((s.put p LOG_RELEASE_HI v.toNat).putPair p LOG_RELEASE_LO LOG_RELEASE_HI n 1).logGo k)

/-! ## The journal (R759, R760) -/

/-- The journal goes on: the sector ahead is erased where it holds records, else the next entry is programmed. -/
def State.journalNext (s : State) : State :=
  s.onJournal fun j =>
    let full := decide (j.next % 128 = 0) && j.recs.any fun x => decide (x.1 / 128 = j.next % 32768 / 128)
    { j with erasing := full, programming := !full && !j.buffer.isEmpty }

/-- JOURNAL_PROGRAM_DONE (R759, R760): the oldest entry is in flash as the record of the next SEQ, with the drops since the
record before. -/
def execJournalProgramDone (s : State) : Result :=
  let j := s.colo.journal
  match j.buffer with
  | [] => .next s
  | (type, time, body) :: rest =>
    if j.programming then
      let r := journalRecord j.next time type j.dropped body
      let s1 := s.onJournal fun j => { j with
        recs := SMap.set [] j.recs (j.next % 32768) r, next := j.next + 1, buffer := rest, dropped := 0 }
      .next (s1.putPair pgCOLOPHON COLOPHON_JOURNAL_SEQ_LO COLOPHON_JOURNAL_SEQ_HI (j.next + 1)).journalNext
    else .next s

/-- JOURNAL_ERASE_DONE (R759, R760): the oldest sector's 128 records are gone. -/
def execJournalEraseDone (s : State) : Result :=
  if s.colo.journal.erasing then
    .next (s.onJournal fun j => { j with
      recs := j.recs.filter fun x => decide (x.1 / 128 ≠ j.next % 32768 / 128)
      erasing := false, programming := !j.buffer.isEmpty })
  else .next s

/-! ## Consoles (R728, R734) -/

/-- UART_RECEIVE: bytes for the management console, or for recovery in boot mode 1. -/
def execUartReceive (data : List Byte) (s : State) : Result := .next (s.onColo fun c => { c with uart := c.uart ++ data })

/-- JTAG_TAP_INSTRUCTION (R728): instruction `code` is in force; while DEBUG_LOCK is set an instruction that is not a
mandatory boundary-scan one is not offered, and the TAP is left in BYPASS (0), as IEEE 1149.1 has it for a code not in use
(notes/assumptions/22.md). -/
def execJtagTapInstruction (code : Nat) (mandatory : Bool) (s : State) : Result :=
  .next (s.onColo fun c => { c with tap := if c.fuses.debugLock && !mandatory then 0 else code })

end Sys2Proof.Machine
end

