-- ==== Sys2Proof/Machine/Jobs.lean ====
section
/-!
DEFINITION. The JOBS block's commands: doorbells, rings, tickets, completions and calls (spec/15, R775 to R790).
-/
namespace Sys2Proof.Machine

/-- The offset of a register of ring n (R810). -/
def ringOff (n o : Nat) : Nat := 0x100 + 32 * n + o

/-- A doorbell or head write that R777 ignores counts in JOBS_DOORBELL_IGNORED. -/
def State.doorbell (s : State) (m off : Nat) (bad : Bool) (k : State → State) : State :=
  let s1 := s.tryWrite m pgJOBS off (reasonIf bad .outOfRange) k
  if bad && s.pageAllows m pgJOBS off true then s1.count pgJOBS JOBS_DOORBELL_IGNORED else s1

/-- JOBS_TAIL_DOORBELL: a write of JOBS_SQ_TAIL of ring n (R777). -/
def execJobsTailDoorbell (n m : Nat) (v : W32) (s : State) : Result :=
  let n := n % 16
  let bad := serialBefore v.toNat (s.ringTail n) || decide (s.ringDepth n < serialDist (s.ring n).done v.toNat)
  .next (s.doorbell m (ringOff n 0x14) bad fun s => s.put pgJOBS (JOBS_SQ_TAIL_TAIL.at n) v.toNat)

/-- JOBS_HEAD_WRITE: a write of JOBS_CQ_HEAD of ring n (R777). -/
def execJobsHeadWrite (n m : Nat) (v : W32) (s : State) : Result :=
  let n := n % 16
  let bad := serialBefore v.toNat (s.ringHead n) || serialBefore (s.ring n).done v.toNat
  .next (s.doorbell m (ringOff n 0x18) bad fun s => s.put pgJOBS (JOBS_CQ_HEAD_HEAD.at n) v.toNat)

/-- The counts of a ring at zero (R773, R780). -/
def State.zeroRing (s : State) (n : Nat) : State :=
  ((s.setRing n RingSt.reset).put pgJOBS (JOBS_SQ_TAIL_TAIL.at n) 0).put pgJOBS (JOBS_CQ_HEAD_HEAD.at n) 0

/-- RING_ENABLE_WRITE: a write of JOBS_RING_CFG of ring n (R780): LOG2 keeps its value while the ring is enabled, ENABLE is
set only while the ring is idle, and setting it zeroes the counts. -/
def execRingEnableWrite (n m : Nat) (v : W32) (s : State) : Result :=
  let n := n % 16
  let on := s.ringEnabled n
  let log2 := bits v.toNat 4 0
  let set := v.getLsbD 31 && !on
  let idle := (s.ring n).fetched == (s.ring n).done
  let rs := reasonIf (decide (16 < log2)) .outOfRange ++ reasonIf (set && !idle) .state
  .next (s.tryWrite m pgJOBS (ringOff n 0x10) rs fun s =>
    let s1 := if on then
        (if 2 ^ log2 = s.ringDepth n then s else s.ignored pgJOBS (ringOff n 0x10) .state)
      else s.put pgJOBS (JOBS_RING_CFG_LOG2.at n) log2
    let s2 := if set then s1.zeroRing n else s1
    s2.put pgJOBS (JOBS_RING_CFG_ENABLE.at n) (b2n (v.getLsbD 31)))

/-- Ring n can fetch (R776). -/
def State.canFetch (s : State) (n : Nat) : Bool :=
  let r := s.ring n
  s.on pgJOBS JOBS_CTRL_ENABLE && s.ringEnabled n && r.fetched != s.ringTail n && decide (serialDist r.done r.fetched < 64) &&
  decide (serialDist (s.ringHead n) r.fetched < s.ringDepth n) && !s.on pgJOBS JOBS_STATUS_STOPPED

/-- The ring served next in round robin (R776). -/
def State.nextRing (s : State) : Option Nat :=
  ((List.range 16).map fun i => (s.jobs.last + i) % 16).find? s.canFetch

/-- TICKET_FETCH: the next ticket in round robin is fetched; `host` is what host memory answers for a ring that lies there,
none a failed request (R774, R776, R785 cause 3). -/
def execTicketFetch (host : Option (List Byte)) (s : State) : Result :=
  match s.nextRing with
  | none => .next s
  | some n =>
    let r := s.ring n
    let sq := s.sqBase n
    let a := sq.2 + 64 * (r.fetched % s.ringDepth n)
    let got : Option (List Byte) × State :=
      if sq.1 then
        (match host with
         | some b => (some (slice b 0 64), s.emit (.hostRead (a % 2 ^ 63) 64))
         | none => (none, (s.emit (.hostRead (a % 2 ^ 63) 64)).count pgHOST HOST_CPL_ERRORS))
      else match s.read 14 a 64 with
        | (.ok b, s1) => (some b, s1)
        | (_, s1) => (none, s1)
    let t : Ticket := { k := r.fetched, data := got.1, started := got.1.isNone, moved := 0,
                        fin := if got.1.isNone then some (TicketEnd.of 2 3 0) else none }
    .next ((got.2.setRing n { r with fetched := (r.fetched + 1) % 2 ^ 32, tickets := r.tickets ++ [t] }).onJobs fun j =>
      { j with last := (n + 1) % 16 })

/-- TICKET_NOP: the next ticket of ring n is a NOP and ends at once (R781). -/
def execTicketNop (n : Nat) (s : State) : Result :=
  match s.nextOfKind (n % 16) 1 with
  | none => .next s
  | some (k, _) => .next (s.endTicket (n % 16) k (TicketEnd.of 0 0 1))

/-- The web in service with the fewest chains in its job queue, the lowest number on a tie (R782). -/
def State.leastWeb (s : State) : Option Nat :=
  s.websUp.foldl (fun best w => match best with
    | none => some w
    | some b => if s.webDepth w 1 < s.webDepth b 1 then some w else some b) none

/-- TICKET_CHAIN: the next ticket of ring n sends its chain to a web with a job submission packet (R494, R781, R782). -/
def execTicketChain (n : Nat) (s : State) : Result :=
  let n := n % 16
  match s.nextOfKind n 3 with
  | none => .next s
  | some (k, b) =>
    let web := if tkWeb b = 255 then s.leastWeb else if s.webUp (tkWeb b) then some (tkWeb b) else none
    match web with
    | none => .next (s.endTicket n k (TicketEnd.of 1 6 3))
    | some w =>
      .next ((s.onTicket n k fun t => { t with started := true }).onWeb w fun x =>
        { x with incoming := x.incoming ++ [{ desc := tkDesc b, seq := 0, src := 1 + n, ticket := k }] })

/-- The call queue's address: the pair as it took effect when _HI was written, bits [9:0] disregarded (R788, R808). -/
def State.callArea (s : State) : Nat := s.pair pgJOBS JOBS_CALL_AREA_LO JOBS_CALL_AREA_HI 1 / 1024 * 1024

/-- TICKET_CALL: the next ticket of ring n is copied whole into the call queue and CALL raised, or ends NO_PROGRAM (R785,
R788). -/
def execTicketCall (n : Nat) (s : State) : Result :=
  let n := n % 16
  match s.nextOfKind n 4 with
  | none => .next s
  | some (k, b) =>
    if s.running = false ∨ 16 ≤ s.jobs.calls.length then .next (s.endTicket n k (TicketEnd.of 1 8 4))
    else
      let s1 := (s.write 14 (s.callArea + 64 * (s.jobs.accepted % 16)) b).2
      .next (((s1.onTicket n k fun t => { t with started := true }).onJobs fun j =>
        { j with calls := j.calls ++ [(n, k)], accepted := j.accepted + 1 }).event pgJOBS 0)

/-- TICKET_BAD_KIND: the next ticket of ring n is malformed and is ignored with status 3 (R785). -/
def execTicketBadKind (n : Nat) (s : State) : Result :=
  match s.nextTicket (n % 16) with
  | none => .next s
  | some (k, b) =>
    if badTicket b = 0 then .next s else .next (s.endTicket (n % 16) k (TicketEnd.of 3 (badTicket b) (tkKind b)))

/-- TICKET_COMPLETE: the completion record of the oldest ticket of ring n is written, where it has ended (R778, R779). -/
def execTicketComplete (n : Nat) (s : State) : Result := .next (s.completeOldest (n % 16))

/-- CALL_DONE_WRITE: a write of JOBS_CALL_DONE completes the oldest call, at once outside an execution, else once its outcome
is known (R789). -/
def execCallDoneWrite (m : Nat) (v : W32) (s : State) : Result :=
  let none? := decide (s.jobs.calls.length ≤ s.jobs.held.length)
  .next (s.tryWrite m pgJOBS 0x084 (reasonIf none? .state) fun s =>
    let x := (s.get pgJOBS JOBS_CALL_RESULT, v.getLsbD 0)
    if s.inExecution then s.onJobs fun j => { j with held := j.held ++ [x] } else s.appCall x)

/-- The COPY ticket of ring n that moves bytes: one that has started and not ended, else the next ticket where it is one. -/
def State.copyTicket (s : State) (n : Nat) : Option (Nat × List Byte × Nat) :=
  match (s.ring n).tickets.find? fun t => t.started && t.fin.isNone &&
      (match t.data with | some b => tkKind b == 2 | none => false) with
  | some t => some (t.k, t.data.getD [], t.moved)
  | none => match s.nextOfKind n 2 with
    | some (k, b) => some (k, b, 0)
    | none => none

/-- A COPY ends. -/
def copyEnd (status cause moved : Nat) : TicketEnd := { TicketEnd.of status cause 2 with result := moved % 2 ^ 32 }

/-- HOST_REQUEST_ERROR: a request of a COPY of ring n to the host fails, and the ticket with it (R774). -/
def execHostRequestError (n : Nat) (s : State) : Result :=
  match s.copyTicket (n % 16) with
  | none => .next s
  | some (k, b, moved) =>
    if bit (tkSrc b) 63 || bit (tkDst b) 63 then
      .next ((s.count pgHOST HOST_CPL_ERRORS).endTicket (n % 16) k (copyEnd 1 5 moved))
    else .next s

/-- The JOBS block stops at the fatal reaction (R787, R790). -/
def State.stopJobs (s : State) : State :=
  let s1 := (List.range 16).foldl State.faultTickets (s.put pgJOBS JOBS_STATUS_STOPPED 1)
  (s1.onJobs fun j => { j with calls := [] }).dropHeld

/-- Every ticket of a ring completed, those of rings in host memory dropped and counted. -/
def State.completeAll (s : State) (n : Nat) : List Ticket → State
  | [] => s
  | t :: ts => (match t.fin with | some e => s.complete n t e true | none => s).completeAll n ts

/-- The JOBS block at a Function Level Reset or a PERST_N assertion (R773). -/
def State.resetJobs (s : State) : State :=
  let s1 := (List.range 16).foldl (fun s n =>
    let s1 := (s.put pgJOBS (JOBS_RING_CFG_ENABLE.at n) 0).faultTickets n
    (s1.completeAll n (s1.ring n).tickets).zeroRing n) s
  (s1.onJobs fun j => { j with calls := [] }).dropHeld

end Sys2Proof.Machine
end

