-- ==== Sys2Proof/Machine/Fault.lean ====
section
/-!
DEFINITION. The Fault Collector: processing a message, the first-error latch, the log, retirement and the fatal reaction
(spec/12, R658 to R689).
-/
namespace Sys2Proof.Machine

/-! ## Severity (R662, R665 to R670) -/

/-- Severity in force of a source. -/
def State.severity (s : State) (src : Nat) : Nat :=
  bits (s.get pgFAULT (FAULT_SEV.at (src / 16))) (2 * (src % 16) + 1) (2 * (src % 16))

/-- A kind code in use (R664). -/
def kindListed (k : Nat) : Bool := decide (1 ≤ k) && decide (k ≤ 41)

/-- A message under reserved codes (R665). -/
def FaultMsg.badCodes (m : FaultMsg) : Bool := !sourceListed m.src || !kindListed m.kind

/-- The higher severity of each source in two copies of a FAULT_SEV word. -/
def higherSev (a b : Nat) : Nat :=
  (List.range 16).foldl (fun w k => w + max (bits a (2 * k + 1) (2 * k)) (bits b (2 * k + 1) (2 * k)) * 4 ^ k) 0

/-- A FAULT_SEV word whose copies A and B an upset has struck: the bits it flips in each. -/
def State.strikeSev (s : State) (h : Nat × W32 × W32) : State :=
  let off := 0x100 + 4 * (h.1 % 64)
  (s.setReg pgFAULT off (s.reg pgFAULT off ^^^ h.2.1)).setReg pgFAULT off (s.reg pgFAULT off 1 ^^^ h.2.2) 1

/-- FAULT_SEV_SCRUB (R670): the 1 ms compare, after the upsets that struck since the compare before: a word whose two copies
(the second at index 1) differ takes the higher severity of each source in both; CONFIG_COPY from 0x007 names the word. -/
def execFaultSevScrub (hits : List (Nat × W32 × W32)) (s : State) : Result :=
  .next ((List.range 64).foldl (fun s i =>
    let off := 0x100 + 4 * i
    let a := s.reg pgFAULT off
    let b := s.reg pgFAULT off 1
    if a = b then s
    else
      let w := BitVec.ofNat 32 (higherSev a.toNat b.toNat)
      ((s.setReg pgFAULT off w).setReg pgFAULT off w 1).localFault 0x007 21 0 i) (hits.foldl State.strikeSev s))

/-! ## Retirement (R678 to R684) -/

/-- A position of R244 for row, galley and column. -/
def faultPos (r p q : Nat) : Nat := r * 2 ^ 16 + p * 2 ^ 11 + q * 2 ^ 5

/-- One more message for a tally, which returns to zero WINDOW_H hours after its first; true when it reaches its limit. -/
def State.tally (s : State) (t : Tally) (limit : Nat) : Bool × Tally :=
  let win := s.get pgFAULT FAULT_RETIRE_CFG_WINDOW_H * 3600000000000
  let t := if t.count = 0 ∨ t.first + win ≤ s.mono then { count := 0, first := s.mono, reached := false } else t
  let hit := !t.reached && decide (limit ≤ t.count + 1)
  (hit, { t with count := t.count + 1, reached := t.reached || hit })

/-- A retirement entered in the service map and the journal by firmware (R733). -/
def State.serviceRetire (s : State) (cls inst : Nat) : State :=
  if s.firmware then
    let sticky := s.on pgFAULT FAULT_CTRL_STICKY
    (s.onFlash fun f => { f with service := f.service.filter (fun x => x.1 != cls || x.2.1 != inst) ++ [(cls, inst, sticky)] }).journalFree 4
  else s

/-- A retirement reported: UNIT_RETIRED from 0x008, RETIRED and FAULT_RETIRE_LAST; the DEVICE page follows (R682). -/
def State.retired (s : State) (unit core pos : Nat) : State :=
  let s1 := (s.put pgFAULT FAULT_RETIRE_LAST_UNIT unit).put pgFAULT FAULT_RETIRE_LAST_CORE core
  let s2 := ((s1.put pgFAULT FAULT_RETIRE_LAST_POSITION pos).event pgFAULT 2).localFault 0x008 41 pos (unit + 4 * core)
  if unit = 3 then s2 else s2.deviceUpdate

/-- No spare is left: SPARE_EXHAUSTED from 0x009. -/
def State.noSpare (s : State) (unit core pos : Nat) : State := (s.event pgFAULT 5).localFault 0x009 40 pos (unit + 4 * core)

/-- A galley ordered retired (R680); true where a retirement was ordered. -/
def State.retireGalley (s : State) (r p : Nat) : Bool × State :=
  let pg := pgGALLEY r
  if s.get pg GALLEY_REMAP_RETIRED ≠ 31 then
    if 17 * r + p ∈ s.fault.spareTold then (false, s)
    else (false, (s.onFault fun f => { f with spareTold := f.spareTold ++ [17 * r + p] }).noSpare 2 0 (faultPos r p 0))
  else if p = 16 then
    (true, ((s.put pg GALLEY_REMAP_RETIRED 16).serviceRetire 6 (17 * r + p)).retired 2 0 (faultPos r p 0))
  else
    let pend := GALLEY_COL_RETIRED_PENDING.at p
    let s1 := if s.on pg pend then
        ((s.put pg pend 0).put pg (GALLEY_COL_RETIRED_COLUMN.at p) 63).onFlash fun f =>
          { f with service := f.service.filter fun x => x.1 != 7 || x.2.1 / 33 != 17 * r + p }
      else s
    (true, (((s1.put pg GALLEY_REMAP_RETIRED p).put pg GALLEY_REMAP_PENDING 1).serviceRetire 6 (17 * r + p)).retired 2 0
      (faultPos r p 0))

/-- A column ordered retired (R679). -/
def State.retireColumn (s : State) (r p q : Nat) : Bool × State :=
  let pg := pgGALLEY r
  let col := GALLEY_COL_RETIRED_COLUMN.at p
  if s.get pg col ≠ 63 then s.retireGalley r p
  else
    let s1 := (s.put pg col q).put pg (GALLEY_COL_RETIRED_PENDING.at p) (b2n (decide (q ≠ 32)))
    (true, (s1.serviceRetire 7 (33 * (17 * r + p) + q)).retired 1 0 (faultPos r p q))

/-- A core ordered to leave service at the next impression entry while a spare is in service (R681). -/
def State.retireCore (s : State) (n : Nat) : Bool × State :=
  let up := s.coresInService
  if up.contains n && decide (s.fault.coreLeaves.length + 3 ≤ up.length) then
    (true, ((s.onFault fun f => { f with coreLeaves := f.coreLeaves ++ [n] }).serviceRetire 5 n).retired 3 n 0)
  else (false, s.noSpare 3 n 0)

/-- The retirement engine's part in a message (R678 to R683); true where it led to a retirement order. -/
def State.retireFor (s : State) (m : FaultMsg) (sev : Nat) : Bool × State :=
  let cfg := fun f => s.get pgFAULT f
  if sev ≠ 2 ∨ m.badCodes = true ∨ s.on pgFAULT FAULT_STATUS_FATAL = true then (false, s)
  else
    let r := bits m.addr 19 16
    let p := bits m.addr 15 11
    let q := bits m.addr 10 5
    if 0x100 ≤ m.src ∧ m.kind = 1 then
      let k := 33 * (17 * r + p) + q
      let t := s.tally (SMap.get Tally.zero s.fault.colTally k) (cfg FAULT_RETIRE_CFG_COL_LIMIT)
      let s1 := s.onFault fun f => { f with colTally := SMap.set Tally.zero f.colTally k t.2 }
      if t.1 then s1.retireColumn r p q else (false, s1)
    else if m.src = 0x01C ∧ m.kind = 4 then
      let k := 17 * r + p
      let t := s.tally (SMap.get Tally.zero s.fault.galTally k) (cfg FAULT_RETIRE_CFG_GALLEY_LIMIT)
      let s1 := s.onFault fun f => { f with galTally := SMap.set Tally.zero f.galTally k t.2 }
      if t.1 then s1.retireGalley r p else (false, s1)
    else if m.src = 0x013 ∧ m.kind = 8 ∧ bits m.detail 9 8 < 3 then
      let k := bits m.detail 9 8
      let t := s.tally (SMap.get Tally.zero s.fault.coreTally k) (cfg FAULT_RETIRE_CFG_CORE_LIMIT)
      let s1 := s.onFault fun f => { f with coreTally := SMap.set Tally.zero f.coreTally k t.2 }
      if t.1 then s1.retireCore k else (false, s1)
    else if m.src = 0x014 ∧ m.kind = 6 then
      let k := bits m.detail 1 0
      (true, (s.serviceRetire 5 k).retired 3 k 0)
    else (false, s)

/-- TALLY_WINDOW_EXPIRY (R678): the tally of a unit (1 column, 2 galley, 3 core) returns to zero WINDOW_H hours after its
first count. -/
def execTallyWindowExpiry (unit k t : Nat) (s : State) : Result :=
  let s := s.advance t
  let win := s.get pgFAULT FAULT_RETIRE_CFG_WINDOW_H * 3600000000000
  let drop := fun (m : SMap Tally) =>
    if (SMap.get Tally.zero m k).first + win ≤ s.mono then SMap.set Tally.zero m k Tally.zero else m
  .next (s.onFault fun f =>
    if unit = 1 then { f with colTally := drop f.colTally }
    else if unit = 2 then { f with galTally := drop f.galTally }
    else if unit = 3 then { f with coreTally := drop f.coreTally } else f)

/-! ## The fatal reaction (R687, R689) -/

/-- The sequencer stops at the next routine boundary and its queue is discarded (R394). -/
def State.stopSequencer (s : State) : State :=
  if s.seq.cur.isNone then (s.onSeq fun q => { q with stop := false, stopped := true }).enterDiscard
  else s.onSeq fun q => { q with stop := true }

/-- The fatal reaction: FATAL and its event, a fade with CAUSE 1, the sequencer stopped, every web flushed, the JOBS block
stopped, ALIVE stopped, and the record closed with a signature of REASON 4. -/
def State.fatalReaction (s : State) : State :=
  let s1 := (((s.put pgFAULT FAULT_STATUS_FATAL 1).event pgFAULT 0).aliveCheck).requestFade 1
  let s2 := (s1.gr1Event 1).stopSequencer
  (((List.range 8).foldl (fun s w => s.flushWeb w true) s2).stopJobs).closeRun 4

/-! ## The latch and the log (R671 to R677) -/

/-- The first-error latch (R671): true where this message is latched. -/
def State.latch (s : State) (m : FaultMsg) (sev : Nat) : Bool × State :=
  if sev < s.get pgFAULT FAULT_CTRL_LATCH_MIN then (false, s)
  else if s.on pgFAULT FAULT_STATUS_FIRST_VALID then (false, s.put pgFAULT FAULT_STATUS_OVERFLOW 1)
  else
    let s1 := (s.put pgFAULT FAULT_FIRST_SRC_SEVERITY sev).put pgFAULT FAULT_FIRST_SRC_SOURCE m.src
    let s2 := (s1.put pgFAULT FAULT_FIRST_KIND m.kind).put pgFAULT FAULT_FIRST_DETAIL m.detail
    let s3 := (s2.putPair pgFAULT FAULT_FIRST_ADDR_LO FAULT_FIRST_ADDR_HI m.addr).putPair pgFAULT FAULT_FIRST_TIME_LO
      FAULT_FIRST_TIME_HI s.dev
    (true, (s3.put pgFAULT FAULT_STATUS_FIRST_VALID 1).event pgFAULT 1)

/-- A fault log record's 64 bytes (R675). -/
def faultRecord (seq time imp : Nat) (m : FaultMsg) (flags dropped count : Nat) : List Byte :=
  let b := bytesLE 8 seq ++ bytesLE 8 time ++ bytesLE 4 imp ++ bytesLE 2 m.src ++ bytesLE 1 m.kind ++ bytesLE 1 flags ++
    bytesLE 4 m.detail ++ bytesLE 6 m.addr ++ bytesLE 2 dropped ++ bytesLE 2 count ++ List.replicate 22 0
  b ++ bytesLE 4 (crc32 b)

/-- A message's record written (R675, R676), or left out while a record is being written. Firmware copies each record into
the journal (R761). -/
def State.logMessage (s : State) (m : FaultMsg) (flags count : Nat) : State :=
  if s.fault.writing then
    let s1 := (s.count pgFAULT FAULT_LOG_DROPPED).onFault fun f => { f with dropped := min (f.dropped + 1) 65535 }
    if s1.on pgFAULT FAULT_STATUS_LOG_OVERFLOW then s1 else (s1.put pgFAULT FAULT_STATUS_LOG_OVERFLOW 1).event pgFAULT 3
  else
    let seq := s.pair pgFAULT FAULT_LOG_HEAD_LO FAULT_LOG_HEAD_HI
    let r := faultRecord seq s.dev (s.get pgJOBS JOBS_IMP_COUNT) m flags s.fault.dropped count
    let s1 := (s.onFault fun f => { f with writing := true, dropped := 0, log := SMap.set [] f.log (seq % 4096) r }).putPair
      pgFAULT FAULT_LOG_HEAD_LO FAULT_LOG_HEAD_HI (seq + 1)
    if s1.firmware then s1.journal 1 r else s1

/-! ## Processing (R659, R660, R668) -/

/-- One message processed. -/
def State.processFault (s : State) (m : FaultMsg) : State :=
  let bad := m.badCodes
  let sev := if bad then 2 else s.severity m.src
  let before := s.get pgFAULT FAULT_SRC_COUNT (m.src + 1)
  let s1 := (s.count64 pgFAULT FAULT_MESSAGES_LO FAULT_MESSAGES_HI).count pgFAULT FAULT_SRC_COUNT 1 (m.src + 1)
  let s2 := if bad then s1.count pgFAULT FAULT_BAD_CODES else s1
  let l := s2.latch m sev
  let r := l.2.retireFor m sev
  let start := decide (sev = 3) && !s.on pgFAULT FAULT_STATUS_FATAL
  let flags := sev + b2n l.1 * 4 + b2n r.1 * 8 + b2n start * 16
  let s3 := if start then ((r.2.put pgFAULT FAULT_FATAL_VALID 1).put pgFAULT FAULT_FATAL_KIND m.kind).put pgFAULT FAULT_FATAL_SRC m.src
    else r.2
  let s4 := if sev ≠ 1 ∨ before = 0 then s3.logMessage m flags (s1.get pgFAULT FAULT_SRC_COUNT (m.src + 1)) else s3
  if start then s4.fatalReaction else s4

/-- FAULT_MESSAGE (R659, R660): the n-th waiting network message reaches the collector; one that the collector raised itself,
ready in the same cycle, goes first. -/
def execFaultMessage (n t : Nat) (s : State) : Result :=
  let s := s.advance t
  if !s.fault.loc.isEmpty && !s.fault.writing then .next s
  else match s.fault.net[n]? with
    | none => .next s
    | some m => .next ((s.onFault fun f => { f with net := f.net.eraseIdx n }).processFault m)

/-- LOCAL_FAULT_MESSAGE (R660): the oldest message of the collector's own, once no record write is in progress. -/
def execLocalFaultMessage (t : Nat) (s : State) : Result :=
  let s := s.advance t
  if s.fault.writing then .next s
  else match s.fault.loc with
    | [] => .next s
    | m :: rest => .next ((s.onFault fun f => { f with loc := rest }).processFault m)

/-- FAULT_LOG_WRITE_DONE (R676): the log is free. -/
def execFaultLogWriteDone (s : State) : Result := .next (s.onFault fun f => { f with writing := false })

/-- The latch cleared (R673). -/
def State.firstClear (s : State) : State :=
  let s1 := ((s.put pgFAULT FAULT_STATUS_FIRST_VALID 0).put pgFAULT FAULT_STATUS_OVERFLOW 0).put pgFAULT FAULT_STATUS_LOG_OVERFLOW 0
  [0x048, 0x04C, 0x050, 0x054, 0x058, 0x05C, 0x060].foldl (fun s off => s.setReg pgFAULT off 0) s1

/-- FIRST_CLEAR (R673): a write of FAULT_CTRL with FIRST_CLEAR; ignored while FATAL. -/
def execFirstClear (m : Nat) (v : W32) (s : State) : Result :=
  .next (s.tryWrite m pgFAULT 0x040 (reasonIf (v.getLsbD 1 && s.on pgFAULT FAULT_STATUS_FATAL) .state) fun s =>
    let s1 := if v.getLsbD 1 then s.firstClear else s
    s1.storeReg pgFAULT 0x040 v)

/-- FAULT_LOG_CAPTURE (R677): a write of FAULT_LOG_INDEX captures a whole record. -/
def execFaultLogCapture (m : Nat) (v : W32) (s : State) : Result :=
  .next (s.tryWrite m pgFAULT 0x078 [] fun s =>
    let k := bits v.toNat 11 0
    let r := SMap.get [] s.fault.log k
    (List.range 16).foldl (fun s i => s.put pgFAULT (FAULT_LOG_DATA.at i) (fieldLE r (4 * i) 4))
      (s.put pgFAULT FAULT_LOG_INDEX_POSITION k))

end Sys2Proof.Machine
end

