-- ==== Sys2Proof/Machine/Power.lean ====
section
/-!
DEFINITION. The Power Controller: requests, entry, wakes, device Hold, the alarm and the clocks (spec/17, R837 to R867).
-/
namespace Sys2Proof.Machine

/-! ## Domains (R842, R843) -/

/-- The register page of a domain's unit. -/
def domPage (d : Nat) : Nat :=
  if d = 0 then pgCOLOPHON else if d = 1 then pgCOMPOSITOR else if d = 2 then pgSTONE else if d = 3 then pgNOC
  else if d ≤ 11 then pgWEB (d - 4) else if d ≤ 15 then pgREEL (d - 12) else if d ≤ 31 then pgFEED (d - 16)
  else if d = 32 then pgHOST else if d ≤ 34 then pgLOGPORT (d - 33) else if d = 35 then pgFRISKET else pgGALLEY (d - 36)

/-- A domain's unit is in service. -/
def State.domUp (s : State) (d : Nat) : Bool := s.domState d != 4 && s.on (domPage d) PAGE_STATUS_IN_SERVICE

/-- The code POWER_SLEEP_STATUS.STATE shows: 5 entering, 6 waking, else the state. -/
def State.domCode (s : State) (d : Nat) : Nat :=
  let x := s.domain d
  if x.entering.isSome then 5 else if x.waking.isSome then 6 else s.domState d

/-- A field of POWER_SLEEP_STATUS of a domain set. -/
def State.putDom (s : State) (d : Nat) (f : Fld) (v : Nat) : State := s.put pgPOWER f v (d + 1)

/-- A domain's state set. -/
def State.setDomState (s : State) (d st : Nat) : State := s.putDom d POWER_SLEEP_STATUS_STATE st

/-- A wake source recorded; 16 stands for none of R854. -/
def State.putWakeSrc (s : State) (d src : Nat) : State :=
  if src = 16 then s else s.putDom d POWER_SLEEP_STATUS_WAKE_SRC src

/-! ## Requests (R849, R851, R853) -/

/-- A valid flow with SLOTS > 0, in force or about to be, has an endpoint in the domain. -/
def State.holdsFlow (s : State) (d : Nat) : Bool :=
  let has := fun (p : Placement) => p.flows.any fun x =>
    x.2.valid && decide (0 < x.2.slots) && (epDomain x.2.src == some d || epDomain x.2.dst == some d)
  has s.noc.inForce || (match s.noc.next with | some p => has p | none => false)

/-- The standing program that runs needs the domain (cause 5). -/
def State.programNeeds (s : State) (d : Nat) : Bool :=
  s.running && (d == 1 || d == 2 || d == 3 || (decide (12 ≤ d) && decide (d ≤ 15) && s.domUp d) ||
    (decide (36 ≤ d) && decide (d ≤ 51) && s.domUp d) || (decide (4 ≤ d) && decide (d ≤ 11) && bit s.sp.webMask (d - 4)))

/-- Work is pending in the domain (cause 6, R395). -/
def State.workPending (s : State) (d : Nat) : Bool :=
  if 4 ≤ d ∧ d ≤ 11 then
    let w := SMap.get WebSt.reset s.webs (d - 4)
    !w.incoming.isEmpty || !w.standing.isEmpty || !w.job.isEmpty || !w.running.isEmpty
  else if d = 1 then s.seq.cur.isSome || !s.seq.queue.isEmpty || s.forme.io.isSome || !s.seq.platen.isEmpty
  else if 36 ≤ d ∧ d ≤ 51 then s.forme.io.isSome
  else if d = 33 ∨ d = 34 then s.on (pgLOGPORT (d - 33)) LOG_STATUS_RUN_OPEN
  else if d = 32 then decide (0 < s.jobsOutstanding)
  else false

/-- A unit is in flight in the network. -/
def State.inFlight (s : State) : Bool := s.noc.buffers.any (!·.2.isEmpty) || s.noc.link.any (!·.2.isEmpty)

/-- The domains of endpoints that must sleep before the network does: R861 lets the Colophon be the last. -/
def endpointDomains : List Nat := [1, 2] ++ (List.range 32).map (4 + ·)

/-- The network may not sleep (cause 7). -/
def State.endpointsAwake (s : State) : Bool :=
  s.inFlight || endpointDomains.any fun d => !(s.domState d == 4 || s.domCode d == 2 || s.domCode d == 3)

/-- The first cause that refuses a request for `target` (R849); 0 none. `alone` leaves causes 7 and 8 out, and allows what
only device Hold allows, as R859 has it. -/
def State.powerCause (s : State) (d target : Nat) (alone : Bool) : Nat :=
  let x := s.domain d
  if 52 ≤ d ∨ target = 1 ∨ (alone = false ∧ (d = 0 ∨ d = 35)) then 1
  else if s.domUp d = false then 2
  else if x.entering.isSome ∨ x.waking.isSome then 3
  else if s.holdsFlow d then 4
  else if s.programNeeds d then 5
  else if s.workPending d then 6
  else if alone then 0
  else if d = 3 ∧ s.endpointsAwake = true then 7
  else if d = 32 ∧ target = 3 ∧ s.on pgHOST HOST_LINK_LINK_UP = true ∧ s.on pgHOST HOST_LINK_L1 = false then 8
  else 0

/-- A refused request (R849): OUTCOME and REASON of the domain, the counter, the event, and IGNORED_CAUSE. -/
def State.powerRefuse (s : State) (d off cause : Nat) : State :=
  let s1 := if d < 52 then (s.putDom d POWER_SLEEP_STATUS_OUTCOME 2).putDom d POWER_SLEEP_STATUS_REASON cause else s
  ((s1.count pgPOWER POWER_REFUSED).event pgPOWER 1).ignored pgPOWER off .powerRefused

/-- A wake in the request cycle abandons the entry (R851). -/
def State.powerAbandon (s : State) (d src : Nat) : State :=
  let s1 := (s.putDom d POWER_SLEEP_STATUS_OUTCOME 3).putWakeSrc d src
  (s1.count pgPOWER POWER_ABANDONED).event pgPOWER 2

/-- Entry starts: through every step from Run or Idle, by step 4 alone from Nap; from Hold to Nap the domain wakes to Nap
(R850, R853). -/
def State.powerEnter (s : State) (d target : Nat) : State :=
  let st := s.domState d
  if st = target then s
  else if st = 3 then s.setDomain d { s.domain d with waking := some (16, 2), wakeAt := s.mono }
  else s.setDomain d { s.domain d with entering := some (target, if st = 2 then 4 else 1), stopWake := none }

/-- Only masters 1 and 13 write POWER_REQ and its like (R863). -/
def powerMaster (m : Nat) : List Reason := reasonIf (m != 1 && m != 13) .wrongMaster

/-- A write of POWER_REQ; `wake` is the source of a wake for the domain in the same Ac cycle. -/
def State.powerReq (s : State) (m target : Nat) (wake : Option Nat) : State :=
  let d := s.get pgPOWER POWER_SEL_DOMAIN
  s.tryWrite m pgPOWER 0x044 (powerMaster m) fun s =>
    if target = 0 then
      (if 52 ≤ d then s.powerRefuse d 0x044 1 else if s.domUp d = false then s.powerRefuse d 0x044 2 else s.wake d 7)
    else
      let c := s.powerCause d target false
      if c ≠ 0 then s.powerRefuse d 0x044 c
      else match wake with
        | some src => s.powerAbandon d src
        | none => s.powerEnter d target

/-- POWER_RUN_REQUEST: a write of POWER_REQ with STATE Run, wake source 7 (R854). -/
def execPowerRunRequest (m t : Nat) (s : State) : Result := .next ((s.advance t).powerReq m 0 none)

/-- POWER_NAP_REQUEST: a write of POWER_REQ with STATE Nap (R849 to R853). -/
def execPowerNapRequest (m : Nat) (wake : Option Nat) (t : Nat) (s : State) : Result := .next ((s.advance t).powerReq m 2 wake)

/-- POWER_HOLD_REQUEST: a write of POWER_REQ with STATE Hold (R849 to R853). -/
def execPowerHoldRequest (m : Nat) (wake : Option Nat) (t : Nat) (s : State) : Result := .next ((s.advance t).powerReq m 3 wake)

/-! ## What Hold loses (R844) -/

/-- A sort of a galley row in Hold: case memory with its check bits is kept. -/
def SortSt.held (m : SortSt) : SortSt := { SortSt.reset with mem := m.mem, bad := m.bad, weak := m.weak }

/-- A domain in Hold loses what R844 does not keep. -/
def State.holdLoses (s : State) (d : Nat) : State :=
  if d = 0 then s.onColo fun c => { c with
    sram := [], journal := { c.journal with buffer := c.journal.buffer.map fun x => (x.1, x.2.1, x.2.2.take 104) } }
  else if d = 1 then
    let s1 := (s.onSeq fun q => { SeqSt.reset with stopped := q.stopped }).onCStore fun c => { c with staging := none }
    [0, 1, 2].foldl (fun s k => s.setCore k CoreSt.reset) s1
  else if d = 2 then
    (s.onMem fun m => { m with lastGrant := [], scrubRead := [], scrubStart := s.mono }).put pgSTONE STONE_SCRUB_STATUS_POS 0
  else if d = 3 then
    s.onNoc fun n => { n with buffers := [], route := [], dropping := [], credits := [], back := [], link := [], crcRun := [],
                              lastServed := [], held := [], leaving := [], arriving := [] }
  else if d ≤ 11 then s.onWeb (d - 4) fun _ => WebSt.reset
  else if d ≤ 15 then s.put (pgREEL (d - 12)) REEL_STATUS_SELF_REFRESH 1
  else if d ≤ 31 then
    ((s.giveUpLink (d - 16)).resetKeys (d - 16)).stalePort (d - 16)
  else if d = 35 then s.fabricRun.onFrisket fun f => { f.lose with gr0 := true, wakeScrub := true }
  else if 36 ≤ d then
    s.onForme fun f => { f with sorts := SMap.mapVals SortSt.reset (fun k m => if k / 65536 = d - 36 then m.held else m) f.sorts }
  else s

/-! ## Entry and device Hold (R850, R852, R859 to R862) -/

/-- The groups of R861, in order. -/
def holdGroups : List (List Nat) :=
  [(List.range 16).map (36 + ·) ++ (List.range 8).map (4 + ·) ++ [1],
   [33, 34] ++ (List.range 16).map (16 + ·) ++ [32, 35],
   [2, 12, 13, 14, 15], [3], [0]]

/-- A domain in device Hold, or with nothing to put there. -/
def State.held (s : State) (d : Nat) : Bool := s.domState d == 4 || (s.domState d == 3 && (s.domain d).entering.isNone)

/-- The domain may start its entry to device Hold now: the host endpoint waits for L1. -/
def State.mayHold (s : State) (d : Nat) : Bool :=
  d != 32 || s.on pgHOST HOST_LINK_L1 || !s.on pgHOST HOST_LINK_LINK_UP

/-- Device Hold goes on: the first group not yet in Hold enters it; with every group there, device Hold is reached. -/
def State.holdNext (s : State) : State :=
  if s.power.phase = 2 then
    match holdGroups.find? fun g => !g.all s.held with
    | some g => g.foldl (fun s d =>
        if !s.held d && (s.domain d).entering.isNone && (s.domain d).waking.isNone && s.mayHold d then s.powerEnter d 3 else s) s
    | none => (s.onPower fun p => { p with phase := 3 }).put pgPOWER POWER_DEVICE_STATUS_STATE 2
  else s

/-- A wake ends device Hold, under way or reached (R862). -/
def State.holdEnds (s : State) : State :=
  if s.power.phase = 2 ∨ s.power.phase = 3 then
    (s.onPower fun p => { p with phase := 0 }).put pgPOWER POWER_DEVICE_STATUS_STATE 0
  else s

/-- POWER_ENTRY_STEP (R850, R852): the step in progress ends at an Ac boundary; a wake that came meanwhile stops the entry
there. -/
def execPowerEntryStep (d t : Nat) (s : State) : Result :=
  let s := s.advance t
  let x := s.domain d
  match x.entering with
  | none => .next s
  | some (target, step) =>
    let reached := if step ≤ 1 then 0 else step - 1
    let s1 := (s.setDomState d reached)
    let s2 := if step = 4 then s1.holdLoses d else s1
    match x.stopWake with
    | some src =>
      let s3 := (s2.putDom d POWER_SLEEP_STATUS_OUTCOME 4).putWakeSrc d src
      .next (s3.setDomain d { entering := none, stopWake := none, waking := some (src, 0), wakeAt := s.mono }).holdEnds
    | none =>
      if step = target + 1 then
        let s3 := (s2.setDomain d DomainSt.reset).putDom d POWER_SLEEP_STATUS_OUTCOME 1
        .next (s3.event pgPOWER 0).holdNext
      else .next (s2.setDomain d { x with entering := some (target, step + 1) })

/-- The domain is awake: what waited for it goes on (R605, R633, R834). -/
def State.domAwake (s : State) (d : Nat) : State :=
  let s1 := if d = 3 then s.releaseRaises
    else if 12 ≤ d ∧ d ≤ 15 then s.put (pgREEL (d - 12)) REEL_STATUS_SELF_REFRESH 0 else s
  let s2 := if d ≠ 35 ∧ s1.domState 0 = 3 then (s1.setDomState 0 0).setDomain 0 DomainSt.reset else s1
  s2.ejectHeld

/-- The wake time of a state in ns; 20 for the Drained state and for Idle (R843, R852). -/
def wakeNs (st : Nat) : Nat := if st = 2 then 40000 else if st = 3 then 350000 else 20

/-- DOMAIN_WAKE_COMPLETE (R843, R852, R853, R855): the wake time of the state the domain wakes from has passed and READY
rises, once the network is in Run; Frisket waits for the Colophon; an Idle domain returns to Run. -/
def execDomainWakeComplete (d t : Nat) (s : State) : Result :=
  let s := s.advance t
  let x := s.domain d
  match x.waking with
  | none => if s.domState d = 1 ∧ x.entering = none then .next (s.setDomState d 0) else .next s
  | some (src, target) =>
    if s.mono < x.wakeAt + wakeNs (s.domState d) ∨ (d ≠ 3 ∧ s.asleep 3 = true) ∨ (d = 35 ∧ s.domState 0 ≠ 0) then .next s
    else
      let slept := decide (2 ≤ s.domState d)
      let s1 := ((s.setDomState d target).setDomain d { x with waking := none }).putWakeSrc d src
      let s2 := (if slept then s1.count pgPOWER POWER_WAKES else s1).event pgPOWER 0
      if target = 0 then .next (s2.domAwake d).holdEnds else .next s2

/-- IDLE_ENTRY (R847): an AUTO domain that has been quiet for `quiet` Nc cycles, IDLE_DELAY_NC at least, enters Idle. -/
def execIdleEntry (d quiet : Nat) (s : State) : Result :=
  let x := s.domain d
  if d < 52 ∧ d ≠ 0 ∧ d ≠ 35 ∧ s.domUp d = true ∧ s.domState d = 0 ∧ x.entering = none ∧ x.waking = none ∧
      s.on pgPOWER POWER_IDLE_CFG_AUTO (d + 1) = true ∧ s.workPending d = false ∧
      s.get pgPOWER POWER_IDLE_CFG_IDLE_DELAY_NC (d + 1) ≤ quiet then
    .next (s.setDomState d 1)
  else .next s

/-- The domain that refuses device Hold, with its first cause (R859). -/
def State.holdAllCause (s : State) : Option (Nat × Nat) :=
  ((List.range 52).filter fun d => d != 0 && d != 35).findSome? fun d =>
    let c := s.powerCause d 3 true
    if c = 0 then none else some (d, c)

/-- HOLD_ALL of a write of POWER_CTRL (R859, R860). -/
def State.holdAll (s : State) : State :=
  match s.holdAllCause with
  | some (d, c) => s.powerRefuse d 0x050 c
  | none =>
    if s.on pgDRIVE DRIVE_CTRL_ENABLE && s.get pgDRIVE DRIVE_FADE_STATUS_STATE != 2 then
      s.powerRefuse (s.get pgPOWER POWER_SEL_DOMAIN) 0x050 6
    else if s.power.phase ≠ 0 then s
    else ((s.onPower fun p => { p with phase := 1, since := s.mono }).put pgPOWER POWER_DEVICE_STATUS_STATE 1).event pgPOWER 3

/-- WAKE_ALL of a write of POWER_CTRL: every domain in Nap or Hold, and every one on its way (R854). -/
def State.wakeAll (s : State) : State :=
  (List.range 52).foldl (fun s d =>
    if decide (2 ≤ s.domState d ∧ s.domState d ≤ 3) || (s.domain d).entering.isSome then s.wakeOne d 8 else s) s

/-- COLO_READY of a write of POWER_CTRL (R860, R861). Firmware writes it only when no journal entry is buffered of a type it
does not write in Hold (R760). -/
def State.coloReady (s : State) : State :=
  if s.power.phase = 1 ∧ s.colo.journal.buffer.all (fun x => [1, 2, 8].contains x.1) then
    (s.onPower fun p => { p with phase := 2, since := s.mono }).holdNext
  else s

/-- A write of POWER_CTRL (R860, R863): bits 0 HOLD_ALL, 1 WAKE_ALL, 2 COLO_READY, which the Colophon alone may write. -/
def State.powerCtrl (s : State) (m v : Nat) : State :=
  s.tryWrite m pgPOWER 0x050 (powerMaster m ++ reasonIf (bit v 2 && m != 1) .wrongMaster) fun s =>
    let s1 := if bit v 1 then s.wakeAll else s
    let s2 := if bit v 0 then s1.holdAll else s1
    if bit v 2 then s2.coloReady else s2

/-- HOLD_ALL: a write of POWER_CTRL with HOLD_ALL (R859). -/
def execHoldAll (m : Nat) (v : W32) (t : Nat) (s : State) : Result := .next ((s.advance t).powerCtrl m (v ||| 1#32).toNat)

/-- COLO_READY: a write of POWER_CTRL with COLO_READY (R860, R861). -/
def execColoReady (m : Nat) (v : W32) (t : Nat) (s : State) : Result := .next ((s.advance t).powerCtrl m (v ||| 4#32).toNat)

/-- WAKE_ALL: a write of POWER_CTRL with WAKE_ALL (R854). -/
def execWakeAll (m : Nat) (v : W32) (t : Nat) (s : State) : Result := .next ((s.advance t).powerCtrl m (v ||| 2#32).toNat)

/-- COLO_READY_TIMEOUT (R860): 10 ms pass without COLO_READY and device Hold is abandoned; OUTCOME and WAKE_SRC of every
domain show it. -/
def execColoReadyTimeout (t : Nat) (s : State) : Result :=
  let s := s.advance t
  if s.power.phase = 1 ∧ s.power.since + 10000000 ≤ s.mono then
    let s1 := (List.range 52).foldl (fun s d => (s.putDom d POWER_SLEEP_STATUS_OUTCOME 3).putWakeSrc d 15) s
    let s2 := (s1.onPower fun p => { p with phase := 0 }).put pgPOWER POWER_DEVICE_STATUS_STATE 0
    .next ((s2.count pgPOWER POWER_ABANDONED).event pgPOWER 2)
  else .next s

/-- HOLD_L1_TIMEOUT (R861): the host link is not in L1 100 ms after COLO_READY: every domain already in Hold returns to Run, in
the reverse order, and the host endpoint's status shows LINK_ACTIVE. -/
def execHoldL1Timeout (t : Nat) (s : State) : Result :=
  let s := s.advance t
  if s.power.phase = 2 ∧ s.power.since + 100000000 ≤ s.mono ∧ s.mayHold 32 = false then
    let back := (holdGroups.flatten).reverse
    let s1 := back.foldl (fun s d =>
      if decide (2 ≤ s.domState d ∧ s.domState d ≤ 3) || (s.domain d).entering.isSome then s.wakeOne d 16 else s) s
    let s2 := (s1.onPower fun p => { p with phase := 0 }).put pgPOWER POWER_DEVICE_STATUS_STATE 0
    let s3 := (s2.putDom 32 POWER_SLEEP_STATUS_OUTCOME 2).putDom 32 POWER_SLEEP_STATUS_REASON 8
    .next ((s3.count pgPOWER POWER_REFUSED).event pgPOWER 1)
  else .next s

/-! ## Wakes from outside (R854) -/

/-- WAKE_N_ASSERT: WAKE_N has been low for two Ac cycles, wake source 0. -/
def execWakeNAssert (t : Nat) (s : State) : Result := .next ((s.advance t).wakeMap 0)

/-- POWER_ALARM_FIRE: device time reaches POWER_ALARM while ARMED, wake source 2; ARMED clears. -/
def execPowerAlarmFire (t : Nat) (s : State) : Result :=
  let s := s.advance t
  if s.on pgPOWER POWER_ALARM_CFG_ARMED && decide (s.pair pgPOWER POWER_ALARM_LO POWER_ALARM_HI ≤ s.dev) then
    .next (((s.put pgPOWER POWER_ALARM_CFG_ARMED 0).wakeMap 2).event pgPOWER 5)
  else .next s

/-- SIGNAL_DETECT: a signal on the lane of a port in Hold, wake source 4 (R858). -/
def execSignalDetect (p t : Nat) (s : State) : Result :=
  let s := s.advance t
  if s.domState (16 + p % 16) = 3 then .next ((s.wake (16 + p % 16) 4).wakeMap 4) else .next s

/-- HOST_LINK_L1_ENTRY: the host link is in L1, which lets device Hold go on (R861). -/
def execHostLinkL1Entry (t : Nat) (s : State) : Result :=
  let s := s.advance t
  if s.on pgHOST HOST_LINK_LINK_UP then .next (s.put pgHOST HOST_LINK_L1 1).holdNext else .next s

/-- HOST_LINK_L1_EXIT: the host link leaves L1, wake source 3. -/
def execHostLinkL1Exit (t : Nat) (s : State) : Result :=
  let s := s.advance t
  if s.on pgHOST HOST_LINK_L1 then .next (((s.put pgHOST HOST_LINK_L1 0).wake 32 3).wakeMap 3) else .next s

/-! ## Clocks (R840, R841, R866, R867) -/

/-- A bit of CLOCK_PLL_STATUS set. -/
def State.putLocked1 (s : State) (k : Nat) (b : Bool) : State :=
  s.put pgCLOCK CLOCK_PLL_STATUS_LOCKED (setBit (s.get pgCLOCK CLOCK_PLL_STATUS_LOCKED) k b)

/-- PLL_LOCK_LOSS: the PLL that sensor `k` watches loses lock: its domain's clock stops; counted, LOCK_LOSS, SENSOR_LIMIT
from source 0x005 (R840). -/
def execPllLockLoss (k : Nat) (s : State) : Result :=
  if 67 ≤ k ∧ k ≤ 75 ∧ bit (s.get pgCLOCK CLOCK_PLL_STATUS_LOCKED) (k - 64) = true then
    let s := (s.putLocked1 (k - 64) false).onClock fun p => { p with unlocked := k :: p.unlocked }
    .next (((s.count pgCLOCK CLOCK_LOCK_LOSSES).event pgCLOCK 0).report pgCOLOPHON 0x005 37 0 k)
  else .next s

/-- A reference clock is there or absent; REFCLK_SYS carries Ac (R841). -/
def State.setRef (s : State) (k : Nat) (present : Bool) : State :=
  let s1 := s.putLocked1 k present
  if k = 0 then s1.onClock fun p => { p with refLost := !present } else s1

/-- REF_CLOCK_LOSS: reference clock k (0 REFCLK_SYS, 1 REFCLK_ETH, 2 REFCLK_PCIE) is found absent (R841, R867). -/
def execRefClockLoss (k : Nat) (s : State) : Result :=
  if k < 3 ∧ bit (s.get pgCLOCK CLOCK_PLL_STATUS_LOCKED) k = true then .next ((s.setRef k false).event pgCLOCK 1) else .next s

/-- REFERENCE_CLOCK_RETURN: the reference is present again. -/
def execReferenceClockReturn (k : Nat) (s : State) : Result :=
  if k < 3 then .next (s.setRef k true) else .next s

end Sys2Proof.Machine
end

