-- ==== Sys2Proof/Machine/Ptp.lean ====
section
/-!
DEFINITION. The commands of the PTP page: stamps, adjustment, PPS and the device second (spec/02, R125 to R136, R924).
Device time is one count of ns; PTP_TIME_SEC and PTP_TIME_NS are its quotient and remainder by 10^9.
-/
namespace Sys2Proof.Machine

/-- Nanoseconds in a second. -/
def nsPerS : Nat := 1000000000

/-- PTP_CTRL written (R132, R133): from the moment ROLE becomes 3, no edge has set the time and no write of PTP_TOD_NEXT has
been made. -/
def State.roleWritten (s : State) (was : Nat) : State :=
  if s.get pgPTP PTP_CTRL_ROLE = 3 ∧ was ≠ 3 then { s with ptp := { s.ptp with ppsSeen := false, todWritten := false } } else s

/-- The messageType of a PTP message: the low bits of its first byte (R19; IEEE 1588, notes/assumptions/50.md). -/
def ptpType (b : List Byte) : Nat := fieldLE b 0 1 % 16

/-- An event message, which is stamped: Sync, Delay_Req, Pdelay_Req, Pdelay_Resp (R86, R129). -/
def ptpEvent (b : List Byte) : Bool := decide (ptpType b < 4)

/-- The domainNumber of a PTP message, its fifth byte. -/
def ptpDomain (b : List Byte) : Nat := fieldLE b 4 1

/-- A message given the device's domain number (R125). -/
def withDomain (b : List Byte) (d : Nat) : List Byte := b.take 4 ++ bytesLE 1 d ++ b.drop 5

/-- A message of the peer-delay mechanism: Pdelay_Req, Pdelay_Resp, Pdelay_Resp_Follow_Up. -/
def ptpPeer (b : List Byte) : Bool := [2, 3, 10].contains (ptpType b)

/-- A message of the end-to-end mechanism: Delay_Req, Delay_Resp. -/
def ptpEndToEnd (b : List Byte) : Bool := [1, 9].contains (ptpType b)

/-- Ten bytes of a timestamp: 48 bits of seconds, 32 of nanoseconds, most significant byte first (R19). -/
def ptpStamp (dev : Nat) : List Byte := bytesBE 6 (dev / nsPerS) ++ bytesBE 4 (dev % nsPerS)

/-- A message with the departure time in its timestamp field, after the 34 bytes of the common header (R130). -/
def withStamp (b : List Byte) (dev : Nat) : List Byte := slice b 0 34 ++ ptpStamp dev ++ b.drop 44

/-- What firmware's servo makes of a sync whose offset it measured: a master is selected, so HOLDOVER ends; the port is
slave; 16 intervals in a row within ±50 ns make the clock LOCKED (R134, R135). -/
def State.servo (s : State) (p : Nat) (offset : Int) : State :=
  let good := if offset.natAbs ≤ 50 then min (s.ptp.good + 1) 16 else 0
  let s1 := ((s.put pgPTP PTP_STATUS_HOLDOVER 0).put pgPTP PTP_STATUS_SLAVE_PORT p).put pgPTP PTP_STATUS_LOCKED (b2n (good == 16))
  { s1 with ptp := { s1.ptp with good := good } }

/-- PTP_FRAME_RECEIVE (R124, R129, R134, R135): a PTP frame is taken by firmware unless it is unprotected on a port whose
PTP_UNCONTROLLED is 0; an event message is stamped with device time. `sync` is the offset in ns that the servo of an
ordinary or boundary clock measures where the best master clock algorithm takes the message, of the device's domain, as a
sync of the master it selects: which messages those are the specification leaves to firmware (notes/assumptions/51.md). -/
def execPtpFrameReceive (p : Nat) (f : EthFrame) (sync : Option Int) (t : Nat) (s : State) : Result :=
  let s := (s.advance t).takePassed p f
  if f.sec.isNone ∧ s.on (pgFEED p) FEED_CTRL_PTP_UNCONTROLLED = false then .next (s.count (pgFEED p) FEED_RX_UNSECURED)
  else
    let s1 := if ptpEvent f.body then s.setPort p { s.port p with rxStamp := s.dev } else s
    match sync with
    | some off =>
      if (s.get pgPTP PTP_CTRL_ROLE = 1 ∨ s.get pgPTP PTP_CTRL_ROLE = 2) ∧ ptpDomain f.body = s.get pgPTP PTP_CTRL_DOMAIN then
        .next (s1.servo p off) else .next s1
    | none => .next s1

/-- PTP_MESSAGE_SEND (R79, R86, R124, R129, R130): an event message is stamped for a follow-up in two-step mode, and in one-
step mode carries its departure time ahead of MACsec protection. A message of the delay mechanism that PTP_PDELAY does not
choose is not sent; peer-delay messages go to the address of their own. A message carries PTP_CTRL.DOMAIN. The frame uses
the uncontrolled port only where PTP_UNCONTROLLED = 1. -/
def execPtpMessageSend (p : Nat) (body : List Byte) (t : Nat) (s : State) : Result :=
  let s := s.advance t
  let unc := s.on (pgFEED p) FEED_CTRL_PTP_UNCONTROLLED
  let other := if s.on (pgFEED p) FEED_CTRL_PTP_PDELAY then ptpEndToEnd body else ptpPeer body
  if other ∨ (unc = false ∧ s.on (pgFEED p) FEED_STATUS_SECURED = false) then .next s
  else
    let own := withDomain body (s.get pgPTP PTP_CTRL_DOMAIN)
    let b := if ptpEvent body && s.on (pgFEED p) FEED_CTRL_PTP_ONE_STEP then withStamp own s.dev else own
    let s1 := if ptpEvent body then s.setPort p { s.port p with txStamp := s.dev } else s
    .next (s1.sendFrame p (!unc) (if ptpPeer body then macLldp else macPtp) [] etPtp b)

/-- PTP_ADJ_FREQ_WRITE (R127): the signed offset in 2^-10 ppb is set, or the write is ignored above 1,000 ppm. -/
def execPtpAdjFreqWrite (m : Nat) (v : W32) (t : Nat) (s : State) : Result :=
  let s := s.advance t
  .next (s.tryWrite m pgPTP 0x050 (reasonIf (decide (1024000000 < (signed 32 v.toNat).natAbs)) .outOfRange) fun s =>
    s.put pgPTP PTP_ADJ_FREQ v.toNat)

/-- PTP_ADJ_STEP (R128): the signed ns offset is added to device time, seconds carrying or borrowing; a magnitude above
999,999,999 is ignored. Device time does not go below zero (notes/assumptions/9.md). -/
def execPtpAdjStep (m : Nat) (v : W32) (t : Nat) (s : State) : Result :=
  let s := s.advance t
  .next (s.tryWrite m pgPTP 0x054 (reasonIf (decide (999999999 < (signed 32 v.toNat).natAbs)) .outOfRange) fun s =>
    { s.put pgPTP PTP_STATUS_TIME_SET 1 with dev := ((s.dev : Int) + signed 32 v.toNat).toNat })

/-- PTP_TIME_CAPTURE_READ (R126, R874): the read returns nanoseconds and captures the seconds count for the master's
reads of PTP_TIME_SEC_LO and PTP_TIME_SEC_HI. -/
def execPtpTimeCaptureRead (m : Nat) (t : Nat) (s : State) : Result :=
  let s := s.advance t
  if s.pageAllows m pgPTP 0x044 false = false then .next (s.refuseRegion m (regBase + pgPTP * 0x1000 + 0x044) false)
  else
    let s := s.probe pgPTP 1 m
    let sec := s.dev / nsPerS
    let cap := fun off (v : Nat) (c : SMap (Option W32)) =>
      SMap.set none c (rkey pgPTP off 0 * 32 + m) (some (BitVec.ofNat 32 v))
    .next { s with
      caps := cap 0x04C (sec / 2 ^ 32 % 2 ^ 16) (cap 0x048 (sec % 2 ^ 32) s.caps)
      out := s.out ++ [.readData m (s.dev % nsPerS)] }

/-- The distance of a device time from the nearest whole second. -/
def fromSecond (d : Nat) : Nat := min (d % nsPerS) (nsPerS - d % nsPerS)

/-- PPS_FAULT changes from 0 to 1: the page event of R924, once. -/
def State.ppsFault (s : State) : State :=
  if s.on pgPTP PTP_STATUS_PPS_FAULT then s else (s.put pgPTP PTP_STATUS_PPS_FAULT 1).event pgPTP 0

/-- PPS_IN_EDGE (R132, R133): as grandmaster the edge zeroes nanoseconds and loads PTP_TOD_NEXT where it was written since
the previous edge, else the whole second nearest; an edge after the first that is more than 1 µs off its second sets
PPS_FAULT, a good edge clears it. -/
def execPpsInEdge (t : Nat) (s : State) : Result :=
  let s := s.advance t
  if s.get pgPTP PTP_CTRL_ROLE = 3 then
    let s1 := if s.ptp.ppsSeen && decide (1000 < fromSecond s.dev) then s.ppsFault
      else s.put pgPTP PTP_STATUS_PPS_FAULT 0
    let sec := if s.ptp.todWritten then s.pair pgPTP PTP_TOD_NEXT_SEC_LO PTP_TOD_NEXT_SEC_HI
      else (s.dev + nsPerS / 2) / nsPerS
    .next { s1.put pgPTP PTP_STATUS_TIME_SET 1 with
      dev := sec * nsPerS, ptp := { s1.ptp with ppsSeen := true, todWritten := false }, clock := { s1.clock with frac := 0 } }
  else .next s

/-- PPS_TIMEOUT (R133): as grandmaster, 1.1 s without an edge set PPS_FAULT. -/
def execPpsTimeout (t : Nat) (s : State) : Result :=
  let s := s.advance t
  if s.get pgPTP PTP_CTRL_ROLE = 3 then .next s.ppsFault else .next s

/-- PTP_MASTER_LOST (R134): an ordinary or boundary clock holds its frequency and sets HOLDOVER; it is locked to no
master. -/
def execPtpMasterLost (t : Nat) (s : State) : Result :=
  let s := s.advance t
  if s.get pgPTP PTP_CTRL_ROLE = 1 ∨ s.get pgPTP PTP_CTRL_ROLE = 2 then
    let s1 := (s.put pgPTP PTP_STATUS_HOLDOVER 1).put pgPTP PTP_STATUS_LOCKED 0
    .next { s1 with ptp := { s1.ptp with good := 0 } }
  else .next s

/-- DEVICE_SECOND (R125, R621): source 449 is raised, and PPS_OUT pulses when PPS_OUT_EN = 1. -/
def execDeviceSecond (t : Nat) (s : State) : Result :=
  let s := (s.advance t).raisePacket 449
  if s.on pgPTP PTP_CTRL_PPS_OUT_EN then .next (s.emit .ppsOut) else .next s

end Sys2Proof.Machine
end

