-- ==== Sys2Proof/Machine/Reads.lean ====
section
/-!
DEFINITION. A register read: the window an index register opens, fields that show the state of their block, captures of
_HI and the clearing of RC counters (spec/00, R27 to R31; spec/18, R869 to R875; the chapters' register tables).
-/
namespace Sys2Proof.Machine

/-! ## Windows -/

/-- The entry of the register file behind an offset: entry k of a register shown through an index register is k + 1. -/
def State.window (s : State) (p off : Nat) : Nat :=
  match pageBlock p with
  | some (.drive, _) => if 0x084 ≤ off ∧ off ≤ 0x090 then s.get p DRIVE_GRP_INDEX_INDEX + 1 else 0
  | some (.cstore, _) =>
    if off = 0x048 then s.get p CSTORE_DISPATCH_INDEX_INDEX + 1
    else if off = 0x050 then s.get p CSTORE_MATCH_INDEX_INDEX + 1 else 0
  | some (.stone, _) => if off = 0x09C ∨ off = 0x0A0 then s.get p STONE_LEDGER_INDEX_INDEX + 1 else 0
  | some (.noc, _) => if 0x048 ≤ off ∧ off ≤ 0x050 then s.get p NOC_FLOW_INDEX_INDEX + 1 else 0
  | some (.fault, _) => if off = 0x06C then s.get p FAULT_SRC_INDEX_INDEX + 1 else 0
  | some (.power, _) =>
    if 0x044 ≤ off ∧ off ≤ 0x04C then s.get p POWER_SEL_DOMAIN + 1
    else if off = 0x068 ∨ off = 0x06C then s.get p POWER_WAKE_SEL_SOURCE + 1 else 0
  | some (.router, _) => if 0x068 ≤ off ∧ off ≤ 0x070 then s.get p ROUTER_TRACE_CTRL_INDEX + 1 else 0
  | _ => 0

/-! ## Fields that show the state of their block -/

/-- FORME_STATUS and GALLEY registers (R282, R284, R288). -/
def State.liveForme (s : State) (off : Nat) : List (Fld × Nat) :=
  if off = 0x044 then
    [(FORME_STATUS_IO_BUSY, b2n s.forme.io.isSome), (FORME_STATUS_MIGRATING, b2n s.migrating), (FORME_STATUS_E_ANY, b2n s.eAny)]
  else []

def State.liveGalley (s : State) (r off : Nat) : List (Fld × Nat) :=
  if off = 0x088 then [(GALLEY_E_MAP_GALLEYS, s.eMap r)]
  else if off = 0x094 ∧ s.on pgFORME FORME_CTRL_DEBUG_EN = false then [(GALLEY_DBG_DATA, 0)]
  else []

/-- The microaddress of the current microword, 0 when idle (R412); of a ROM routine it is a free value (R369). -/
def State.uaddrNow (s : State) : Nat :=
  match s.seq.cur with
  | some c => if c.micro then c.uaddr else (Config.romUaddr (fmOp c.instr) s.out.length).toNat % 0x8000
  | none => 0

/-- COMP_SEQ_STATUS (R412). -/
def State.liveComp (s : State) (off : Nat) : List (Fld × Nat) :=
  if off = 0x04C then
    [(COMP_SEQ_STATUS_UADDR, s.uaddrNow),
     (COMP_SEQ_STATUS_DEPTH, s.seq.queue.length), (COMP_SEQ_STATUS_DISCARDING, b2n s.seq.discard),
     (COMP_SEQ_STATUS_BUSY, b2n s.seq.cur.isSome)]
  else []

/-- A dispatch entry of the ROM shows its microaddress; VALID where R313 to R340 assign the opcode (R369, R405, R415). -/
def State.liveCstore (s : State) (off : Nat) : List (Fld × Nat) :=
  let i := s.get pgCSTORE CSTORE_DISPATCH_INDEX_INDEX
  if off = 0x048 ∧ i < 768 then
    [(CSTORE_DISPATCH_ENTRY_VALID, b2n (fmUse i).isSome), (CSTORE_DISPATCH_ENTRY_UADDR, (Config.romEntry i).toNat % 0x8000)]
  else []

/-- WEB_STATUS and WEB_SP_PENDING (R516). -/
def State.liveWeb (s : State) (w off : Nat) : List (Fld × Nat) :=
  let x := s.web w
  if off = 0x044 then
    [(WEB_STATUS_FLUSHING, b2n (!x.flushing.isEmpty)), (WEB_STATUS_HAZARD_WAIT, b2n x.hazardWait),
     (WEB_STATUS_RUNNING, b2n (!x.running.isEmpty)), (WEB_STATUS_JOB_DEPTH, s.webDepth w 1),
     (WEB_STATUS_SP_DEPTH, s.webDepth w 0)]
  else if off = 0x064 then [(WEB_SP_PENDING_PENDING, (x.recs.filter (·.ref.src == 0)).length)]
  else []

/-- STONE_BANKS, the region in force, entry 0 of the ledger, its total and the indexed rate in force (R557, R565, R567). -/
def State.liveStone (s : State) (off : Nat) : List (Fld × Nat) :=
  let g := s.region s.selRegion.1 s.selRegion.2
  let i := s.get pgSTONE STONE_LEDGER_INDEX_INDEX
  if off = 0x060 then [(STONE_BANKS_IN_SERVICE, maskOf 32 fun b => s.bankOwner b != 31)]
  else if off = 0x088 then [(STONE_REGION_BASE_LO_BASE_LO, g.base / 256)]
  else if off = 0x08C then [(STONE_REGION_BASE_HI_BASE_HI, g.base / 2 ^ 32)]
  else if off = 0x090 then [(STONE_REGION_SIZE_SIZE, g.size)]
  else if off = 0x094 then
    [(STONE_REGION_RIGHTS_WHOLE, b2n g.whole), (STONE_REGION_RIGHTS_W, b2n g.w), (STONE_REGION_RIGHTS_R, b2n g.r)]
  else if off = 0x09C ∧ i = 0 then [(STONE_LEDGER_MASTER, 11)]
  else if off = 0x0A0 ∧ i = 0 then [(STONE_LEDGER_RATE, s.entry0Held)]
  else if off = 0x0AC then [(STONE_LEDGER_TOTAL, s.ledgerTotal)]
  else if off = 0x0B4 then
    [(STONE_LEDGER_INFORCE, if i = 0 then s.entry0Held else (SMap.get LedgerEntry.none s.mem.ledger i).rate)]
  else []

/-- The indexed flow in force and its first slot at output 0 (R618). -/
def State.liveNoc (s : State) (off : Nat) : List (Fld × Nat) :=
  let k := s.get pgNOC NOC_FLOW_INDEX_INDEX
  let f := SMap.get Flow.none s.noc.inForce.flows k
  if off = 0x04C then
    [(NOC_FLOW_INFORCE_SRC, f.src), (NOC_FLOW_INFORCE_DST, f.dst), (NOC_FLOW_INFORCE_VALID, b2n f.valid),
     (NOC_FLOW_INFORCE_SLOTS, f.slots)]
  else if off = 0x050 then [(NOC_FLOW_FIRST_FIRST, (SMap.get [] s.noc.inForce.placed k).foldl min 128 % 128)]
  else []

/-- What a processor is presented (R635, R651). -/
def State.liveEvt (s : State) (off : Nat) : List (Fld × Nat) :=
  if off = 0x0A8 ∨ off = 0x0C8 then
    let j := (off - 0x0A8) / 0x20
    let n := s.presented j false
    let f := s.presented j true
    [((EVT_PX_PRESENT_NORM_REQ.at j), b2n n.isSome), ((EVT_PX_PRESENT_NORM_LEVEL.at j), n.getD 0),
     ((EVT_PX_PRESENT_FAST_REQ.at j), b2n f.isSome), ((EVT_PX_PRESENT_FAST_LEVEL.at j), f.getD 0)]
  else []

/-- Bit s of EVT_SRC_NZ is 1 while CNT of source s is not zero (R624). -/
def State.liveEvtCnt (s : State) (off : Nat) : List (Fld × Nat) :=
  if 0x840 ≤ off ∧ off < 0x880 then
    let i := (off - 0x840) / 4
    [(EVT_SRC_NZ.at i, maskOf 32 fun k => s.get pgEVTCNT (EVT_SRC_CNT.at (32 * i + k)) != 0)]
  else []

/-- The floor of the indexed source (R695). -/
def State.liveFault (s : State) (off : Nat) : List (Fld × Nat) :=
  if off = 0x06C then [(FAULT_SRC_COUNT_FLOOR, sevFloor (s.get pgFAULT FAULT_SRC_INDEX_INDEX))] else []

/-- JOBS_STATUS, JOBS_CALL_STATUS and JOBS_RING_STATUS (R808, R810). -/
def State.liveJobs (s : State) (off : Nat) : List (Fld × Nat) :=
  if off = 0x044 then [(JOBS_STATUS_OUTSTANDING, s.jobsOutstanding)]
  else if off = 0x088 then [(JOBS_CALL_STATUS_QUEUED, s.jobs.calls.length)]
  else if 0x100 ≤ off ∧ off < 0x300 ∧ off % 32 = 28 then
    let n := (off - 0x100) / 32
    let r := s.ring n
    [(JOBS_RING_STATUS_NO_CQ_ROOM.at n, b2n (s.ringEnabled n && r.fetched != s.ringTail n &&
        decide (s.ringDepth n ≤ serialDist (s.ringHead n) r.fetched))),
     (JOBS_RING_STATUS_IDLE.at n, b2n (r.fetched == r.done)), (JOBS_RING_STATUS_OUTSTANDING.at n, serialDist r.done r.fetched)]
  else []

/-- The selected sensor (R723, R765). -/
def State.liveColo (s : State) (off : Nat) : List (Fld × Nat) :=
  let x := s.sensor (s.get pgCOLOPHON COLOPHON_SENSOR_INDEX_INDEX)
  if off = 0x04C then [(COLOPHON_SENSOR_VALUE, x.value.toNat)]
  else if off = 0x050 then [(COLOPHON_SENSOR_LOWER, x.lower.toNat)]
  else if off = 0x054 then [(COLOPHON_SENSOR_UPPER, x.upper.toNat)]
  else []

/-- The selected domain's state, the device's, and the domains asleep (R863); a wake from device Hold shows while a domain
wakes (R862). -/
def State.livePower (s : State) (off : Nat) : List (Fld × Nat) :=
  let asleep := maskOf 52 fun d => s.domCode d == 2 || s.domCode d == 3
  if off = 0x048 then [(POWER_SLEEP_STATUS_STATE, s.domCode (s.get pgPOWER POWER_SEL_DOMAIN))]
  else if off = 0x054 ∧ s.power.phase = 3 ∧ (List.range 52).any (fun d => (s.domain d).waking.isSome) then
    [(POWER_DEVICE_STATUS_STATE, 3)]
  else if off = 0x074 then [(POWER_ASLEEP_LO, asleep % 2 ^ 32)]
  else if off = 0x078 then [(POWER_ASLEEP_HI, asleep / 2 ^ 32)]
  else []

/-- A lock bit reads 0 while its domains are all stopped (R866). -/
def State.liveClock (s : State) (off : Nat) : List (Fld × Nat) :=
  if off = 0x040 then
    [(CLOCK_PLL_STATUS_LOCKED, maskOf 12 fun k => bit (s.get pgCLOCK CLOCK_PLL_STATUS_LOCKED) k && !s.clockStopped (64 + k))]
  else []

/-- Device time (R126). -/
def State.livePtp (s : State) (off : Nat) : List (Fld × Nat) :=
  let sec := s.dev / nsPerS
  if off = 0x044 then [(PTP_TIME_NS, s.dev % nsPerS)]
  else if off = 0x048 then [(PTP_TIME_SEC_LO, sec % 2 ^ 32)]
  else if off = 0x04C then [(PTP_TIME_SEC_HI, sec / 2 ^ 32)]
  else []

/-- FEED_STATUS.FEEDERS: entries BOUND to the port (R86). -/
def State.liveFeed (s : State) (p off : Nat) : List (Fld × Nat) :=
  if off = 0x044 then [(FEED_STATUS_FEEDERS, (s.feed.table.filter fun x => x.2.state == .bound && x.2.port == p).length)] else []

/-- The probe of a page counts Nc cycles: event 8 of a ROUTER page, 5 of another (R613, R880). -/
def State.countsNc (s : State) (p : Nat) : Bool :=
  match pageBlock p with
  | some (.router, _) => s.get p ROUTER_PROBE_SEL_EVENT == 8
  | some _ => s.get p PROBE_SEL_EVENT == 5
  | none => false

/-- The probe counter: what it holds, and the Nc cycles since it was started (index 1) where it counts those. -/
def State.probeCount (s : State) (p : Nat) : Nat :=
  let n := s.pair p PROBE_CNT_LO PROBE_CNT_HI
  if s.countsNc p then (n + s.ncNow + 2 ^ 48 - s.pair p PROBE_CNT_LO PROBE_CNT_HI 1) % 2 ^ 48 else n

/-- The fields at an offset whose value is the state of the block. -/
def State.live (s : State) (p off : Nat) : List (Fld × Nat) :=
  if off = 0x028 then [(PROBE_CNT_LO, s.probeCount p % 2 ^ 32)]
  else if off = 0x02C then [(PROBE_CNT_HI, s.probeCount p / 2 ^ 32)]
  else if off = 0x00C then [(PAGE_STATUS_QUOINED, b2n (s.quoined p))]
  else if off < 0x040 then []
  else match pageBlock p with
  | some (.forme, _) => s.liveForme off
  | some (.galley, r) => s.liveGalley r off
  | some (.compositor, _) => s.liveComp off
  | some (.cstore, _) => s.liveCstore off
  | some (.web, w) => s.liveWeb w off
  | some (.stone, _) => s.liveStone off
  | some (.noc, _) => s.liveNoc off
  | some (.evt, _) => s.liveEvt off
  | some (.evtCnt, _) => s.liveEvtCnt off
  | some (.fault, _) => s.liveFault off
  | some (.jobs, _) => s.liveJobs off
  | some (.colophon, _) => s.liveColo off
  | some (.power, _) => s.livePower off
  | some (.clock, _) => s.liveClock off
  | some (.ptp, _) => s.livePtp off
  | some (.feed, p) => s.liveFeed p off
  | some (.sheet, _) => if off = 0x068 then [(SHEET_EXCQ_STATUS_DEPTH, s.feed.excq.length)] else []
  | some (.logport, k) => if k = 1 ∧ off = 0x040 then [(LOG_CTRL_MIRROR, 0)] else []
  | _ => []

/-- A register as a read finds it: what it holds, the fields that show their block's state, and zero for WO fields (R27,
R53). -/
def State.readReg (s : State) (p off : Nat) : W32 :=
  let v := (s.reg p off (s.window p off)).toNat
  let v1 := (s.live p off).foldl (fun v x => setBits v x.1.hi x.1.lo x.2) v
  BitVec.ofNat 32 ((fieldsAt p off).foldl (fun v f => if f.acc = .wo then setBits v f.hi f.lo 0 else v) v1)

/-! ## The side effects of a read (R874) -/

/-- The offsets of a block's _LO registers; the matching _HI lies 4 bytes on. -/
def loOffsets (b : Block) : List Nat :=
  0x028 :: match b with
  | .colophon => [0x058]
  | .crypto => [0x044, 0x04C]
  | .feed => [0x048, 0x050, 0x058, 0x08C]
  | .sheet => [0x04C, 0x0A0, 0x0A8, 0x0B0]
  | .impose => [0x040, 0x058, 0x068, 0x070, 0x078, 0x080]
  | .drive => [0x050, 0x05C, 0x084]
  | .ptp => [0x048, 0x058]
  | .forme => [0x048]
  | .compositor => [0x058]
  | .web => [0x054, 0x070, 0x078]
  | .stone => [0x07C, 0x088]
  | .reel => [0x064]
  | .fault => [0x054, 0x05C, 0x070, 0x0D8]
  | .jobs => [0x064, 0x078, 0x0A4] ++ (List.range 16).map (0x100 + 32 * ·) ++ (List.range 16).map (0x108 + 32 * ·)
  | .logport => [0x048, 0x054, 0x060, 0x068, 0x074]
  | .power => [0x058, 0x068, 0x074]
  | .router => [0x068]
  | _ => []

/-- An offset is that of a _LO register. -/
def isLo (p off : Nat) : Bool :=
  match pageBlock p with
  | some (b, _) => (loOffsets b).contains off
  | none => false

/-- An offset is that of a _HI register. -/
def isHi (p off : Nat) : Bool := decide (4 ≤ off) && isLo p (off - 4)

/-- The key of a capture: the register and the master it waits for (R31). -/
def capKey (p off m : Nat) : Nat := rkey p off 0 * 32 + m

/-- A capture that waits for a master. -/
def State.capture (s : State) (p off m : Nat) : Option W32 := SMap.get none s.caps (capKey p off m)

/-- A capture set, or taken. -/
def State.setCapture (s : State) (p off m : Nat) (v : Option W32) : State :=
  { s with caps := SMap.set none s.caps (capKey p off m) v }

/-- The RC fields of a register return to their reset value, which is zero (R27). -/
def State.clearRc (s : State) (p off : Nat) : State :=
  let i := s.window p off
  (fieldsAt p off).foldl (fun s f => if f.acc = .rc then s.put p f 0 i else s) s

/-- One whole dword read by a master: its value and what it brings about (R27, R28, R31, R126, R874). -/
def State.readBy (s : State) (m p off : Nat) : W32 × State :=
  let v := s.readReg p off
  let s1 := s.probe p 1 m
  match s1.capture p off m with
  | some c => (c, s1.setCapture p off m none)
  | none =>
    if p = pgPTP ∧ off = 0x044 then
      (v, (s1.setCapture p 0x048 m (some (s.readReg p 0x048))).setCapture p 0x04C m (some (s.readReg p 0x04C)))
    else if isLo p off then
      let s2 := s1.setCapture p (off + 4) m (some (s.readReg p (off + 4)))
      (v, (s2.clearRc p off).clearRc p (off + 4))
    else if isHi p off then (v, s1)
    else (v, s1.clearRc p off)

/-- A page whose domain sleeps is woken by the packet that carries the access (R845, R854 source 5). The access is served in
the same step. -/
def State.wakePage (s : State) (p : Nat) : State :=
  match (List.range 52).find? fun d => domPage d == p with
  | some d => if s.asleep d then s.wake d 5 else s
  | none => s

/-- A read of a register by a master: a page the index does not assign reads zero, the MSI-X pages are the host's (R53,
R869); every master but the host needs a region (R533). -/
def State.regRead (s : State) (m p off : Nat) : Option W32 × State :=
  if s.pageAllows m p off false = false then (none, s.refuseRegion m (regBase + p * 0x1000 + off) false)
  else match pageBlock p with
    | some _ => let r := (s.wakePage p).readBy m p off; (some r.1, r.2)
    | none => (some (if 0x3FFE ≤ p ∧ m = 13 then s.reg p off else 0), s)

/-! ## The rows -/

/-- A read of a register answered to its master. -/
def State.readOut (s : State) (m p off : Nat) : State :=
  match s.regRead m p (off / 4 * 4 % 0x1000) with
  | (some v, s1) => s1.emit (.readData m v.toNat)
  | (none, s1) => s1

/-- COUNTER_READ (R28): the read returns the count and clears it; it changes nothing else. -/
def execCounterRead (m p off : Nat) (s : State) : Result := .next (s.readOut m p off)

/-- LO_CAPTURE_READ (R31): the read of a _LO register captures the matching _HI for the master. -/
def execLoCaptureRead (m p off : Nat) (s : State) : Result := .next (s.readOut m p off)

end Sys2Proof.Machine
end

