-- ==== Sys2Proof/Machine/Bus.lean ====
section
/-!
DEFINITION. A write of the register window: every register by its fields and its chapter's value checks, the common page
header, soft reset and probes (spec/00, R27 to R36; spec/18, R868 to R887; the chapters' register tables).
-/
namespace Sys2Proof.Machine

/-- The state a command answers, or the state before it where it stops. -/
def Result.state (r : Result) (s : State) : State :=
  match r with
  | .next s' => s'
  | _ => s

/-! ## A write by the fields and a value check -/

/-- A register has a field a write can reach (R27). -/
def writable (p off : Nat) : Bool := (fieldsAt p off).any fun f => f.acc == .rw || f.acc == .rwl || f.acc == .wo

/-- The register at an offset has locked fields. -/
def State.lockedAt (s : State) (p off : Nat) : Bool := s.quoined p && (fieldsAt p off).any (·.acc == .rwl)

/-- A write whose fields store it unless one of `rs` fails it whole; `k` follows where no field was locked (R882 to R885). -/
def State.plainWrite (s : State) (m p off : Nat) (v : W32) (rs : List Reason) (k : State → State := id) : State :=
  let lock := s.lockedAt p off
  s.tryWrite m p off (if rs.isEmpty then [] else rs ++ reasonIf lock .quoined) fun s =>
    let s1 := s.storeReg p off v (s.window p off)
    if lock then s1 else k s1

/-! ## Soft reset (R886, R887) -/

/-- The value a register takes at a soft reset: RW and RC fields at their reset values, the rest kept. -/
def softValue (p off : Nat) (v : W32) : W32 :=
  BitVec.ofNat 32 ((fieldsAt p off).foldl (fun n f =>
    if f.acc = .rw ∨ f.acc = .rc then setBits n f.hi f.lo (bits (resetNat p off) f.hi f.lo) else n) v.toNat)

/-- One register of the register file at a soft reset of page p. LOG_RELEASE in force is no register of the page, and
FRISKET resets its fields below 0x080 only (R888). -/
def State.softOne (s : State) (p key : Nat) : State :=
  let off := key % 0x1000
  let i := key / 0x4000000
  if key / 0x1000 % 0x4000 ≠ p ∨ off = 0x008 ∨ off = 0x00C then s
  else if 0x010 ≤ off ∧ off < 0x030 then s.setReg p off (resetWord p off) i
  else if off < 0x040 ∨ (p = pgFRISKET ∧ 0x080 ≤ off) ∨ ((p = pgLOGPORT 0 ∨ p = pgLOGPORT 1) ∧ i = 1) then s
  else s.setReg p off (softValue p off (s.reg p off i)) i

/-- The soft reset of a page: its fields, its block's action, and RESETTING until that ends (R86, R511, R886, R887). -/
def State.softReset (s : State) (p : Nat) : State :=
  let s1 := match pageBlock p with
    | some (.feed, q) => s.feedEnable q false
    | _ => s
  let s2 := (s1.regs.map (·.1)).foldl (fun s k => s.softOne p k) s1
  let s3 := s2.put p PAGE_STATUS_RESETTING 1
  match pageBlock p with
  | some (.web, w) => s3.flushWeb w true
  | some (.stone, _) => s3.stageRegion
  | _ => s3

/-- The block action of a soft reset has ended: for a web, when its flush has (R511). -/
def State.softEnds (s : State) (p : Nat) : Bool :=
  s.on p PAGE_STATUS_RESETTING &&
  match pageBlock p with
  | some (.web, w) => (s.web w).flushing.isEmpty && (s.web w).running.all (·.done)
  | _ => true

/-! ## The common header -/

/-- A write of PAGE_CTRL (R32, R34, R35, R875, R887): QUOIN is set only, and first. -/
def State.pageCtrlWrite (s : State) (m p : Nat) (v : W32) : State :=
  if s.pageAllows m p 0x008 true = false then s.refuseRegion m (regBase + p * 0x1000 + 0x008) true
  else
    let s0 := s.probe p 2 m
    let soft := v.getLsbD 2
    let same := s.on p PAGE_CTRL_ENABLE == v.getLsbD 0
    let can := match pageBlock p with
      | some (b, _) => blockSoftReset b
      | none => false
    let up := s.on p PAGE_STATUS_IN_SERVICE
    if s.on p PAGE_STATUS_RESETTING then
      let s1 := if v.getLsbD 1 then s0.put p PAGE_CTRL_QUOIN 1 else s0
      if !soft && same then s1 else s1.ignored p 0x008 .busy
    else if soft && !can then s0.ignored p 0x008 (if up || same then .noSoftReset else .notInService)
    else
      let s1 := if v.getLsbD 1 then s0.put p PAGE_CTRL_QUOIN 1 else s0
      let s2 := if up then s1.put p PAGE_CTRL_ENABLE (b2n (v.getLsbD 0))
        else if same then s1 else s1.ignored p 0x008 .notInService
      if soft then s2.softReset p else s2

/-- A write of EVT_PEND or EVT_ENABLE: bits at and above EVENT_BITS are reserved (R877). -/
def State.eventWrite (s : State) (m p off : Nat) (v : W32) : State :=
  let n := match pageBlock p with
    | some (b, _) => blockEventBits b
    | none => 0
  s.plainWrite m p off (BitVec.ofNat 32 (v.toNat % 2 ^ n)) []

/-- The Nc cycle count a probe of event Nc cycles starts from, at index 1 of its counter. -/
def State.startNc (s : State) (p : Nat) : State := s.putPair p PROBE_CNT_LO PROBE_CNT_HI (s.ncNow) 1

/-- The probe counter and its flags cleared (R614, R880). -/
def State.probeClear (s : State) (p : Nat) : State :=
  let s1 := ((s.putPair p PROBE_CNT_LO PROBE_CNT_HI 0).put p PROBE_SEL_OVF 0).startNc p
  match pageBlock p with
  | some (.router, _) => s1.put p ROUTER_TRACE_CTRL_COUNT 0
  | _ => s1

/-- A write of PROBE_SEL: a reserved EVENT or SIDE is ignored; a counter of Nc cycles stops with its count or starts now. -/
def State.probeSelWrite (s : State) (m p : Nat) (v : W32) : State :=
  let n := v.toNat
  let bad := match pageBlock p with
    | some (.router, _) => decide (bits n 11 10 = 3) || decide (9 ≤ bits n 4 0)
    | _ => decide (6 ≤ bits n 2 0)
  s.plainWrite m p 0x020 v (reasonIf bad .reservedCode) fun s1 =>
    let s2 := (s1.putPair p PROBE_CNT_LO PROBE_CNT_HI (s.probeCount p)).startNc p
    if v.getLsbD 30 then s2.probeClear p else s2

/-- A write of the common header at an offset other than that of PAGE_CTRL. -/
def State.headerWrite (s : State) (m p off : Nat) (v : W32) : State :=
  if off = 0x008 then s.pageCtrlWrite m p v
  else if off = 0x010 ∨ off = 0x014 then s.eventWrite m p off v
  else if off = 0x020 then s.probeSelWrite m p v
  else s.plainWrite m p off v []

/-! ## The chapters' registers -/

/-- A value outside its stated range. -/
def outside (lo hi v : Nat) : List Reason := reasonIf (decide (v < lo) || decide (hi < v)) .outOfRange

/-- FEED_CTRL (R83, R86, R91, R114). -/
def State.writeFeed (s : State) (m q off : Nat) (v : W32) : State :=
  let p := pgFEED q
  let n := v.toNat
  if off = 0x040 then
    let was := s.on p FEED_CTRL_ENABLE
    let speed := s.get p FEED_CTRL_SPEED
    s.tryWrite m p off (outside 1 30 (bits n 15 8) ++ reasonIf (decide (bits n 2 1 = 3)) .reservedCode ++
      (if (outside 1 30 (bits n 15 8) ++ reasonIf (decide (bits n 2 1 = 3)) .reservedCode).isEmpty then []
       else reasonIf (s.lockedAt p off) .quoined)) fun s =>
      let s1 := (s.storeReg p off v).put p FEED_CTRL_ENABLE (b2n was)
      if was && v.getLsbD 0 then s1.applySpeed q speed else s1.feedEnable q (v.getLsbD 0)
  else s.plainWrite m p off v []

/-- EtherTypes that SHEET_ETHERTYPE does not take. -/
def badEtherTypes : List Nat := [0x0800, 0x0806, 0x86DD, 0x8100, 0x88A8, 0x88CC, 0x888E, 0x88E5, 0x88F7]

/-- SHEET registers (R106, R112, R113, R148 and the tables of spec/02 and spec/03). -/
def State.writeSheet (s : State) (m off : Nat) (v : W32) : State :=
  let n := v.toNat
  if off = 0x040 then s.plainWrite m pgSHEET off v (outside 1 3600 (bits n 31 16) ++ outside 1100 60000 (bits n 15 0))
  else if off = 0x044 then
    (if v.getLsbD 8 then execFtEvict m (n % 256) s.mono s else execFtIndexCapture m (n % 256) s.mono s).state s
  else if off = 0x060 then
    s.plainWrite m pgSHEET off v
      (reasonIf (decide (bits n 15 0 < 0x0600) || badEtherTypes.contains (bits n 15 0)) .outOfRange)
  else s.plainWrite m pgSHEET off v []

/-- IMPOSE registers (R154, R164). -/
def State.writeImpose (s : State) (m off : Nat) (v : W32) : State :=
  if off = 0x04C ∧ v.getLsbD 0 then (execImposeCommit m s).state s
  else if off = 0x060 then (execSlotIndexCapture m (v.toNat % 65536) s).state s
  else s.plainWrite m pgIMPOSE off v []

/-- DRIVE registers (the tables of spec/03). A group MAC keeps its group bit, and a valid group carries a kind (R191): a
write of DRIVE_GRP_CFG that breaks this is ignored (DEDUCED, notes/assumptions/51.md). -/
def State.writeDrive (s : State) (m off : Nat) (v : W32) : State :=
  let n := v.toNat
  if off = 0x040 then s.driveCtrlWrite m v
  else if off = 0x044 then s.plainWrite m pgDRIVE off v (outside 1 1000 (bits n 9 0))
  else if off = 0x04C then s.plainWrite m pgDRIVE off v (outside 3 15 (bits n 3 0))
  else if off = 0x068 ∧ v.getLsbD 0 then (execDriveCommit m s).state s
  else if off = 0x084 then s.plainWrite m pgDRIVE off v (reasonIf (!v.getLsbD 0) .address)
  else if off = 0x08C then
    s.plainWrite m pgDRIVE off v (reasonIf (v.getLsbD 0 && !v.getLsbD 1 && !v.getLsbD 2) .outOfRange)
  else if off = 0x088 then
    s.plainWrite m pgDRIVE off v (reasonIf (!bit (s.get pgDRIVE DRIVE_GRP_MAC_LO (s.window pgDRIVE off)) 0) .address)
  else if off = 0x094 then s.plainWrite m pgDRIVE off v (outside 1 65535 (bits n 15 0))
  else s.plainWrite m pgDRIVE off v []

/-- PTP registers (R127, R128, R132). DESIGN CHOICE: a write of either half of PTP_TOD_NEXT, by any master, counts as host
software's (notes/assumptions/51.md). -/
def State.writePtp (s : State) (m off : Nat) (v : W32) : State :=
  if off = 0x050 then (execPtpAdjFreqWrite m v s.mono s).state s
  else if off = 0x054 then (execPtpAdjStep m v s.mono s).state s
  else if off = 0x040 then
    s.plainWrite m pgPTP off v [] fun s1 => s1.roleWritten (s.get pgPTP PTP_CTRL_ROLE)
  else if off = 0x058 ∨ off = 0x05C then
    s.plainWrite m pgPTP off v [] fun s => { s with ptp := { s.ptp with todWritten := true } }
  else s.plainWrite m pgPTP off v []

/-- FORME_CTRL (R241, R282; R728: DEBUG_EN is forced to 0 by the fuse). -/
def State.writeForme (s : State) (m off : Nat) (v : W32) : State :=
  if off = 0x040 ∧ v.getLsbD 0 then (execEClearWrite m v s).state s
  else if off = 0x040 then s.plainWrite m pgFORME off (if s.colo.fuses.debugLock then 0 else v) []
  else s.plainWrite m pgFORME off v []

/-- GALLEY registers (R283). -/
def State.writeGalley (s : State) (m r off : Nat) (v : W32) : State :=
  if off = 0x090 then (execDbgAddrWrite r m v s).state s
  else if off = 0x094 then (execDbgDataWrite r m v s).state s
  else s.plainWrite m (pgGALLEY r) off v []

/-- COMPOSITOR registers (R353, R387, R412). -/
def State.writeComp (s : State) (m off : Nat) (v : W32) : State :=
  if off = 0x048 then s.seqCtrlWrite m v
  else if off = 0x050 then s.plainWrite m pgCOMPOSITOR off v (outside 1024 0xFFFFFFFF v.toNat)
  else if off = 0x05C then
    let a := s.get pgCOMPOSITOR COMP_ICB_LO + bits v.toNat 15 0 * 2 ^ 32
    s.plainWrite m pgCOMPOSITOR off v (reasonIf (decide (a % 1024 ≠ 0) || decide (0x400000 ≤ a)) .address) fun s =>
      s.putPair pgCOMPOSITOR COMP_ICB_LO COMP_ICB_HI a 1
  else if off = 0x064 then (execImpEndWrite m v s).state s
  else s.plainWrite m pgCOMPOSITOR off v []

/-- CSTORE registers (R397, R405). -/
def State.writeCstoreReg (s : State) (m off : Nat) (v : W32) : State :=
  if off = 0x048 then (execDispatchEntryWrite m v s).state s
  else if off = 0x050 then (execCstoreMatchWrite m v s).state s
  else s.plainWrite m pgCSTORE off v []

/-- The completion ring of 2^l records at an address lies in Stone and in the web's regions (WEB_CREC_CFG). -/
def State.crecOk (s : State) (w a l : Nat) : Bool :=
  decide (a + 16 * 2 ^ l ≤ 0x04000000) && (List.range (2 ^ l)).all fun k => s.regionOk (2 + w) (a + 16 * k) 16 true

/-- WEB registers (R494, R511, R512, R516). -/
def State.writeWeb (s : State) (m w off : Nat) (v : W32) : State :=
  let p := pgWEB w
  let n := v.toNat
  if off = 0x040 then s.webCtrlWrite w m v
  else if off = 0x048 then
    s.plainWrite m p off v (outside 0 28 (bits n 12 8) ++ outside 0 56 (bits n 5 0) ++
      reasonIf (decide (s.webDepth w 0 + s.webDepth w 1 ≠ 0)) .state)
  else if off = 0x04C then
    s.tryWrite m p off (reasonIf (m != 0) .wrongMaster) fun s => s.put p WEB_SUBMIT_LO n
  else if off = 0x050 then (execWebSubmit w m v s).state s
  else if off = 0x05C then
    let l := bits n 4 0
    let a := s.pair p WEB_CREC_LO WEB_CREC_HI / 16 * 16
    let range := outside 4 16 l
    s.plainWrite m p off v (range ++ reasonIf (range.isEmpty && v.getLsbD 8 && !s.crecOk w a l) .address)
  else s.plainWrite m p off v []

/-- STONE registers (R534, R558, R565, R567, R928). -/
def State.writeStone (s : State) (m off : Nat) (v : W32) : State :=
  if off = 0x084 then (execRegionSelect m v s).state s
  else if 0x088 ≤ off ∧ off ≤ 0x090 then s.plainWrite m pgSTONE off v (reasonIf (m != 1) .wrongMaster)
  else if off = 0x094 then (execRegionRightsWrite m v s).state s
  else if off = 0x0A4 ∧ v.getLsbD 0 then (execLedgerCommit m s).state s
  else if (off = 0x09C ∨ off = 0x0A0) ∧ s.get pgSTONE STONE_LEDGER_INDEX_INDEX = 0 then s.probe pgSTONE 2 m
  else s.plainWrite m pgSTONE off v []

/-- REEL_CFG (R545, R548). -/
def State.writeReel (s : State) (m k off : Nat) (v : W32) : State :=
  let n := v.toNat
  s.plainWrite m (pgREEL k) off v (if off = 0x044 then outside 1 1000 (bits n 25 16) ++ outside 1 24 (bits n 4 0) else [])

/-- NOC registers (R596, R598, R602). -/
def State.writeNoc (s : State) (m off : Nat) (v : W32) : State :=
  let colo := reasonIf (m != 1) .wrongMaster
  if off = 0x040 then s.plainWrite m pgNOC off v (outside 400 1000000 (bits v.toNat 19 0))
  else if off = 0x044 then s.plainWrite m pgNOC off v (colo ++ outside 1 63 (bits v.toNat 5 0))
  else if off = 0x048 then s.plainWrite m pgNOC off v colo
  else if off = 0x054 then (if v.getLsbD 0 then (execFlowCommit m s).state s else s.plainWrite m pgNOC off v colo)
  else s.plainWrite m pgNOC off v []

/-- EVT registers (R630 to R644, R651 to R653). -/
def State.writeEvt (s : State) (m off : Nat) (v : W32) : State :=
  let n := v.toNat
  if off < 0x080 then
    s.plainWrite m pgEVT off v (reasonIf (decide (bits n 9 8 = 3)) .reservedCode ++ outside 1 255 (bits n 7 0))
  else if off = 0x084 then (execSoftRaise m (n % 64) s.mono s).state s
  else if off = 0x0A0 ∨ off = 0x0C0 then s.plainWrite m pgEVT off v [] State.presentWake
  else if off = 0x0AC ∨ off = 0x0CC then (execEoiWrite m ((off - 0x0AC) / 32) n s).state s
  else if (off = 0x0B4 ∨ off = 0x0D4) ∧ v.getLsbD 0 then (execStackReset m ((off - 0x0B4) / 32) s).state s
  else s.plainWrite m pgEVT off v []

/-- A source's request to the host where PENDING and ENABLE have risen since an older state (R647). -/
def State.riseHost (s old : State) (k : Nat) : State :=
  if s.srcRequests k && !old.srcRequests k && s.get pgEVTCFG (EVT_SRC_CFG_TARGET.at k) == 3 then
    s.hostRequest (s.get pgEVTCFG (EVT_SRC_CFG_VECTOR.at k))
  else s

/-- Source configuration, pending and enable words (R622, R628, R647, R654, R657); both copies of a configuration take a
write (R629). -/
def State.writeEvtCfg (s : State) (m off : Nat) (v : W32) : State :=
  if off < 0x840 then
    let rs := outside 1 255 (bits v.toNat 16 9)
    s.tryWrite m pgEVTCFG off (if rs.isEmpty then [] else rs ++ reasonIf (s.lockedAt pgEVTCFG off) .quoined) fun s =>
      let s1 := s.storeReg pgEVTCFG off v
      (s1.setReg pgEVTCFG off (s1.reg pgEVTCFG off) 1).presentWake
  else
    s.plainWrite m pgEVTCFG off v [] fun s1 =>
      let base := 32 * ((if off < 0x880 then off - 0x840 else off - 0x880) / 4)
      ((List.range 32).foldl (fun x i => x.riseHost s (base + i)) s1).presentWake

/-- Coalescing times, in both copies (R629, R655). -/
def State.writeEvtTime (s : State) (m off : Nat) (v : W32) : State :=
  s.plainWrite m pgEVTTIME off v [] fun s => s.setReg pgEVTTIME off (s.reg pgEVTTIME off) 1

/-- FAULT registers (R666, R670, R673, R677, R690, R691, R695); a FAULT_SEV word in both copies. -/
def State.writeFault (s : State) (m off : Nat) (v : W32) : State :=
  let n := v.toNat
  if off = 0x040 then (execFirstClear m v s).state s
  else if off = 0x078 then (execFaultLogCapture m v s).state s
  else if off = 0x0C0 then
    s.plainWrite m pgFAULT off v (reasonIf (bits n 31 24 == 0 || bits n 19 16 == 0 || bits n 11 8 == 0 || bits n 3 0 == 0) .outOfRange)
  else if off = 0x0C4 then (execAliveEnableWrite m v s.mono s).state s
  else if off = 0x0C8 then (execHeartbeatKick m v s.mono s).state s
  else if off = 0x0CC then (execHbTimeoutWrite m v s.mono s).state s
  else if 0x100 ≤ off then
    let low := (List.range 16).any fun k => decide (bits n (2 * k + 1) (2 * k) < sevFloor ((off - 0x100) / 4 * 16 + k))
    s.plainWrite m pgFAULT off v (reasonIf low .outOfRange) fun s => s.setReg pgFAULT off (s.reg pgFAULT off) 1
  else s.plainWrite m pgFAULT off v []

/-- HOST_BAR4_BASE: the 4 GiB window stays within populated Reel memory (R60, R61, R63). -/
def State.bar4Write (s : State) (m : Nat) (v : W32) : State :=
  s.plainWrite m pgHOST 0x040 v (reasonIf (decide (s.reelBytes < (bits v.toNat 5 0 + 4) * 2 ^ 30)) .address)

/-- JOBS registers (R777, R780, R788, R789, R794 to R797, R808, R810). -/
def State.writeJobs (s : State) (m off : Nat) (v : W32) : State :=
  if off = 0x048 then s.spCtrlWrite m v
  else if off = 0x054 ∨ off = 0x05C then s.plainWrite m pgJOBS off v (reasonIf (decide (s.period ≤ v.toNat)) .outOfRange)
  else if off = 0x07C then
    let a := (s.get pgJOBS JOBS_CALL_AREA_LO + bits v.toNat 15 0 * 2 ^ 32) / 1024 * 1024
    s.plainWrite m pgJOBS off v (reasonIf (decide (0x400000 ≤ a)) .address) fun s =>
      s.putPair pgJOBS JOBS_CALL_AREA_LO JOBS_CALL_AREA_HI a 1
  else if off = 0x084 then (execCallDoneWrite m v s).state s
  else if 0x100 ≤ off ∧ off < 0x300 then
    let n := (off - 0x100) / 32
    let o := off % 32
    if o < 0x10 then s.plainWrite m pgJOBS off v (reasonIf (s.ringEnabled n) .state)
    else if o = 0x10 then (execRingEnableWrite n m v s).state s
    else if o = 0x14 then (execJobsTailDoorbell n m v s).state s
    else if o = 0x18 then (execJobsHeadWrite n m v s).state s
    else s.plainWrite m pgJOBS off v []
  else s.plainWrite m pgJOBS off v []

/-- LOGPORT registers (R756, R768). -/
def State.writeLogPort (s : State) (m k off : Nat) (v : W32) : State :=
  if off = 0x06C then (execLogReleaseWrite k m v s).state s
  else
    let s1 := s.plainWrite m (pgLOGPORT k) off v []
    if off = 0x040 then s1.logGo k else s1

/-- FRISKET registers (R820, R830). -/
def State.writeFrisket (s : State) (m off : Nat) (v : W32) : State :=
  if off = 0x044 ∧ v.getLsbD 0 then (execFrisketReset1 m s).state s
  else if 0x080 ≤ off then
    s.plainWrite m pgFRISKET off v (reasonIf (m != 1) .wrongMaster ++
      reasonIf (decide (off = 0x088) && decide (bits v.toNat 1 0 = 3)) .reservedCode)
  else s.plainWrite m pgFRISKET off v []

/-- POWER registers (R863): those of the domains, the alarm and the wake maps from masters 1 and 13 alone. -/
def State.writePower (s : State) (m off : Nat) (v : W32) : State :=
  if off = 0x044 then s.powerReq m (bits v.toNat 1 0) none
  else if off = 0x050 then s.powerCtrl m v.toNat
  else if off = 0x04C then s.plainWrite m pgPOWER off v (powerMaster m ++ outside 1 65535 (bits v.toNat 15 0))
  else if off = 0x064 then s.plainWrite m pgPOWER off v (outside 0 4 (bits v.toNat 3 0))
  else if off = 0x06C then s.plainWrite m pgPOWER off (v &&& 0x000FFFFF#32) (powerMaster m)
  else if [0x040, 0x058, 0x05C, 0x060, 0x068].contains off then s.plainWrite m pgPOWER off v (powerMaster m)
  else s.plainWrite m pgPOWER off v []

/-- COLOPHON registers (R115, R723, R765): the limits of the selected sensor are locked by the page's quoin. -/
def State.writeColo (s : State) (m off : Nat) (v : W32) : State :=
  let k := s.get pgCOLOPHON COLOPHON_SENSOR_INDEX_INDEX
  let x := s.sensor k
  let lock := s.quoined pgCOLOPHON
  if off = 0x044 then (execPairConfirmWrite m (bits v.toNat 27 24) (bits v.toNat 19 0) s).state s
  else if off = 0x048 then s.plainWrite m pgCOLOPHON off v (outside 0 75 (bits v.toNat 6 0))
  else if off = 0x050 then
    s.tryWrite m pgCOLOPHON off (reasonIf lock .quoined) fun s => s.setSensor k { x with lower := v }
  else if off = 0x054 then
    s.tryWrite m pgCOLOPHON off (reasonIf lock .quoined ++
      reasonIf (decide (sensorValue k v < sensorValue k x.lower)) .outOfRange) fun s => s.setSensor k { x with upper := v }
  else s.plainWrite m pgCOLOPHON off v []

/-- A write of a block register at 0x040 or above. -/
def State.blockWrite (s : State) (m p off : Nat) (v : W32) : State :=
  match pageBlock p with
  | none => s
  | some (.colophon, _) => s.writeColo m off v
  | some (.feed, q) => s.writeFeed m q off v
  | some (.sheet, _) => s.writeSheet m off v
  | some (.impose, _) => s.writeImpose m off v
  | some (.drive, _) => s.writeDrive m off v
  | some (.ptp, _) => s.writePtp m off v
  | some (.forme, _) => s.writeForme m off v
  | some (.galley, r) => s.writeGalley m r off v
  | some (.compositor, _) => s.writeComp m off v
  | some (.cstore, _) => s.writeCstoreReg m off v
  | some (.web, w) => s.writeWeb m w off v
  | some (.stone, _) => s.writeStone m off v
  | some (.reel, k) => s.writeReel m k off v
  | some (.noc, _) => s.writeNoc m off v
  | some (.evt, _) => s.writeEvt m off v
  | some (.evtCfg, _) => s.writeEvtCfg m off v
  | some (.evtTime, _) => s.writeEvtTime m off v
  | some (.fault, _) => s.writeFault m off v
  | some (.host, _) => if off = 0x040 then s.bar4Write m v else s.plainWrite m p off v []
  | some (.jobs, _) => s.writeJobs m off v
  | some (.logport, k) => s.writeLogPort m k off v
  | some (.frisket, _) => s.writeFrisket m off v
  | some (.power, _) => s.writePower m off v
  | some _ => s.plainWrite m p off v []

/-! ## One dword, and a request of any width (R53, R869 to R873) -/

/-- A write of an MSI-X table dword by the host: unmasking a vector sends the message its pending bit holds (R647, R771,
R869). The pending bit array takes no write. -/
def State.msixWrite (s : State) (off : Nat) (v : W32) : State :=
  if off % 16 = 12 then (s.setReg 0x3FFE off (v &&& 1#32)).flushVector (off / 16) else s.setReg 0x3FFE off v

/-- A whole dword written by a master. -/
def State.regWrite (s : State) (m p off : Nat) (v : W32) : State :=
  if s.pageAllows m p off true = false then s.refuseRegion m (regBase + p * 0x1000 + off) true
  else match pageBlock p with
    | none => if p = 0x3FFE ∧ m = 13 then s.msixWrite off v else s
    | some _ =>
      let s1 := s.wakePage p
      if writable p off = false then s1.probe p 2 m
      else if off < 0x040 then s1.headerWrite m p off v
      else s1.blockWrite m p off v

/-- A partial dword write is ignored with reason ACCESS_SIZE (R871). -/
def State.regPartial (s : State) (m p off : Nat) : State :=
  match pageBlock p with
  | none => if s.pageAllows m p off true then s else s.refuseRegion m (regBase + p * 0x1000 + off) true
  | some _ => s.tryWrite m p off [.accessSize] id

/-- Bytes written from offset o of the register window on, dword by dword in rising order. -/
def State.regWriteBytes (s : State) (m o : Nat) : Nat → List Byte → State
  | 0, _ => s
  | n + 1, bs =>
    if bs.isEmpty then s
    else
      let part := bs.take (4 - o % 4)
      let p := o / 0x1000 % 0x4000
      let off := o % 0x1000 / 4 * 4
      let s1 := if o % 4 = 0 ∧ part.length = 4 then s.regWrite m p off (BitVec.ofNat 32 (ofLE part)) else s.regPartial m p off
      s1.regWriteBytes m (o + part.length) n (bs.drop part.length)

/-- Bytes read from offset o of the register window on; a partial dword reads zero (R871). -/
def State.regReadBytes (s : State) (m o : Nat) : Nat → Nat → List Byte × State
  | 0, _ => ([], s)
  | n + 1, len =>
    if len = 0 then ([], s)
    else
      let k := min (4 - o % 4) len
      let p := o / 0x1000 % 0x4000
      let r := if o % 4 = 0 ∧ k = 4 then s.regRead m p (o % 0x1000) else (none, s)
      let bs := match r.1 with
        | some v => bytesLE 4 v.toNat
        | none => List.replicate k 0
      let rest := r.2.regReadBytes m (o + k) n (len - k)
      (bs ++ rest.1, rest.2)

/-! ## Any device address (R50, R52, R54, R531) -/

/-- One byte of the control store window at an offset: foundry ROM, customer store, or zero (R54). -/
def State.cstoreByte (s : State) (o : Nat) : Byte :=
  let u := o / 32
  let k := o % 32
  if 22 ≤ k then 0
  else if u < 0x8000 then Config.romByte (cstoreBase + o)
  else if u ≤ 0x9FFF then BitVec.ofNat 8 (SMap.get 0 s.cstore.words u / 2 ^ (8 * k))
  else 0

/-- An extent of any place read by a master whose region has been checked. -/
def State.placeRead (s : State) (m a len : Nat) : ReadResult × State :=
  if s.extentOk a len = false then (.refused, s.refuseAddress m a false)
  else match placeOf a with
    | .regs => let r := s.regReadBytes m (a - regBase) (len + 1) len; (.ok r.1, r.2)
    | .cstore => (.ok ((List.range len).map fun i => s.cstoreByte (a - cstoreBase + i)), s)
    | _ => s.readRaw m a len

/-- An extent of any place written by a master whose region has been checked. -/
def State.placeWrite (s : State) (m a : Nat) (bs : List Byte) : WriteResult × State :=
  if s.extentOk a bs.length = false then (.refused, s.refuseAddress m a true)
  else match placeOf a with
    | .regs => (.ok, s.regWriteBytes m (a - regBase) (bs.length + 1) bs)
    | .cstore => (.ok, s.windowBytes m (a - cstoreBase) (bs.length + 1) bs)
    | _ => s.writeRaw m a bs

/-- The host through BAR0 needs no region (R533). -/
def hostRegs (m a : Nat) : Bool := m == 13 && decide (placeOf a = .regs)

/-- An extent read by a master (R52, R531, R533). -/
def State.busRead (s : State) (m a len : Nat) : ReadResult × State :=
  if s.extentOk a len && !hostRegs m a && !s.regionOk m a len false then (.refused, s.refuseRegion m a false)
  else s.placeRead m a len

/-- An extent written by a master. -/
def State.busWrite (s : State) (m a : Nat) (bs : List Byte) : WriteResult × State :=
  if s.extentOk a bs.length && !hostRegs m a && !s.regionOk m a bs.length true then (.refused, s.refuseRegion m a true)
  else s.placeWrite m a bs

/-- An access comes to memory: its domain is woken by the packet that carries it (R845, R854 source 5), and a galley transfer
has gone on by then (R927). -/
def State.wakeMemory (s : State) (a : Nat) : State :=
  let wake (s : State) (d : Nat) := if s.asleep d then s.wake d 5 else s
  match placeOf a with
  | .stone => wake s.ioTouch 2
  | .reel => wake s (12 + s.stackOf a)
  | _ => s

/-! ## The rows -/

/-- REGISTER_WRITE (R27, R870 to R873, R882): bytes written at an offset of a page. -/
def execRegisterWrite (m p off : Nat) (data : List Byte) (t : Nat) (s : State) : Result :=
  .next ((s.advance t).regWriteBytes m (p % 0x4000 * 0x1000 + off % 0x1000) (data.length + 1) data)

/-- QUOIN_SET (R32, R35, R881): a write of PAGE_CTRL with QUOIN = 1. -/
def execQuoinSet (m p : Nat) (v : W32) (s : State) : Result := .next (s.regWrite m (p % 0x4000) 0x008 (v ||| 2#32))

/-- SOFT_RESET (R34, R886): a write of PAGE_CTRL with SOFT_RESET = 1. -/
def execSoftReset (m p : Nat) (v : W32) (s : State) : Result := .next (s.regWrite m (p % 0x4000) 0x008 (v ||| 4#32))

/-- SOFT_RESET_DONE (R887): the block action has ended. -/
def execSoftResetDone (p : Nat) (s : State) : Result :=
  let p := p % 0x4000
  .next (if s.softEnds p then s.put p PAGE_STATUS_RESETTING 0 else s)

/-- PROBE_CLEAR (R614, R880): a write of PROBE_SEL with CLEAR = 1. -/
def execProbeClear (m p : Nat) (v : W32) (s : State) : Result := .next (s.regWrite m (p % 0x4000) 0x020 (v ||| 0x40000000#32))

/-- PROBE_WRAP (R613, R880): a counter of Nc cycles wraps; on a ROUTER page that raises PROBE_WRAP. A counter of another
event wraps in the step that counts it. -/
def execProbeWrap (p t : Nat) (s : State) : Result :=
  let p := p % 0x4000
  let s := s.advance t
  match pageBlock p with
  | none => .next s
  | some (b, _) =>
    if s.countsNc p = false ∨ s.pair p PROBE_CNT_LO PROBE_CNT_HI + (s.ncNow + 2 ^ 48 - s.pair p PROBE_CNT_LO PROBE_CNT_HI 1) % 2 ^ 48 < 2 ^ 48 then
      .next s
    else
      let s1 := ((s.putPair p PROBE_CNT_LO PROBE_CNT_HI (s.probeCount p)).startNc p).put p PROBE_SEL_OVF 1
      .next (if b = .router then s1.event p 3 else s1)

end Sys2Proof.Machine
end

