-- ==== Sys2Proof/Machine/Host.lean ====
section
/-!
DEFINITION. The host endpoint and COPY tickets (spec/01, R56 to R63; spec/15, R770 to R774, R783, R806, R807; spec/19,
R911).
-/
namespace Sys2Proof.Machine

/-! ## BAR requests (R56 to R62) -/

/-- The device address of a BAR request; BAR4 by the window in force when the request arrives (R62). -/
def State.barAddress (s : State) (q : BarReq) : Nat :=
  if q.bar = 0 then regBase + q.off % 2 ^ 26
  else if q.bar = 2 then q.off % 2 ^ 26
  else reelBase + s.get pgHOST HOST_BAR4_BASE_WINDOW_GIB * 2 ^ 30 + q.off % 2 ^ 32

/-- A host write to a register page is wake source 3: the host endpoint and the source's map (R854). -/
def State.hostWake (s : State) (a : Nat) : State :=
  if placeOf a = .regs then (if s.asleep 32 then s.wake 32 3 else s).wakeMap 3 else s

/-- HOST_BAR_REQUEST (R56 to R62, R533, R870 to R872): a read completes with data or Completer Abort, a posted write is
performed or dropped. The device in reset answers nothing. -/
def execHostBarRequest (q : BarReq) (t : Nat) (s : State) : Result :=
  let s := s.advance t
  if s.device.stage = 0 then .next s
  else
    let a := s.barAddress q
    match q.data with
    | some bs =>
      match ((s.hostWake a).wakeMemory a).busWrite 13 a bs with
      | (.refused, s1) => .next (s1.count pgHOST HOST_POSTED_DROPS)
      | (_, s1) => .next s1
    | none =>
      match (s.wakeMemory a).busRead 13 a q.len with
      | (.ok bs, s1) => .next (s1.emit (.completion true bs))
      | (_, s1) => .next ((s1.count pgHOST HOST_CA_COUNT).emit (.completion false []))

/-- HOST_BAR4_BASE_WRITE (R60, R61): a write of HOST_BAR4_BASE moves the window, unless it would leave populated Reel
memory. -/
def execHostBar4BaseWrite (m : Nat) (v : W32) (s : State) : Result := .next (s.regWrite m pgHOST 0x040 v)

/-! ## The link and its resets (R770 to R773, R806, R807, R911) -/

/-- The link state shown in HOST_LINK; LINK_CHANGE where LINK_UP changes. -/
def State.setHostLink (s : State) (up : Bool) (speed width : Nat) : State :=
  let was := s.on pgHOST HOST_LINK_LINK_UP
  let s1 := (s.put pgHOST HOST_LINK_LINK_UP (b2n up)).put pgHOST HOST_LINK_SPEED (if up then speed else 0)
  let s2 := (s1.put pgHOST HOST_LINK_WIDTH (if up then width else 0)).put pgHOST HOST_LINK_L1 0
  if was = up then s2 else s2.event pgHOST 0

/-- HOST_LINK_CHANGE (R770, R806, R807): the data link layer becomes active at a generation and a width, or goes down. It does
not come up while PERST_N is asserted, before make-ready step 5, or at a generation or width R770 does not list. -/
def execHostLinkChange (up : Bool) (speed width t : Nat) (s : State) : Result :=
  let s := s.advance t
  let can := decide (1 ≤ s.device.stage) && !s.on pgHOST HOST_LINK_PERST && s.on pgHOST PAGE_STATUS_IN_SERVICE &&
    decide (1 ≤ speed) && decide (speed ≤ 5) && [1, 2, 4, 8, 16].contains width
  .next (if up && !can then s else s.setHostLink up speed width)

/-- The endpoint, its MSI-X state and the JOBS block reset; configuration requests meet Request Retry Status (R772, R773). -/
def State.resetEndpoint (s : State) : State :=
  let s1 := ((s.regs.map (·.1)).filter fun k => k / 0x1000 % 0x4000 == 0x3FFE || k / 0x1000 % 0x4000 == 0x3FFF).foldl
    (fun s k => s.setReg (k / 0x1000 % 0x4000) (k % 0x1000) (resetWord (k / 0x1000 % 0x4000) (k % 0x1000)) (k / 0x4000000)) s
  let s2 := { s1 with msixFmask := false, host := { s1.host with retry := true } }
  (s2.resetJobs.count pgHOST HOST_RESETS).event pgHOST 1

/-- PERST_ASSERT (R772, R773, R806): PERST_N falls; the link goes down with the reset. -/
def execPerstAssert (s : State) : Result :=
  if s.on pgHOST HOST_LINK_PERST then .next s
  else .next (((s.put pgHOST HOST_LINK_PERST 1).setHostLink false 0 0).resetEndpoint)

/-- PERST_RELEASE (R911): PERST_N rises; once the device is ready the endpoint trains and is ready within 100 ms, and until
make-ready ends it goes on answering with Request Retry Status. -/
def execPerstRelease (s : State) : Result :=
  .next (s.put pgHOST HOST_LINK_PERST 0)

/-- FUNCTION_LEVEL_RESET (R772, R773): the endpoint, MSI-X and the JOBS block reset; the link stays up. -/
def execFunctionLevelReset (s : State) : Result := .next s.resetEndpoint

/-- FLR_COMPLETE (R772, R911): the endpoint is ready again, where make-ready has ended and PERST_N is high. -/
def execFlrComplete (s : State) : Result :=
  if s.device.stage = 2 ∧ s.on pgHOST HOST_LINK_PERST = false then .next { s with host := { s.host with retry := false } }
  else .next s

/-- HOST_CONFIG_REQUEST (R772, R911): answered, with Request Retry Status while the endpoint is not ready. An endpoint in
reset answers nothing. -/
def execHostConfigRequest (s : State) : Result :=
  if s.device.stage = 0 ∨ s.on pgHOST HOST_LINK_PERST = true then .next s
  else .next (s.emit (.config (s.host.retry || decide (s.device.stage ≠ 2))))

/-! ## COPY (R781, R783, R785) -/

/-- A side of a COPY as a device address, none where it lies in host memory (R781). -/
def copyPlace (a : Nat) : Option Nat := if bit a 63 then none else some (a % 2 ^ 48)

/-- The address of a side of a COPY in its own space. -/
def copyAddr (a : Nat) : Nat := if bit a 63 then a % 2 ^ 63 else a % 2 ^ 48

/-- The bytes a COPY writes for one request: those whose place lies in the source extent too are open (R783). -/
def copyBytes (free src dst len from_ : Nat) (bs : List Byte) : List Byte :=
  bs.zipIdx.map fun (b, i) =>
    let a := dst + from_ + i
    if src ≤ a ∧ a < src + len then Config.freeByte (free + i) else b

/-- A COPY of ring n, ticket k ends, or goes on with its next request. -/
def State.copyNext (s : State) (n k len moved : Nat) : State :=
  if len ≤ moved then s.endTicket n k (copyEnd 0 0 moved)
  else s.onTicket n k fun t => { t with started := true, moved := moved }

/-- TICKET_COPY (R781, R783, R785): one request of the COPY ticket of ring n, of at most 512 bytes in rising address order:
its read, then its write. `host` is what host memory answers to a read there, none a request that fails (R774). -/
def execTicketCopy (n size : Nat) (host : Option (List Byte)) (s : State) : Result :=
  let n := n % 16
  match s.copyTicket n with
  | none => .next s
  | some (k, b, moved) =>
    let src := tkSrc b
    let dst := tkDst b
    let len := tkLen b
    let c := min (max 1 (min size 512)) (len - moved)
    let got : Option (List Byte) × Nat × Nat × State := match copyPlace src with
      | some a => match (s.wakeMemory (a + moved)).busRead 14 (a + moved) c with
        | (.ok bs, s1) => (some bs, 0, 0, s1)
        | (.refused, s1) => (none, 1, 4, s1)
        | (.uncorr, s1) => (none, 2, 9, s1)
      | none =>
        let s1 := s.emit (.hostRead ((src % 2 ^ 63) + moved) c)
        match host with
        | some bs => (some (slice bs 0 c), 0, 0, s1)
        | none => (none, 1, 5, s1.count pgHOST HOST_CPL_ERRORS)
    match got with
    | (none, st, cause, s1) => .next (s1.endTicket n k (copyEnd st cause moved))
    | (some bs, _, _, s1) =>
      let f := s1.free
      let same := bit src 63 == bit dst 63
      let out := if same then copyBytes f (copyAddr src) (copyAddr dst) len moved bs else bs
      let s2 := s1.skipFree c
      match copyPlace dst with
      | none => .next ((s2.emit (.hostWrite ((dst % 2 ^ 63) + moved) out)).copyNext n k len (moved + c))
      | some a => match (s2.wakeMemory (a + moved)).busWrite 14 (a + moved) out with
        | (.refused, s3) => .next (s3.endTicket n k (copyEnd 1 4 moved))
        | (_, s3) => .next (s3.copyNext n k len (moved + c))

end Sys2Proof.Machine
end

