-- ==== Sys2Proof/Machine/Boot.lean ====
section
/-!
DEFINITION. Device resets and make-ready (spec/14, R731 to R737; spec/19, R893, R905 to R913; spec/12, R674, R684; spec/06,
R397 to R402; spec/01, R63 to R75; spec/09, R525, R536).
-/
namespace Sys2Proof.Machine

/-! ## Device reset (R33, R674) -/

/-- The registers of the latch and of the fault log (R674). -/
def faultKept : List Nat := [0x048, 0x04C, 0x050, 0x054, 0x058, 0x05C, 0x060, 0x070, 0x074]

/-- The fault latch and log carried over from before a reset. -/
def State.keepFaults (s old : State) : State :=
  let s1 := faultKept.foldl (fun s off => s.setReg pgFAULT off (old.reg pgFAULT off)) s
  let s2 := (s1.put pgFAULT FAULT_STATUS_FIRST_VALID (old.get pgFAULT FAULT_STATUS_FIRST_VALID)).put pgFAULT
    FAULT_STATUS_OVERFLOW (old.get pgFAULT FAULT_STATUS_OVERFLOW)
  let s3 := s2.put pgFAULT FAULT_STATUS_LOG_OVERFLOW (old.get pgFAULT FAULT_STATUS_LOG_OVERFLOW)
  s3.onFault fun f => { f with log := old.fault.log, dropped := old.fault.dropped }

/-- What outlasts any device reset beside the fault log: what the model keeps of the run, fuses and flash, pairings, and the
levels of pins (notes/assumptions/23.md). -/
def State.resetBase (s : State) : State :=
  { State.reset with
    pending := s.pending, out := s.out, mono := s.mono, free := s.free
    feed := { State.reset.feed with pairings := s.feed.pairings }
    evt := { State.reset.evt with
      lines := (List.range 16).foldl (fun m n => SMap.set EvtLine.reset m n
        { EvtLine.reset with sync := (SMap.get EvtLine.reset s.evt.lines n).sync, since := s.mono }) [] }
    frisket := { State.reset.frisket with gpioIn := s.frisket.gpioIn }
    clock := { State.reset.clock with refLost := s.clock.refLost, lostNs := s.clock.lostNs }
    colo := { ColoSt.reset with
      fuses := s.colo.fuses, flash := s.colo.flash
      journal := { JournalSt.reset with recs := s.colo.journal.recs, next := s.colo.journal.next } }
    device := { s.device with stage := 0, coloStopped := false, failed := [] } }

/-- A device reset: every register at its reset value and every unit as at reset; `cold` where the cause clears the fault
latch and the fault log too (R33, R674, R906). -/
def State.deviceReset (s : State) (cold : Bool) : State :=
  let s1 := s.resetBase.put pgHOST HOST_LINK_PERST (s.get pgHOST HOST_LINK_PERST)
  if cold then s1 else s1.keepFaults s

/-! ## The start of make-ready (R734, R735 steps 1 to 5) -/

/-- Pages of units that no proof of R736 covers. -/
def plainPages : List Nat :=
  [pgDEVICE, pgCOLOPHON, pgCRYPTO, pgSHEET, pgIMPOSE, pgDRIVE, pgPTP, pgFORME, pgCOMPOSITOR, pgSTONE, pgNOC, pgEVT, pgEVTCFG,
   pgEVTTIME, pgEVTCNT, pgFAULT, pgHOST, pgJOBS, pgPOWER, pgCLOCK]

/-- The firmware image of a slot of the boot flash. -/
def State.fwImage (s : State) (k : Nat) : List Byte :=
  match SMap.get none s.colo.flash.fw k with
  | some b => b
  | none => Config.factoryImage k

/-- What slot k carries. -/
def headOf (b : BootSlots) (k : Nat) : FwHead := if k = 0 then b.a else b.b

/-- The slot that boots, where one verifies: the active one, or the other when the trial flag is set; then the one left
(R735 step 3, R763). -/
def State.bootSlot (s : State) (b : BootSlots) : Option Nat :=
  let ok := fun k => s.fwValid (headOf b k)
  let first := if s.colo.flash.trial then 1 - s.colo.flash.active else s.colo.flash.active
  if ok first then some first else if ok (1 - first) then some (1 - first) else none

/-- Step 4: identity, MAC addresses, the counters and the owner that fuses and flash give, and the first heartbeat (R85,
R729, R743, R753, R767). -/
def State.firmwareStarts (s : State) (k version : Nat) : State :=
  let s1 := (s.put pgCOLOPHON COLOPHON_STATUS_FW_VERSION version).put pgCOLOPHON COLOPHON_STATUS_SLOT k
  let s2 := (s1.put pgCRYPTO CRYPTO_STATUS_IDENTITY_READY 1).put pgCRYPTO CRYPTO_STATUS_DEBUG_LOCKED (b2n s.colo.fuses.debugLock)
  let s3 := s2.putPair pgCRYPTO CRYPTO_SERIAL_LO CRYPTO_SERIAL_HI (Config.deviceSerial % 2 ^ 64)
  let s4 := s3.putPair pgCRYPTO CRYPTO_SIG_COUNTER_LO CRYPTO_SIG_COUNTER_HI s.colo.flash.counterEnd
  let s5 := s4.putPair pgCOLOPHON COLOPHON_JOURNAL_SEQ_LO COLOPHON_JOURNAL_SEQ_HI s.colo.journal.next
  let s6 := (List.range 16).foldl (fun s p => s.putPair (pgFEED p) FEED_MAC_LO FEED_MAC_HI (Sys2Proof.Machine.portMac p)) s5
  let s7 := s6.onColo fun c => { c with meas := SMap.set [] c.meas 0 (sha384 (s.fwImage k)) }
  (s7.onFlash fun f => { f with active := k, trial := false }).showOwner.showRollback.kick

/-- Make-ready starts when the last reset cause has ended: the ROM chooses a firmware slot and firmware starts; where none
verifies the device goes into recovery or holds in reset (R734, R735, R910). Units the service map holds retired with
STICKY stay out of service (R684, R736). -/
def State.makeReady (s : State) (b : BootSlots) : State :=
  let d := s.device
  if d.por || d.sys || d.brown || d.thermal || d.test then s
  else
    let recover := (s.put pgCOLOPHON COLOPHON_STATUS_BOOT_MODE d.bootMode).put pgCOLOPHON COLOPHON_STATUS_RECOVERY 1
    let start := fun (s : State) =>
      ((plainPages.foldl (fun s p => s.put p PAGE_STATUS_IN_SERVICE 1) s).put pgCLOCK CLOCK_PLL_STATUS_LOCKED 0xFFF).onDevice
        fun d => { d with stage := 1, failed := (s.colo.flash.service.filter (·.2.2)).map fun x => (x.1, x.2.1) }
    if d.bootMode = 2 then start recover
    else match s.bootSlot b with
      | some k => (start (s.put pgCOLOPHON COLOPHON_STATUS_BOOT_MODE d.bootMode)).firmwareStarts k (headOf b k).version
      | none => if d.bootMode = 1 then start recover else s

/-! ## Reset causes (R33, R905 to R910) -/

/-- POR_N_ASSERT (R33, R910): POR_N falls. -/
def execPorNAssert (s : State) : Result := .next ((s.onDevice fun d => { d with por := true }).deviceReset true)

/-- POR_N_RELEASE (R734, R893, R910): POR_N rises; BOOT_MODE and the TEST balls are sampled. -/
def execPorNRelease (mode : Nat) (test : Bool) (b : BootSlots) (s : State) : Result :=
  if s.device.por then .next ((s.onDevice fun d => { d with por := false, bootMode := mode % 4, test := test }).makeReady b)
  else .next s

/-- SYS_RST_N_ASSERT (R909): SYS_RST_N has been low for 50 Ac cycles; the fault log and the latch are kept (R674). -/
def execSysRstNAssert (s : State) : Result := .next ((s.onDevice fun d => { d with sys := true }).deviceReset false)

/-- SYS_RST_N_RELEASE (R909, R910): SYS_RST_N rises; BOOT_MODE stays as sampled. -/
def execSysRstNRelease (b : BootSlots) (s : State) : Result :=
  if s.device.sys then .next ((s.onDevice fun d => { d with sys := false }).makeReady b) else .next s

/-- BROWNOUT_TRIP (R905, R906). -/
def execBrownoutTrip (s : State) : Result := .next ((s.onDevice fun d => { d with brown := true }).deviceReset true)

/-- BROWNOUT_RELEASE (R905, R906): BOOT_MODE is sampled again. -/
def execBrownoutRelease (mode : Nat) (b : BootSlots) (s : State) : Result :=
  if s.device.brown then .next ((s.onDevice fun d => { d with brown := false, bootMode := mode % 4 }).makeReady b)
  else .next s

/-- THERMAL_RESET (R907): the same reset as a brownout's. -/
def execThermalReset (s : State) : Result := .next ((s.onDevice fun d => { d with thermal := true }).deviceReset true)

/-- THERMAL_RESET_RELEASE (R907): every thermal sensor reads below 120 °C; BOOT_MODE is sampled as at a brownout's release. -/
def execThermalResetRelease (mode : Nat) (b : BootSlots) (s : State) : Result :=
  if s.device.thermal then .next ((s.onDevice fun d => { d with thermal := false, bootMode := mode % 4 }).makeReady b)
  else .next s

/-! ## Proofs of units (R736) -/

/-- Instances of each unit class of R736. -/
def unitCount (cls : Nat) : Nat := [0, 1, 32, 4, 1, 3, 272, 8976, 8, 64, 256, 16, 1, 2, 1].getD cls 0

/-- The page of a unit, on which its fault is counted. -/
def unitPage (cls inst : Nat) : Nat :=
  if cls = 1 then pgCOLOPHON else if cls = 2 then pgSTONE else if cls = 3 then pgREEL inst else if cls = 4 then pgCSTORE
  else if cls = 5 then pgCOMPOSITOR else if cls = 6 then pgGALLEY (inst / 17) else if cls = 7 then pgGALLEY (inst / 561)
  else if cls = 8 then pgWEB inst else if cls = 9 then pgROUTER inst else if cls = 10 then pgROUTER (inst / 4)
  else if cls = 11 then pgFEED inst else if cls = 12 then pgHOST else if cls = 13 then pgLOGPORT inst else pgFRISKET

/-- Whether the page of a class is one unit's alone, so that the unit's proof decides IN_SERVICE. -/
def ownPage (cls : Nat) : Bool := [3, 4, 8, 9, 11, 13, 14].contains cls

/-- Make-ready is under way with firmware running. -/
def State.making (s : State) : Bool := s.device.stage == 1 && !s.on pgCOLOPHON COLOPHON_STATUS_RECOVERY

/-- UNIT_PROOF_DONE (R736): a unit passes, or reports PROOF_FAILED and is retired. A failing Colophon SRAM holds the device in
reset (R735 step 2). Units kept out of service by the service map are not proofed. -/
def execUnitProofDone (cls inst : Nat) (pass : Bool) (s : State) : Result :=
  if s.making = false ∨ unitCount cls ≤ inst ∨ (cls, inst) ∈ s.device.failed then .next s
  else if pass then
    let s1 := if cls = 9 then s.put (pgROUTER inst) ROUTER_STATUS_IN_SERVICE 1 else s
    .next (if ownPage cls then s1.put (unitPage cls inst) PAGE_STATUS_IN_SERVICE 1 else s1)
  else if cls = 1 then .next ((s.deviceReset false).report pgCOLOPHON 0x000 34 0 1)
  else
    let s1 := s.report (unitPage cls inst) 0x000 34 0 (cls + 256 * inst)
    .next ((s1.onDevice fun d => { d with failed := d.failed ++ [(cls, inst)] }).journalFree 4)

/-! ## The patch (R397 to R401) -/

/-- A patch image with a header as R398 lays it out and the length it states. -/
def patchFormed (b : List Byte) : Bool :=
  b.take 4 == ascii "EVSP" && fieldLE b 4 1 == 1 && decide (fieldLE b 12 2 ≤ 1024) && decide (fieldLE b 14 2 ≤ 64) &&
  b.length == 32 + 4 * fieldLE b 14 2 + 32 * fieldLE b 12 2 + 112

/-- The match entries of a plaintext body: ROM address and patch offset. -/
def patchMatches (n : Nat) (body : List Byte) : List (Nat × Nat) :=
  (List.range n).map fun i => (fieldLE body (4 * i) 2, fieldLE body (4 * i + 2) 2)

/-- The signature of a patch image, over every byte before it, verifies under Adkigan's patch key (R398, R399, R730). -/
def State.patchSigned (s : State) (x : PatchSlot) (b : List Byte) : Bool :=
  s.adkKey 4 5 x.key && ecVerify x.key (b.take (b.length - 96)) (b.drop (b.length - 96))

/-- The first check of R399 that an image fails, as the detail of PATCH_INVALID codes it; 0 where it passes. -/
def State.patchCause (s : State) (x : PatchSlot) (b : List Byte) : Nat :=
  let ms := patchMatches (fieldLE b 14 2) x.body
  if s.patchSigned x b = false then 1
  else if fieldLE b 5 1 ≠ 0xB0 then 2
  else if fieldLE b 8 4 < s.colo.fuses.patch then 3
  else if x.tagged = false then 4
  else if ms.any (fun m => decide (0x8000 ≤ m.1) || decide (fieldLE b 12 2 ≤ m.2)) then 5
  else if (ms.map (·.1)).eraseDups.length ≠ ms.length then 6 else 0

/-- The image of a slot, where it holds one. -/
def patchIn (x : PatchSlot) : Option (List Byte) := x.image.filter patchFormed

/-- A patch image loaded: the match registers, patch RAM, CSTORE_STATUS and MEAS1. -/
def State.loadPatch (s : State) (x : PatchSlot) (b : List Byte) : State :=
  let n := fieldLE b 14 2
  let s1 := ((patchMatches n x.body).zip (List.range n)).foldl (fun s m =>
    s.setReg pgCSTORE 0x050 (BitVec.ofNat 32 (2 ^ 31 + m.1.2 * 2 ^ 16 + m.1.1)) (m.2 + 1)) s
  let s2 := s1.onCStore fun c => { c with
    words := (List.range (fieldLE b 12 2)).foldl (fun w i =>
      SMap.set 0 w (0xA000 + i) (fieldLE x.body (4 * n + 32 * i) 22)) c.words }
  let s3 := (s2.put pgCSTORE CSTORE_STATUS_PATCH_VERSION (fieldLE b 6 2)).put pgCSTORE CSTORE_STATUS_MATCHES n
  (s3.put pgCSTORE CSTORE_STATUS_PATCH_OK 1).onColo fun c => { c with meas := SMap.set [] c.meas 1 (sha384 b) }

/-- The patch slots tried in turn (R400). -/
def State.tryPatches (s : State) (first other : PatchSlot) : State :=
  match patchIn first, patchIn other with
  | none, none => s.put pgCSTORE CSTORE_STATUS_PATCH_OK 1
  | some b, none =>
    if s.patchCause first b = 0 then s.loadPatch first b else s.report pgCSTORE 0x01B 14 0 (s.patchCause first b)
  | none, some b =>
    if s.patchCause other b = 0 then s.loadPatch other b else s.report pgCSTORE 0x01B 14 0 (s.patchCause other b)
  | some b, some c =>
    if s.patchCause first b = 0 then s.loadPatch first b
    else if s.patchCause other c = 0 then s.loadPatch other c
    else s.report pgCSTORE 0x01B 14 0 (s.patchCause other c)

/-- PATCH_LOAD (R397 to R401): `a` and `b` what the patch slots A and B hold. The active slot's image is tried first, then the
other's; then the CSTORE page is quoined. -/
def execPatchLoad (a b : PatchSlot) (s : State) : Result :=
  if s.making = false ∨ s.quoined pgCSTORE = true then .next s
  else
    let s1 := if s.colo.flash.active = 0 then s.tryPatches a b else s.tryPatches b a
    .next ((s1.put pgCSTORE PAGE_CTRL_QUOIN 1).put pgCSTORE PAGE_STATUS_QUOINED 1)

/-! ## The end of make-ready (R735 steps 8 to 11) -/

/-- A unit that make-ready has out of service. -/
def State.failedUnit (s : State) (cls inst : Nat) : Bool := s.device.failed.contains (cls, inst)

/-- Failing columns of a physical galley. -/
def State.badColumns (s : State) (g : Nat) : List Nat :=
  (s.device.failed.filter fun x => x.1 == 7 && x.2 / 33 == g).map fun x => x.2 % 33

/-- A galley retired at make-ready: it failed, or two of its columns did (R737). -/
def State.badGalley (s : State) (g : Nat) : Bool := s.failedUnit 6 g || decide (2 ≤ (s.badColumns g).length)

/-- The retired galleys of a row. -/
def State.badGalleys (s : State) (r : Nat) : List Nat := (List.range 17).filter fun p => s.badGalley (17 * r + p)

/-- Rows that stay in service: at most one galley retired (R73, R74). -/
def State.goodRows (s : State) : List Nat := (List.range 16).filter fun r => decide ((s.badGalleys r).length ≤ 1)

/-- One row's page: its retired galley, and the retired column of each other galley. -/
def State.setRow (s : State) (r : Nat) : State :=
  let gone := (s.badGalleys r).getD 0 31
  let s1 := (s.put (pgGALLEY r) GALLEY_REMAP_RETIRED gone).put (pgGALLEY r) PAGE_STATUS_IN_SERVICE 1
  (List.range 17).foldl (fun s p => if p = gone then s
    else s.put (pgGALLEY r) (GALLEY_COL_RETIRED_COLUMN.at p) ((s.badColumns (17 * r + p)).getD 0 63)) s1

/-- The Forme as make-ready leaves it: rows, row map and their pages (R73 to R75, R737). -/
def State.setForme (s : State) : State :=
  let rows := s.goodRows
  let nib := fun (i : Nat) => (List.range 8).foldl (fun w l => w + rows.getD (8 * i + l) 15 * 16 ^ l) 0
  let s1 := ((s.put pgFORME FORME_STATUS_ROWS rows.length).put pgFORME FORME_ROWMAP_LO (nib 0)).put pgFORME FORME_ROWMAP_HI (nib 1)
  rows.foldl State.setRow s1

/-- The Compositor's cores: the pair is the two lowest in service, a third is the spare (R344). -/
def State.setCores (s : State) : State :=
  let up := (List.range 3).filter fun n => !s.failedUnit 5 n
  let s1 := up.foldl (fun s n => s.put pgCOMPOSITOR (coreStateFld n) (if up.length ≠ 1 ∧ (up.take 2).contains n then 2 else 1)) s
  let s2 := if 2 ≤ up.length then
      (s1.put pgCOMPOSITOR COMP_PAIR_FIRST (up.getD 0 0)).put pgCOMPOSITOR COMP_PAIR_SECOND (up.getD 1 0) else s1
  (s2.put pgCOMPOSITOR COMP_PAIR_SPARE (up.getD 2 3)).put pgCOMPOSITOR COMP_PAIR_PAIR_OK (b2n (decide (2 ≤ up.length)))

/-- Bank owners under the table of R525, banks out of service marked 31. -/
def State.ownerTable (s : State) : List Nat :=
  (List.range 32).map fun b => if s.failedUnit 2 b then 31 else ownerDefault b

/-- A required owner without a bank is given the highest-numbered bank of a web that keeps another (R66). DESIGN CHOICE: the
highest-numbered bank of any web where no web has two (notes/assumptions/27.md). -/
def giveBank (own : List Nat) (m : Nat) : List Nat :=
  let webs := (List.range 32).reverse.filter fun b => decide (2 ≤ own.getD b 31) && decide (own.getD b 31 ≤ 9)
  if own.contains m then own
  else match (webs.find? fun b => decide (1 < own.count (own.getD b 31))).or webs.head? with
    | some b => own.set b m
    | none => own

/-- Stone's banks and the webs: owners (R66), webs in service (R67), their ENABLE (R516). -/
def State.setBanks (s : State) : State :=
  let own := [0, 1, 10, 11, 13, 15].foldl giveBank s.ownerTable
  let s1 := (List.range 8).foldl (fun s k =>
    s.setReg pgSTONE (0x040 + 4 * k) (BitVec.ofNat 32 (ofLE ((own.drop (4 * k)).take 4 |>.map (BitVec.ofNat 8 ·))))) s
  (List.range 8).foldl (fun s w =>
    let up := b2n (!s.failedUnit 8 w && own.contains (2 + w))
    (s.put (pgWEB w) PAGE_STATUS_IN_SERVICE up).put (pgWEB w) WEB_CTRL_ENABLE up) s1

/-- Reel stacks in service and the ledger's capacity; the scrub passes and the retrain periods begin (R77, R545, R548, R551,
R555). -/
def State.setStacks (s : State) : State :=
  let s1 := (List.range 4).foldl (fun s k =>
    let up := b2n (!s.failedUnit 3 k)
    (s.put (pgREEL k) REEL_STATUS_IN_SERVICE up).put (pgREEL k) PAGE_STATUS_IN_SERVICE up) s
  let now := (List.range 4).foldl (fun m k => SMap.set 0 m k s.mono) []
  (s1.put pgSTONE STONE_LEDGER_CAPACITY (725000 * s1.stacks.length)).onMem fun m =>
    { m with passStart := now, lastRetrain := now, scrubStart := s.mono }

/-- Routers and links (R586, R589): a failing link is down in both directions. -/
def State.setRouters (s : State) : State :=
  let s1 := (List.range 64).foldl (fun s r =>
    let up := b2n (!s.failedUnit 9 r)
    (s.put (pgROUTER r) ROUTER_STATUS_IN_SERVICE up).put (pgROUTER r) PAGE_STATUS_IN_SERVICE up) s
  let mark := fun (s : State) (r p : Nat) =>
    s.put (pgROUTER r) ROUTER_STATUS_LINK_DOWN (setBit (s.get (pgROUTER r) ROUTER_STATUS_LINK_DOWN) p true)
  (s.device.failed.filter (·.1 == 10)).foldl (fun s x =>
    let r := x.2 / 4
    let p := x.2 % 4
    mark (mark s r p) (neighbour r p) (opposite p)) s1

/-- The other units with a page of their own: control store, feeder ports, host, log ports, Frisket. -/
def State.setPorts (s : State) : State :=
  ([(4, 0), (12, 0), (13, 0), (13, 1), (14, 0)] ++ (List.range 16).map fun p => (11, p)).foldl (fun s (x : Nat × Nat) =>
    s.put (unitPage x.1 x.2) PAGE_STATUS_IN_SERVICE (b2n (!s.failedUnit x.1 x.2))) s

/-- Domains whose unit is out of service are Off (R843). -/
def State.setDomains (s : State) : State :=
  ((List.range 52).filter fun d => 4 ≤ d && !s.on (domPage d) PAGE_STATUS_IN_SERVICE).foldl (fun s d => s.setDomState d 4) s

/-- Step 10: the stored owner images are loaded; a refused one leaves its unit empty (R748, R831). -/
def State.bootImages (s : State) (words entries : List (Nat × Nat)) : State :=
  let img := fun (k : Nat) => SMap.get [] s.colo.flash.owner (s.imgSlot k)
  let s1 := if (img 2).isEmpty ∨ s.friskRefusal (img 2) ≠ 0 ∨ s.failedUnit 14 0 = true then s
    else s.friskLoad (imgBody (img 2)) none
  let s2 := if (img 1).isEmpty then s1 else (s1.loadImage (img 1) words entries).2
  if (img 3).isEmpty then s2 else (s2.loadImage (img 3) words entries).2

/-- Firmware rewrites the service map at the end of make-ready: a unit retired in service that passed its proof leaves it (R684,
R733). -/
def State.serviceMapEnd (s : State) : State :=
  s.onFlash fun f => { f with service := f.service.filter fun x => x.2.2 || s.failedUnit x.1 x.2.1 }

/-- MAKE_READY_DONE (R735 steps 8 to 11, R64 to R75): `failed` the units that steps 5 and 8 take out of service, `words` and
`entries` what a stored image of kind 1 lists. A unit with no failing proof is in service. Regions, flows, directions other
than R585's and event sources are the firmware's own writes before this command. -/
def execMakeReadyDone (failed words entries : List (Nat × Nat)) (s : State) : Result :=
  if s.making = false ∨ s.quoined pgCSTORE = false then .next s
  else
    let more := (failed.filter fun x => decide (x.2 < unitCount x.1) && !s.device.failed.contains x).eraseDups
    let s1 := s.onDevice fun d => { d with failed := d.failed ++ more }
    let s2 := s1.setStacks.setBanks.setForme.setCores.setRouters.setPorts.setDomains
    let s3 := ((s2.put pgHOST HOST_BAR4_BASE_WINDOW_GIB 0).serviceMapEnd.bootImages words entries).journalFree 3
    let s4 := (s3.deviceUpdate.onDevice fun d => { d with stage := 2 }).put pgFAULT FAULT_ALIVE_ENABLE 1
    let s5 := (s4.aliveCheck.put pgCOMPOSITOR COMP_SEQ_CTRL_ENABLE 1).put pgCOLOPHON COLOPHON_STATUS_READY 1
    .next { s5.event pgCOLOPHON 0 with host := { s5.host with retry := s5.on pgHOST HOST_LINK_PERST } }

/-! ## Log ports (R755, R913) -/

/-- LOG_PERST_RELEASE (R755, R913): log port k raises LOGk_PERST_N; `formatOk` whether its drive has the LBA format of R755,
else the port reports PROOF_FAILED of class 13. -/
def execLogPerstRelease (k : Nat) (formatOk : Bool) (s : State) : Result :=
  let k := k % 2
  if s.device.stage = 0 ∨ s.on (pgLOGPORT k) PAGE_STATUS_IN_SERVICE = false ∨ (s.logPort k).perstHigh = true then .next s
  else
    let s1 := s.onLogPort k fun l => { l with perstHigh := true }
    .next (if formatOk then (s1.put (pgLOGPORT k) LOG_STATUS_DRIVE_READY 1).logGo k
      else s1.report (pgLOGPORT k) 0x000 34 0 (13 + 256 * k))

end Sys2Proof.Machine
end

