-- ==== Sys2Proof/Machine/QuireAlu.lean ====
section
/-!
DEFINITION. What the Quire integer, floating-point and vector instructions compute (spec/07 R442 to R449, R454 to R459).
-/
namespace Sys2Proof.Machine

/-! ## Integer register operations (R442, R443) -/

/-- An operation of ra, rb and rc into rd. -/
def qInt (f : W32 → W32 → W32 → W32) : QBody := fun _ _ w _ c =>
  .done (c.setG (qRd w) (f (c.getG (qRa w)) (c.getG (qRb w)) (c.getG (qRc w))))

/-- A Bool as a register word. -/
def wordOf (b : Bool) : W32 := if b then 1 else 0

/-- Bit 0 of rc. -/
def carryIn (c : W32) : Nat := c.toNat % 2

/-- A pair operation: rd even, the two results into rd and rd + 1; an odd rd is ILLEGAL. -/
def qPairOp (lo hi : W32) (cost : Nat) (w : Nat) (c : CoreSt) : QEff :=
  if qRd w % 2 = 1 then .illegal else .done ((c.setG (qRd w) lo).setG (qRd w + 1) hi) cost

/-- The signed product of two words, as 64 bits. -/
def mulS (a b : W32) : Nat := wrap 64 (signed 32 a.toNat * signed 32 b.toNat)

/-- Division (R455): quotient and remainder toward zero; a divisor of 0 gives all ones and the dividend. -/
def divS (a b : W32) : W32 × W32 :=
  if b = 0 then (0xFFFFFFFF#32, a)
  else (BitVec.ofNat 32 (wrap 32 (Int.tdiv (signed 32 a.toNat) (signed 32 b.toNat))),
        BitVec.ofNat 32 (wrap 32 (Int.tmod (signed 32 a.toNat) (signed 32 b.toNat))))
def divU (a b : W32) : W32 × W32 :=
  if b = 0 then (0xFFFFFFFF#32, a) else (BitVec.ofNat 32 (a.toNat / b.toNat), BitVec.ofNat 32 (a.toNat % b.toNat))

/-- Leading zeros. -/
def leadZeros (a : W32) : Nat := 32 - bitLen a.toNat

/-- Fc cycles of a divide (R454, R456). -/
def divCost (c : CoreSt) (a : W32) (sgn : Bool) : Nat :=
  if c.ct then 35
  else 3 + bitLen (if sgn then (signed 32 a.toNat).natAbs else a.toNat)

/-- A divide of ra by rb, its result chosen by `pick`. -/
def qDivide (sgn : Bool) (pick : W32 × W32 → W32) : QBody := fun _ _ w _ c =>
  let a := c.getG (qRa w)
  let b := c.getG (qRb w)
  .done (c.setG (qRd w) (pick (if sgn then divS a b else divU a b))) (divCost c a sgn)

/-- A divide into a register pair. -/
def qDividePair (sgn : Bool) : QBody := fun _ _ w _ c =>
  let a := c.getG (qRa w)
  let b := c.getG (qRb w)
  let q := if sgn then divS a b else divU a b
  qPairOp q.1 q.2 (divCost c a sgn) w c

def qAdd : QBody := qInt fun a b _ => a + b
def qSub : QBody := qInt fun a b _ => a - b
def qAnd : QBody := qInt fun a b _ => a &&& b
def qOr : QBody := qInt fun a b _ => a ||| b
def qXor : QBody := qInt fun a b _ => a ^^^ b
def qAndn : QBody := qInt fun a b _ => a &&& ~~~b
def qSll : QBody := qInt fun a b _ => a <<< (b.toNat % 32)
def qSrl : QBody := qInt fun a b _ => a >>> (b.toNat % 32)
def qSra : QBody := qInt fun a b _ => a.sshiftRight (b.toNat % 32)
def qCmpeq : QBody := qInt fun a b _ => wordOf (a == b)
def qCmplt : QBody := qInt fun a b _ => wordOf (a.slt b)
def qCmpltu : QBody := qInt fun a b _ => wordOf (a.ult b)
def qSel : QBody := qInt fun a b c => if c = 0 then b else a
def qAddx : QBody := qInt fun a b c => BitVec.ofNat 32 (a.toNat + b.toNat + carryIn c)
def qCarx : QBody := qInt fun a b c => wordOf (decide (2 ^ 32 ≤ a.toNat + b.toNat + carryIn c))
def qSubx : QBody := qInt fun a b c => a - b - BitVec.ofNat 32 (carryIn c)
def qBorx : QBody := qInt fun a b c => wordOf (decide (a.toNat < b.toNat + carryIn c))
def qMul : QBody := qInt fun a b _ => a * b
def qMulh : QBody := qInt fun a b _ => BitVec.ofNat 32 (mulS a b / 2 ^ 32)
def qMulhu : QBody := qInt fun a b _ => BitVec.ofNat 32 (a.toNat * b.toNat / 2 ^ 32)
def qClz : QBody := qInt fun a _ _ => BitVec.ofNat 32 (leadZeros a)
def qCtz : QBody := qInt fun a _ _ => BitVec.ofNat 32 ((firstBelow 32 fun k => bit a.toNat k).getD 32)
def qPopc : QBody := qInt fun a _ _ => BitVec.ofNat 32 (popBits 32 a.toNat)
def qBswap : QBody := qInt fun a _ _ => BitVec.ofNat 32 (ofLE (bytesBE 4 a.toNat))
def qSlli : QBody := fun _ _ w _ c => .done (c.setG (qRd w) (c.getG (qRa w) <<< qRb w))
def qSrli : QBody := fun _ _ w _ c => .done (c.setG (qRd w) (c.getG (qRa w) >>> qRb w))
def qSrai : QBody := fun _ _ w _ c => .done (c.setG (qRd w) ((c.getG (qRa w)).sshiftRight (qRb w)))
def qMulw : QBody := fun _ _ w _ c =>
  let p := mulS (c.getG (qRa w)) (c.getG (qRb w))
  qPairOp (BitVec.ofNat 32 p) (BitVec.ofNat 32 (p / 2 ^ 32)) 1 w c
def qMulwu : QBody := fun _ _ w _ c =>
  let p := (c.getG (qRa w)).toNat * (c.getG (qRb w)).toNat
  qPairOp (BitVec.ofNat 32 p) (BitVec.ofNat 32 (p / 2 ^ 32)) 1 w c
def qDiv : QBody := qDivide true (·.1)
def qDivu : QBody := qDivide false (·.1)
def qRem : QBody := qDivide true (·.2)
def qRemu : QBody := qDivide false (·.2)
def qDivw : QBody := qDividePair true
def qDivwu : QBody := qDividePair false

/-! ## Integer immediates (R444) -/

/-- An operation of ra and the immediate into rd. -/
def qImm (f : W32 → Nat → W32) : QBody := fun _ _ w _ c => .done (c.setG (qRd w) (f (c.getG (qRa w)) (qImm16 w)))

def qAddi : QBody := qImm fun a i => a + sextW 16 i
def qAndi : QBody := qImm fun a i => a &&& BitVec.ofNat 32 i
def qOri : QBody := qImm fun a i => a ||| BitVec.ofNat 32 i
def qXori : QBody := qImm fun a i => a ^^^ BitVec.ofNat 32 i
def qLdhi : QBody := qImm fun _ i => BitVec.ofNat 32 (i * 2 ^ 16)
def qCmpeqi : QBody := qImm fun a i => wordOf (a == sextW 16 i)
def qCmplti : QBody := qImm fun a i => wordOf (a.slt (sextW 16 i))
def qCmpltui : QBody := qImm fun a i => wordOf (a.ult (sextW 16 i))

/-! ## Floating point (R447, R456 to R459) -/

/-- A result and its flags into fd. -/
def qFOp (f : Rm → Nat → Nat → Nat × Nat) (cost : CoreSt → Nat → Nat → Nat := fun _ _ _ => 1) : QBody := fun _ _ w _ c =>
  let a := (c.getF (qFa w)).toNat
  let b := (c.getF (qFb w)).toNat
  let r := f c.rm a b
  .done ((c.setF (qFd w) (BitVec.ofNat 32 r.1)).raise r.2) (cost c a b)

/-- A NaN, infinite or zero operand. -/
def fpShort (a : Nat) : Bool := bits a 30 23 == 255 || bits a 30 0 == 0

def qFadd : QBody := qFOp fadd
def qFsub : QBody := qFOp fsub
def qFmul : QBody := qFOp fmul
def qFdiv : QBody := qFOp fdiv fun c a b => if !c.ct && (fpShort a || fpShort b) then 2 else 12
def qFsqrt : QBody := qFOp (fun rm a _ => fsqrt rm a) fun c a _ => if !c.ct && fpShort a then 2 else 12
def qFmin : QBody := qFOp fun _ a b => fminmax false a b
def qFmax : QBody := qFOp fun _ a b => fminmax true a b
def qFabs : QBody := qFOp fun _ a _ => (setBit a 31 false, 0)
def qFneg : QBody := qFOp fun _ a _ => (setBit a 31 (!bit a 31), 0)
def qFmov : QBody := qFOp fun _ a _ => (a, 0)

/-- A result and its flags into a general register named by an F-format field (R441). -/
def qFToG (f : Rm → Nat → Nat → Nat × Nat) : QBody := fun _ _ w _ c =>
  let r := f c.rm (c.getF (qFa w)).toNat (c.getF (qFb w)).toNat
  if 32 ≤ qFd w then .illegal else .done ((c.setG (qFd w) (BitVec.ofNat 32 r.1)).raise r.2)

/-- A general register named by an F-format field into fd. -/
def qGToF (f : Rm → Nat → Nat × Nat) : QBody := fun _ _ w _ c =>
  if 32 ≤ qFa w then .illegal
  else
    let r := f c.rm (c.getG (qFa w)).toNat
    .done ((c.setF (qFd w) (BitVec.ofNat 32 r.1)).raise r.2)

def qFeq : QBody := qFToG fun _ a b => (b2n (feq a b).1, (feq a b).2)
def qFlt : QBody := qFToG fun _ a b => (b2n (flt a b).1, (flt a b).2)
def qFle : QBody := qFToG fun _ a b => (b2n (fle a b).1, (fle a b).2)
def qFcvtws : QBody := qFToG fun rm a _ => fcvtws rm a
def qFcvtwus : QBody := qFToG fun rm a _ => fcvtwus rm a
def qFcvtwsz : QBody := qFToG fun _ a _ => fcvtws .towardZero a
def qFcvtsw : QBody := qGToF fun rm a => fromInt rm (signed 32 a)
def qFcvtswu : QBody := qGToF fun rm a => fromInt rm (a : Int)
def qFmvgf : QBody := qFToG fun _ a _ => (a, 0)
def qFmvfg : QBody := qGToF fun _ a => (a, 0)

/-- A fused multiply-add into fd (format FM). -/
def qFused (negProd negAdd : Bool) : QBody := fun _ _ w _ c =>
  let r := fma c.rm negProd negAdd (c.getF (qFa w)).toNat (c.getF (qFb w)).toNat (c.getF (qFc w)).toNat
  .done ((c.setF (qFd w) (BitVec.ofNat 32 r.1)).raise r.2)

def qFmadd : QBody := qFused false false
def qFmsub : QBody := qFused false true
def qFnmsub : QBody := qFused true false
def qFnmadd : QBody := qFused true true

/-! ## Vector (R448, R449) -/

/-- A lane operation of va, vb and vc into vd; the flags of all lanes together. -/
def qVOp (f : Rm → Nat → Nat → Nat → Nat × Nat) : QBody := fun _ _ w _ c =>
  let va := c.getV (qVa w)
  let vb := c.getV (qVb w)
  let vc := c.getV (qVc w)
  let rs := (List.range 8).map fun k => f c.rm (va.getD k 0).toNat (vb.getD k 0).toNat (vc.getD k 0).toNat
  .done ((c.setV (qVd w) (rs.map fun r => BitVec.ofNat 32 r.1)).raise (rs.foldl (fun n r => n ||| r.2) 0))

/-- All ones or zero. -/
def allOnes (b : Bool) : Nat := if b then 0xFFFFFFFF else 0

def qVadd : QBody := qVOp fun rm a b _ => fadd rm a b
def qVsub : QBody := qVOp fun rm a b _ => fsub rm a b
def qVmul : QBody := qVOp fun rm a b _ => fmul rm a b
def qVfma : QBody := qVOp fun rm a b c => fma rm false false a b c
def qVmin : QBody := qVOp fun _ a b _ => fminmax false a b
def qVmax : QBody := qVOp fun _ a b _ => fminmax true a b
def qVabs : QBody := qVOp fun _ a _ _ => (setBit a 31 false, 0)
def qVneg : QBody := qVOp fun _ a _ _ => (setBit a 31 (!bit a 31), 0)
def qVcmplt : QBody := qVOp fun _ a b _ => (allOnes (flt a b).1, (flt a b).2)
def qVcmpeq : QBody := qVOp fun _ a b _ => (allOnes (feq a b).1, (feq a b).2)
def qVand : QBody := qVOp fun _ a b _ => (a &&& b, 0)
def qVor : QBody := qVOp fun _ a b _ => (a ||| b, 0)
def qVxor : QBody := qVOp fun _ a b _ => (a ^^^ b, 0)
def qVandn : QBody := qVOp fun _ a b _ => (a &&& (0xFFFFFFFF - b), 0)
def qVcvtsw : QBody := qVOp fun rm a _ _ => fromInt rm (signed 32 a)
def qVcvtws : QBody := qVOp fun rm a _ _ => fcvtws rm a
def qVmov : QBody := qVOp fun _ a _ _ => (a, 0)
def qVbcast : QBody := fun _ _ w _ c => .done (c.setV (qVd w) (List.replicate 8 (c.getF (qSr w))))

/-- Neighbours of a list added pair by pair, with their flags. -/
def pairSums (rm : Rm) : List (Nat × Nat) → List (Nat × Nat)
  | x :: y :: zs => let r := fadd rm x.1 y.1; (r.1, x.2 ||| y.2 ||| r.2) :: pairSums rm zs
  | zs => zs

/-- The sum of a list of 2^n values by the tree of VSUM (R448). -/
def treeSum (rm : Rm) : Nat → List (Nat × Nat) → Nat × Nat
  | 0, xs => xs.headD (0, 0)
  | n + 1, xs => treeSum rm n (pairSums rm xs)

def qVsum : QBody := fun _ _ w _ c =>
  let r := treeSum c.rm 3 ((c.getV (qVa w)).map fun x => (x.toNat, 0))
  .done ((c.setF (qSr w) (BitVec.ofNat 32 r.1)).raise r.2)

end Sys2Proof.Machine
end

