-- ==== Sys2Proof/Machine/QuireStep.lean ====
section
/-!
DEFINITION. One instruction of a Quire complex: fetch, the table of instructions, lockstep and voting (spec/07 R429 to
R440; spec/06 R345 to R347, R362 to R365).
-/
namespace Sys2Proof.Machine

/-- Every assigned encoding, by major opcode and function code, with what it does (R442 to R453). -/
def qTable : List ((Nat × Nat) × QBody) :=
  [((0x01, 0x00), qAdd),
   ((0x01, 0x01), qSub),
   ((0x01, 0x02), qAnd),
   ((0x01, 0x03), qOr),
   ((0x01, 0x04), qXor),
   ((0x01, 0x05), qAndn),
   ((0x01, 0x06), qSll),
   ((0x01, 0x07), qSrl),
   ((0x01, 0x08), qSra),
   ((0x01, 0x09), qSlli),
   ((0x01, 0x0A), qSrli),
   ((0x01, 0x0B), qSrai),
   ((0x01, 0x0C), qCmpeq),
   ((0x01, 0x0D), qCmplt),
   ((0x01, 0x0E), qCmpltu),
   ((0x01, 0x0F), qSel),
   ((0x01, 0x10), qAddx),
   ((0x01, 0x11), qCarx),
   ((0x01, 0x12), qSubx),
   ((0x01, 0x13), qBorx),
   ((0x01, 0x14), qMul),
   ((0x01, 0x15), qMulh),
   ((0x01, 0x16), qMulhu),
   ((0x01, 0x17), qMulw),
   ((0x01, 0x18), qMulwu),
   ((0x01, 0x19), qDiv),
   ((0x01, 0x1A), qDivu),
   ((0x01, 0x1B), qRem),
   ((0x01, 0x1C), qRemu),
   ((0x01, 0x1D), qDivw),
   ((0x01, 0x1E), qDivwu),
   ((0x01, 0x1F), qClz),
   ((0x01, 0x20), qCtz),
   ((0x01, 0x21), qPopc),
   ((0x01, 0x22), qBswap),
   ((0x02, 0x00), qAddi),
   ((0x03, 0x00), qAndi),
   ((0x04, 0x00), qOri),
   ((0x05, 0x00), qXori),
   ((0x06, 0x00), qLdhi),
   ((0x07, 0x00), qCmpeqi),
   ((0x08, 0x00), qCmplti),
   ((0x09, 0x00), qCmpltui),
   ((0x10, 0x00), qLdb),
   ((0x11, 0x00), qLdbu),
   ((0x12, 0x00), qLdh),
   ((0x13, 0x00), qLdhu),
   ((0x14, 0x00), qLdw),
   ((0x15, 0x00), qStb),
   ((0x16, 0x00), qSth),
   ((0x17, 0x00), qStw),
   ((0x18, 0x00), qFld),
   ((0x19, 0x00), qFld),
   ((0x1A, 0x00), qFst),
   ((0x1B, 0x00), qFst),
   ((0x1C, 0x00), qVld),
   ((0x1D, 0x00), qVst),
   ((0x1E, 0x00), qLdwx),
   ((0x1E, 0x01), qStwx),
   ((0x1E, 0x02), qLdbux),
   ((0x1E, 0x03), qStbx),
   ((0x1E, 0x10), qVlds),
   ((0x1E, 0x11), qVsts),
   ((0x20, 0x00), qBez),
   ((0x21, 0x00), qBnz),
   ((0x22, 0x00), qJ),
   ((0x23, 0x00), qJl),
   ((0x30, 0x08), qJr),
   ((0x30, 0x09), qJlr),
   ((0x28, 0x00), qFadd),
   ((0x28, 0x01), qFsub),
   ((0x28, 0x02), qFmul),
   ((0x28, 0x03), qFdiv),
   ((0x28, 0x04), qFsqrt),
   ((0x28, 0x05), qFmin),
   ((0x28, 0x06), qFmax),
   ((0x28, 0x07), qFabs),
   ((0x28, 0x08), qFneg),
   ((0x28, 0x09), qFmov),
   ((0x28, 0x10), qFeq),
   ((0x28, 0x11), qFlt),
   ((0x28, 0x12), qFle),
   ((0x28, 0x18), qFcvtws),
   ((0x28, 0x19), qFcvtwus),
   ((0x28, 0x1A), qFcvtwsz),
   ((0x28, 0x1B), qFcvtsw),
   ((0x28, 0x1C), qFcvtswu),
   ((0x28, 0x1D), qFmvgf),
   ((0x28, 0x1E), qFmvfg),
   ((0x29, 0x00), qFmadd),
   ((0x29, 0x01), qFmsub),
   ((0x29, 0x02), qFnmsub),
   ((0x29, 0x03), qFnmadd),
   ((0x2C, 0x00), qVadd),
   ((0x2C, 0x01), qVsub),
   ((0x2C, 0x02), qVmul),
   ((0x2C, 0x03), qVfma),
   ((0x2C, 0x04), qVmin),
   ((0x2C, 0x05), qVmax),
   ((0x2C, 0x06), qVabs),
   ((0x2C, 0x07), qVneg),
   ((0x2C, 0x08), qVcmplt),
   ((0x2C, 0x09), qVcmpeq),
   ((0x2C, 0x0A), qVand),
   ((0x2C, 0x0B), qVor),
   ((0x2C, 0x0C), qVxor),
   ((0x2C, 0x0D), qVandn),
   ((0x2C, 0x0E), qVbcast),
   ((0x2C, 0x0F), qVsum),
   ((0x2C, 0x10), qVcvtsw),
   ((0x2C, 0x11), qVcvtws),
   ((0x2C, 0x12), qVmov),
   ((0x30, 0x00), qTrap),
   ((0x30, 0x01), qBrk),
   ((0x30, 0x02), qRfe),
   ((0x30, 0x03), qRff),
   ((0x30, 0x04), qMfc),
   ((0x30, 0x05), qMtc),
   ((0x30, 0x06), qFence),
   ((0x30, 0x07), qWait),
   ((0x30, 0x10), qSegld),
   ((0x30, 0x11), qSegst),
   ((0x30, 0x20), qEnq),
   ((0x30, 0x21), qEnqv)]

/-- What an encoding does; an unassigned one is ILLEGAL (R440). -/
def qBodyOf (key : Nat × Nat) : Option QBody := (qTable.find? fun x => x.1 == key).map (·.2)

/-! ## Fetch (R429, R435) -/

/-- A line fetched lies in a register page that the index does not assign: an error response to a core (R430). -/
def noPage (la : Nat) : Bool := placeOf la == .regs && (pageBlock ((la - regBase) / 0x1000)).isNone

/-- A 64-byte line as its place gives it: its bytes, or MEM_UNCORR (6) or MEM_ERROR (7). -/
def State.lineRead (s : State) (k la : Nat) : Except Nat (List Byte) :=
  if noPage la then .error 7
  else match (s.placeRead (qMaster k) la 64).1 with
    | .ok bs => .ok bs
    | .uncorr => .error 6
    | .refused => .error 7

/-- The held lines with one put first; four are held (R435). -/
def holdLine (ls : List (Nat × List Byte)) (la : Nat) (bs : List Byte) : List (Nat × List Byte) :=
  ((la, bs) :: ls.filter fun x => x.1 != la).take 4

/-- The lines of a fetch brought in: the held lines and the lines requested, or the cause of a failure and the lines
requested. -/
def State.fetchLines (s : State) (k : Nat) (ls : List (Nat × List Byte)) :
    List Nat → Except (Nat × List Nat) (List (Nat × List Byte) × List Nat)
  | [] => .ok (ls, [])
  | la :: las =>
    match s.fetchLines k ls las with
    | .error e => .error e
    | .ok (h, rq) =>
      match h.find? fun x => x.1 == la with
      | some x => .ok (holdLine h la x.2, rq)
      | none => match s.lineRead k la with
        | .error e => .error (e, la :: rq)
        | .ok bs => .ok (holdLine h la bs, la :: rq)

/-- The line after the one in use, prefetched where the core's regions grant it and it reads without error. -/
def State.prefetch (s : State) (k : Nat) (ls : List (Nat × List Byte)) (la : Nat) : List (Nat × List Byte) × List Nat :=
  if (ls.any fun x => x.1 == la) || !s.regionOk (qMaster k) la 64 false || !s.extentOk la 64 then (ls, [])
  else match s.lineRead k la, ls with
    | .ok bs, x :: xs => ((x :: (la, bs) :: xs).take 4, [la])
    | .ok bs, [] => ([(la, bs)], [la])
    | .error _, _ => (ls, [la])

/-- The little-endian word at a device address among held lines. -/
def wordIn (ls : List (Nat × List Byte)) (a : Nat) : Nat :=
  ofLE ((List.range 4).map fun i =>
    let b := a + i
    match ls.find? fun x => x.1 == b / 64 * 64 with
    | some x => x.2.getD (b % 64) 0
    | none => 0)

/-! ## One core, one instruction -/

/-- A request that leaves a core and is compared (R346). -/
inductive QReq where
  | fetch (a : Nat)
  | load (size : Nat) (as : List Nat)
  | enq (i : Nat)
deriving DecidableEq, Repr

/-- What one core makes of an instruction: the core after it, its requests, a halt (pc and ECAUSE, R463), the key of the
instruction it met (none where the fetch itself failed), and whether it stalled. -/
structure CoreOut where
  core : CoreSt
  reqs : List QReq := []
  halt : Option (Nat × Nat) := none
  key : Option (Nat × Nat) := none
  stalled : Bool := false
deriving DecidableEq, Repr

/-- One instruction of one core: fetch, stall, effect, exception (R429, R438, R440, R460 to R463). A line not held takes its
load time (R435). -/
def State.coreStep (s : State) (k x : Nat) (c : CoreSt) : CoreOut :=
  let p := s.periodFc k
  match s.fetchCheck k c with
  | .error cause => let e := c.except p cause c.pc c.pc 0; { core := e.1, halt := e.2 }
  | .ok a =>
    match s.fetchLines k c.lines ([a / 64 * 64, (a + 3) / 64 * 64].eraseDups) with
    | .error (cause, rq) => let e := c.except p cause c.pc c.pc 0; { core := e.1, reqs := rq.map .fetch, halt := e.2 }
    | .ok (ls, rq) =>
      let pf := s.prefetch k ls (a / 64 * 64 + 64)
      let w := wordIn ls a
      let key := qKey w
      let c1 := { c with lines := pf.1, cycle := c.cycle + loadTime k rq * p }
      let fs := (rq ++ pf.2).map QReq.fetch
      if s.qPending k c w then { core := c, key := some key, stalled := true }
      else
        let eff := match qBodyOf key with
          | some f => f s k w x c1
          | none => .illegal
        match eff with
        | .stall => { core := c, key := some key, stalled := true }
        | .ok c2 pc cost =>
          let c3 := { c2 with pc := alignPc pc, cycle := c2.cycle + cost * p, instret := c2.instret + 1 }
          if pc = alignPc pc then { core := c3, reqs := fs, key := some key }
          else let e := c3.except p ((c3.fetchCause pc).getD 4) pc pc 0; { core := e.1, reqs := fs, halt := e.2, key := some key }
        | .load l cost =>
          { core := { c1 with load := some l, cycle := c1.cycle + cost * p }, reqs := fs ++ [.load l.size l.addrs], key := some key }
        | .enq i =>
          { core := { c1 with pc := c1.nextPc, cycle := c1.cycle + p, instret := c1.instret + 1 }, reqs := fs ++ [.enq i]
            key := some key }
        | .trap cause ea info next =>
          let e := c1.except p cause (if next then c.nextPc else c.pc) ea info
          { core := e.1, reqs := fs, halt := e.2, key := some key }

/-! ## Lockstep (R345 to R347, R362 to R365) -/

/-- What a complex's requests do, once. -/
def State.serveReqs (s : State) (k : Nat) (rs : List QReq) : State :=
  rs.foldl (fun s r => match r with
    | .fetch a => if noPage a then s else ((s.wakeMemory a).placeRead (qMaster k) a 64).2
    | .load _ _ => s
    | .enq i => (s.enqueue i).2) s

/-- The core issues: it is neither halted nor in WAIT. -/
def CoreSt.issues (c : CoreSt) : Bool := !c.halted && !c.waiting

/-- A write of COMP_IMP_CTRL.END waits in the core's write buffer: the core stays at the instruction after it (R356, R358). -/
def CoreSt.ending (c : CoreSt) : Bool :=
  c.wbuf.any fun e => e.any fun x => x.1 == regBase + pgCOMPOSITOR * 0x1000 + 0x064 && bit (ofLE x.2) 0

/-- One instruction of a complex, of the encoding `key`: nothing where the complex does not run or its END is written, where
a load is outstanding, where an interrupt is takeable and so precedes it (R467, R468), where every core halts, waits or
stalls, or where the next instruction is another. The encoding is that of the first core that issues; a core that halts,
waits or stalls alone has no output to compare (R346, R362). -/
def State.quire (s : State) (k : Nat) (key : Option (Nat × Nat)) (x : Nat) : State :=
  let cs := s.complexCores k
  let outs := cs.map fun n =>
    let c := s.core n
    (n, if c.issues then s.coreStep k x c else { core := c, stalled := true })
  let held := cs.any fun n => let c := s.core n; c.load.isSome || (k == 0 && c.ending) || (c.issues && (s.takesFast k c || s.takesNormal k c))
  match outs.find? fun o => !o.2.stalled with
  | none => s
  | some (_, lead) =>
    let meets := match lead.key with
      | none => true
      | some q => if (qBodyOf q).isSome then key == some q else key.isNone
    if held || !meets then s
    else
      match s.compareOutputs k (outs.map fun o => (o.1, o.2.reqs)) with
      | (none, s1) => s1
      | (some rs, s1) =>
        let s2 := outs.foldl (fun s o => s.setCore o.1 o.2.core) s1
        (s2.serveReqs k rs).reportHalt k lead.halt

end Sys2Proof.Machine
end

