-- ==== Sys2Proof/Machine/Quire.lean ====
section
/-!
DEFINITION. The Quire commands (spec/07). Complex k is the Compositor's (0) or the Colophon's (1). A command runs the
instruction at the pc of every core of the complex when that is the instruction it names; else nothing happens.
-/
namespace Sys2Proof.Machine

/-- Q_ADD (R442): Quire rd := ra + rb. -/
def execQAdd (k : Nat) (s : State) : Result := .next (s.quire (k % 2) (some (0x01, 0x00)) 0)

/-- Q_SUB (R442): Quire subtract. -/
def execQSub (k : Nat) (s : State) : Result := .next (s.quire (k % 2) (some (0x01, 0x01)) 0)

/-- Q_AND (R442): Quire AND. -/
def execQAnd (k : Nat) (s : State) : Result := .next (s.quire (k % 2) (some (0x01, 0x02)) 0)

/-- Q_OR (R442): Quire OR. -/
def execQOr (k : Nat) (s : State) : Result := .next (s.quire (k % 2) (some (0x01, 0x03)) 0)

/-- Q_XOR (R442): Quire XOR. -/
def execQXor (k : Nat) (s : State) : Result := .next (s.quire (k % 2) (some (0x01, 0x04)) 0)

/-- Q_ANDN (R442): Quire AND NOT. -/
def execQAndn (k : Nat) (s : State) : Result := .next (s.quire (k % 2) (some (0x01, 0x05)) 0)

/-- Q_SLL (R442): Quire shift left logical. -/
def execQSll (k : Nat) (s : State) : Result := .next (s.quire (k % 2) (some (0x01, 0x06)) 0)

/-- Q_SRL (R442): Quire shift right logical. -/
def execQSrl (k : Nat) (s : State) : Result := .next (s.quire (k % 2) (some (0x01, 0x07)) 0)

/-- Q_SRA (R442): Quire shift right arithmetic. -/
def execQSra (k : Nat) (s : State) : Result := .next (s.quire (k % 2) (some (0x01, 0x08)) 0)

/-- Q_SLLI (R442): Quire shift left by immediate. -/
def execQSlli (k : Nat) (s : State) : Result := .next (s.quire (k % 2) (some (0x01, 0x09)) 0)

/-- Q_SRLI (R442): Quire shift right logical by immediate. -/
def execQSrli (k : Nat) (s : State) : Result := .next (s.quire (k % 2) (some (0x01, 0x0A)) 0)

/-- Q_SRAI (R442): Quire shift right arithmetic by immediate. -/
def execQSrai (k : Nat) (s : State) : Result := .next (s.quire (k % 2) (some (0x01, 0x0B)) 0)

/-- Q_CMPEQ (R442): Quire compare equal. -/
def execQCmpeq (k : Nat) (s : State) : Result := .next (s.quire (k % 2) (some (0x01, 0x0C)) 0)

/-- Q_CMPLT (R442): Quire compare less than, signed. -/
def execQCmplt (k : Nat) (s : State) : Result := .next (s.quire (k % 2) (some (0x01, 0x0D)) 0)

/-- Q_CMPLTU (R442): Quire compare less than, unsigned. -/
def execQCmpltu (k : Nat) (s : State) : Result := .next (s.quire (k % 2) (some (0x01, 0x0E)) 0)

/-- Q_SEL (R442): Quire select. -/
def execQSel (k : Nat) (s : State) : Result := .next (s.quire (k % 2) (some (0x01, 0x0F)) 0)

/-- Q_ADDX (R443): Quire add with carry bit. -/
def execQAddx (k : Nat) (s : State) : Result := .next (s.quire (k % 2) (some (0x01, 0x10)) 0)

/-- Q_CARX (R443): Quire carry out of an add. -/
def execQCarx (k : Nat) (s : State) : Result := .next (s.quire (k % 2) (some (0x01, 0x11)) 0)

/-- Q_SUBX (R443): Quire subtract with borrow bit. -/
def execQSubx (k : Nat) (s : State) : Result := .next (s.quire (k % 2) (some (0x01, 0x12)) 0)

/-- Q_BORX (R443): Quire borrow out of a subtract. -/
def execQBorx (k : Nat) (s : State) : Result := .next (s.quire (k % 2) (some (0x01, 0x13)) 0)

/-- Q_MUL (R442): Quire multiply, low word. -/
def execQMul (k : Nat) (s : State) : Result := .next (s.quire (k % 2) (some (0x01, 0x14)) 0)

/-- Q_MULH (R442): Quire multiply, high word, signed. -/
def execQMulh (k : Nat) (s : State) : Result := .next (s.quire (k % 2) (some (0x01, 0x15)) 0)

/-- Q_MULHU (R442): Quire multiply, high word, unsigned. -/
def execQMulhu (k : Nat) (s : State) : Result := .next (s.quire (k % 2) (some (0x01, 0x16)) 0)

/-- Q_MULW (R442): Quire signed widening multiply into a register pair. -/
def execQMulw (k : Nat) (s : State) : Result := .next (s.quire (k % 2) (some (0x01, 0x17)) 0)

/-- Q_MULWU (R442): Quire unsigned widening multiply into a register pair. -/
def execQMulwu (k : Nat) (s : State) : Result := .next (s.quire (k % 2) (some (0x01, 0x18)) 0)

/-- Q_DIV (R455): Quire signed divide. -/
def execQDiv (k : Nat) (s : State) : Result := .next (s.quire (k % 2) (some (0x01, 0x19)) 0)

/-- Q_DIVU (R455): Quire unsigned divide. -/
def execQDivu (k : Nat) (s : State) : Result := .next (s.quire (k % 2) (some (0x01, 0x1A)) 0)

/-- Q_REM (R455): Quire signed remainder. -/
def execQRem (k : Nat) (s : State) : Result := .next (s.quire (k % 2) (some (0x01, 0x1B)) 0)

/-- Q_REMU (R455): Quire unsigned remainder. -/
def execQRemu (k : Nat) (s : State) : Result := .next (s.quire (k % 2) (some (0x01, 0x1C)) 0)

/-- Q_DIVW (R455): Quire signed quotient and remainder into a register pair. -/
def execQDivw (k : Nat) (s : State) : Result := .next (s.quire (k % 2) (some (0x01, 0x1D)) 0)

/-- Q_DIVWU (R455): Quire unsigned quotient and remainder into a register pair. -/
def execQDivwu (k : Nat) (s : State) : Result := .next (s.quire (k % 2) (some (0x01, 0x1E)) 0)

/-- Q_CLZ (R442): Quire count leading zeros. -/
def execQClz (k : Nat) (s : State) : Result := .next (s.quire (k % 2) (some (0x01, 0x1F)) 0)

/-- Q_CTZ (R442): Quire count trailing zeros. -/
def execQCtz (k : Nat) (s : State) : Result := .next (s.quire (k % 2) (some (0x01, 0x20)) 0)

/-- Q_POPC (R442): Quire population count. -/
def execQPopc (k : Nat) (s : State) : Result := .next (s.quire (k % 2) (some (0x01, 0x21)) 0)

/-- Q_BSWAP (R442): Quire byte swap. -/
def execQBswap (k : Nat) (s : State) : Result := .next (s.quire (k % 2) (some (0x01, 0x22)) 0)

/-- Q_ADDI (R444): Quire add immediate. -/
def execQAddi (k : Nat) (s : State) : Result := .next (s.quire (k % 2) (some (0x02, 0x00)) 0)

/-- Q_ANDI (R444): Quire AND immediate. -/
def execQAndi (k : Nat) (s : State) : Result := .next (s.quire (k % 2) (some (0x03, 0x00)) 0)

/-- Q_ORI (R444): Quire OR immediate. -/
def execQOri (k : Nat) (s : State) : Result := .next (s.quire (k % 2) (some (0x04, 0x00)) 0)

/-- Q_XORI (R444): Quire XOR immediate. -/
def execQXori (k : Nat) (s : State) : Result := .next (s.quire (k % 2) (some (0x05, 0x00)) 0)

/-- Q_LDHI (R444): Quire load immediate into the high half. -/
def execQLdhi (k : Nat) (s : State) : Result := .next (s.quire (k % 2) (some (0x06, 0x00)) 0)

/-- Q_CMPEQI (R444): Quire compare equal to immediate. -/
def execQCmpeqi (k : Nat) (s : State) : Result := .next (s.quire (k % 2) (some (0x07, 0x00)) 0)

/-- Q_CMPLTI (R444): Quire compare less than immediate, signed. -/
def execQCmplti (k : Nat) (s : State) : Result := .next (s.quire (k % 2) (some (0x08, 0x00)) 0)

/-- Q_CMPLTUI (R444): Quire compare less than immediate, unsigned. -/
def execQCmpltui (k : Nat) (s : State) : Result := .next (s.quire (k % 2) (some (0x09, 0x00)) 0)

/-- Q_LDB (R445): Quire load signed byte. -/
def execQLdb (k : Nat) (s : State) : Result := .next (s.quire (k % 2) (some (0x10, 0x00)) 0)

/-- Q_LDBU (R445): Quire load unsigned byte. -/
def execQLdbu (k : Nat) (s : State) : Result := .next (s.quire (k % 2) (some (0x11, 0x00)) 0)

/-- Q_LDH (R445): Quire load signed halfword. -/
def execQLdh (k : Nat) (s : State) : Result := .next (s.quire (k % 2) (some (0x12, 0x00)) 0)

/-- Q_LDHU (R445): Quire load unsigned halfword. -/
def execQLdhu (k : Nat) (s : State) : Result := .next (s.quire (k % 2) (some (0x13, 0x00)) 0)

/-- Q_LDW (R445): Quire load word, segment-checked under R428. -/
def execQLdw (k : Nat) (s : State) : Result := .next (s.quire (k % 2) (some (0x14, 0x00)) 0)

/-- Q_STB (R445): Quire store byte into the write buffer. -/
def execQStb (k : Nat) (s : State) : Result := .next (s.quire (k % 2) (some (0x15, 0x00)) 0)

/-- Q_STH (R445): Quire store halfword. -/
def execQSth (k : Nat) (s : State) : Result := .next (s.quire (k % 2) (some (0x16, 0x00)) 0)

/-- Q_STW (R445): Quire store word. -/
def execQStw (k : Nat) (s : State) : Result := .next (s.quire (k % 2) (some (0x17, 0x00)) 0)

/-- Q_VLD (R464): Quire vector load, all lanes checked first. -/
def execQVld (k : Nat) (s : State) : Result := .next (s.quire (k % 2) (some (0x1C, 0x00)) 0)

/-- Q_VST (R465): Quire vector store. -/
def execQVst (k : Nat) (s : State) : Result := .next (s.quire (k % 2) (some (0x1D, 0x00)) 0)

/-- Q_LDWX (R445): Quire indexed load word. -/
def execQLdwx (k : Nat) (s : State) : Result := .next (s.quire (k % 2) (some (0x1E, 0x00)) 0)

/-- Q_STWX (R445): Quire indexed store word. -/
def execQStwx (k : Nat) (s : State) : Result := .next (s.quire (k % 2) (some (0x1E, 0x01)) 0)

/-- Q_LDBUX (R445): Quire indexed load unsigned byte. -/
def execQLdbux (k : Nat) (s : State) : Result := .next (s.quire (k % 2) (some (0x1E, 0x02)) 0)

/-- Q_STBX (R445): Quire indexed store byte. -/
def execQStbx (k : Nat) (s : State) : Result := .next (s.quire (k % 2) (some (0x1E, 0x03)) 0)

/-- Q_VLDS (R445): Quire strided vector load. -/
def execQVlds (k : Nat) (s : State) : Result := .next (s.quire (k % 2) (some (0x1E, 0x10)) 0)

/-- Q_VSTS (R445): Quire strided vector store. -/
def execQVsts (k : Nat) (s : State) : Result := .next (s.quire (k % 2) (some (0x1E, 0x11)) 0)

/-- Q_BEZ (R446): Quire branch if zero. -/
def execQBez (k : Nat) (s : State) : Result := .next (s.quire (k % 2) (some (0x20, 0x00)) 0)

/-- Q_BNZ (R446): Quire branch if non-zero. -/
def execQBnz (k : Nat) (s : State) : Result := .next (s.quire (k % 2) (some (0x21, 0x00)) 0)

/-- Q_J (R446): Quire jump. -/
def execQJ (k : Nat) (s : State) : Result := .next (s.quire (k % 2) (some (0x22, 0x00)) 0)

/-- Q_JL (R446): Quire jump and link. -/
def execQJl (k : Nat) (s : State) : Result := .next (s.quire (k % 2) (some (0x23, 0x00)) 0)

/-- Q_JR (R446): Quire jump to register. -/
def execQJr (k : Nat) (s : State) : Result := .next (s.quire (k % 2) (some (0x30, 0x08)) 0)

/-- Q_JLR (R446): Quire jump to register and link. -/
def execQJlr (k : Nat) (s : State) : Result := .next (s.quire (k % 2) (some (0x30, 0x09)) 0)

/-- Q_FADD (R447): Quire binary32 add. -/
def execQFadd (k : Nat) (s : State) : Result := .next (s.quire (k % 2) (some (0x28, 0x00)) 0)

/-- Q_FSUB (R447): Quire binary32 subtract. -/
def execQFsub (k : Nat) (s : State) : Result := .next (s.quire (k % 2) (some (0x28, 0x01)) 0)

/-- Q_FMUL (R447): Quire binary32 multiply. -/
def execQFmul (k : Nat) (s : State) : Result := .next (s.quire (k % 2) (some (0x28, 0x02)) 0)

/-- Q_FDIV (R447): Quire binary32 divide. -/
def execQFdiv (k : Nat) (s : State) : Result := .next (s.quire (k % 2) (some (0x28, 0x03)) 0)

/-- Q_FSQRT (R447): Quire binary32 square root. -/
def execQFsqrt (k : Nat) (s : State) : Result := .next (s.quire (k % 2) (some (0x28, 0x04)) 0)

/-- Q_FMIN (R447): Quire minimumNumber. -/
def execQFmin (k : Nat) (s : State) : Result := .next (s.quire (k % 2) (some (0x28, 0x05)) 0)

/-- Q_FMAX (R447): Quire maximumNumber. -/
def execQFmax (k : Nat) (s : State) : Result := .next (s.quire (k % 2) (some (0x28, 0x06)) 0)

/-- Q_FABS (R447): Quire clear sign bit. -/
def execQFabs (k : Nat) (s : State) : Result := .next (s.quire (k % 2) (some (0x28, 0x07)) 0)

/-- Q_FNEG (R447): Quire invert sign bit. -/
def execQFneg (k : Nat) (s : State) : Result := .next (s.quire (k % 2) (some (0x28, 0x08)) 0)

/-- Q_FMOV (R447): Quire f register move. -/
def execQFmov (k : Nat) (s : State) : Result := .next (s.quire (k % 2) (some (0x28, 0x09)) 0)

/-- Q_FEQ (R447): Quire floating compare equal. -/
def execQFeq (k : Nat) (s : State) : Result := .next (s.quire (k % 2) (some (0x28, 0x10)) 0)

/-- Q_FLT (R447): Quire floating compare less than. -/
def execQFlt (k : Nat) (s : State) : Result := .next (s.quire (k % 2) (some (0x28, 0x11)) 0)

/-- Q_FLE (R447): Quire floating compare less or equal. -/
def execQFle (k : Nat) (s : State) : Result := .next (s.quire (k % 2) (some (0x28, 0x12)) 0)

/-- Q_FCVTWS (R447): Quire convert to int32 under RM. -/
def execQFcvtws (k : Nat) (s : State) : Result := .next (s.quire (k % 2) (some (0x28, 0x18)) 0)

/-- Q_FCVTWUS (R447): Quire convert to uint32 under RM. -/
def execQFcvtwus (k : Nat) (s : State) : Result := .next (s.quire (k % 2) (some (0x28, 0x19)) 0)

/-- Q_FCVTWSZ (R447): Quire convert to int32 toward zero. -/
def execQFcvtwsz (k : Nat) (s : State) : Result := .next (s.quire (k % 2) (some (0x28, 0x1A)) 0)

/-- Q_FCVTSW (R447): Quire convert int32 to binary32. -/
def execQFcvtsw (k : Nat) (s : State) : Result := .next (s.quire (k % 2) (some (0x28, 0x1B)) 0)

/-- Q_FCVTSWU (R447): Quire convert uint32 to binary32. -/
def execQFcvtswu (k : Nat) (s : State) : Result := .next (s.quire (k % 2) (some (0x28, 0x1C)) 0)

/-- Q_FMVGF (R447): Quire move f bits to a g register. -/
def execQFmvgf (k : Nat) (s : State) : Result := .next (s.quire (k % 2) (some (0x28, 0x1D)) 0)

/-- Q_FMVFG (R447): Quire move g bits to an f register. -/
def execQFmvfg (k : Nat) (s : State) : Result := .next (s.quire (k % 2) (some (0x28, 0x1E)) 0)

/-- Q_FMADD (R447): Quire fused multiply-add. -/
def execQFmadd (k : Nat) (s : State) : Result := .next (s.quire (k % 2) (some (0x29, 0x00)) 0)

/-- Q_FMSUB (R447): Quire fused multiply-subtract. -/
def execQFmsub (k : Nat) (s : State) : Result := .next (s.quire (k % 2) (some (0x29, 0x01)) 0)

/-- Q_FNMSUB (R447): Quire negated fused multiply, plus the addend. -/
def execQFnmsub (k : Nat) (s : State) : Result := .next (s.quire (k % 2) (some (0x29, 0x02)) 0)

/-- Q_FNMADD (R447): Quire negated fused multiply, minus the addend. -/
def execQFnmadd (k : Nat) (s : State) : Result := .next (s.quire (k % 2) (some (0x29, 0x03)) 0)

/-- Q_VADD (R448): Quire vector add. -/
def execQVadd (k : Nat) (s : State) : Result := .next (s.quire (k % 2) (some (0x2C, 0x00)) 0)

/-- Q_VSUB (R448): Quire vector subtract. -/
def execQVsub (k : Nat) (s : State) : Result := .next (s.quire (k % 2) (some (0x2C, 0x01)) 0)

/-- Q_VMUL (R448): Quire vector multiply. -/
def execQVmul (k : Nat) (s : State) : Result := .next (s.quire (k % 2) (some (0x2C, 0x02)) 0)

/-- Q_VFMA (R448): Quire vector fused multiply-add. -/
def execQVfma (k : Nat) (s : State) : Result := .next (s.quire (k % 2) (some (0x2C, 0x03)) 0)

/-- Q_VMIN (R448): Quire vector minimum. -/
def execQVmin (k : Nat) (s : State) : Result := .next (s.quire (k % 2) (some (0x2C, 0x04)) 0)

/-- Q_VMAX (R448): Quire vector maximum. -/
def execQVmax (k : Nat) (s : State) : Result := .next (s.quire (k % 2) (some (0x2C, 0x05)) 0)

/-- Q_VABS (R448): Quire vector absolute value. -/
def execQVabs (k : Nat) (s : State) : Result := .next (s.quire (k % 2) (some (0x2C, 0x06)) 0)

/-- Q_VNEG (R448): Quire vector negate. -/
def execQVneg (k : Nat) (s : State) : Result := .next (s.quire (k % 2) (some (0x2C, 0x07)) 0)

/-- Q_VCMPLT (R448): Quire vector compare less than. -/
def execQVcmplt (k : Nat) (s : State) : Result := .next (s.quire (k % 2) (some (0x2C, 0x08)) 0)

/-- Q_VCMPEQ (R448): Quire vector compare equal. -/
def execQVcmpeq (k : Nat) (s : State) : Result := .next (s.quire (k % 2) (some (0x2C, 0x09)) 0)

/-- Q_VAND (R448): Quire vector AND. -/
def execQVand (k : Nat) (s : State) : Result := .next (s.quire (k % 2) (some (0x2C, 0x0A)) 0)

/-- Q_VOR (R448): Quire vector OR. -/
def execQVor (k : Nat) (s : State) : Result := .next (s.quire (k % 2) (some (0x2C, 0x0B)) 0)

/-- Q_VXOR (R448): Quire vector XOR. -/
def execQVxor (k : Nat) (s : State) : Result := .next (s.quire (k % 2) (some (0x2C, 0x0C)) 0)

/-- Q_VANDN (R448): Quire vector AND NOT. -/
def execQVandn (k : Nat) (s : State) : Result := .next (s.quire (k % 2) (some (0x2C, 0x0D)) 0)

/-- Q_VBCAST (R448): Quire vector broadcast. -/
def execQVbcast (k : Nat) (s : State) : Result := .next (s.quire (k % 2) (some (0x2C, 0x0E)) 0)

/-- Q_VSUM (R448): Quire vector tree sum into an f register. -/
def execQVsum (k : Nat) (s : State) : Result := .next (s.quire (k % 2) (some (0x2C, 0x0F)) 0)

/-- Q_VCVTSW (R448): Quire vector convert int32 to binary32. -/
def execQVcvtsw (k : Nat) (s : State) : Result := .next (s.quire (k % 2) (some (0x2C, 0x10)) 0)

/-- Q_VCVTWS (R448): Quire vector convert binary32 to int32. -/
def execQVcvtws (k : Nat) (s : State) : Result := .next (s.quire (k % 2) (some (0x2C, 0x11)) 0)

/-- Q_VMOV (R448): Quire vector move. -/
def execQVmov (k : Nat) (s : State) : Result := .next (s.quire (k % 2) (some (0x2C, 0x12)) 0)

/-- Q_TRAP (R450): Quire raises TRAP with its immediate. -/
def execQTrap (k : Nat) (s : State) : Result := .next (s.quire (k % 2) (some (0x30, 0x00)) 0)

/-- Q_BRK (R450): Quire raises BREAK. -/
def execQBrk (k : Nat) (s : State) : Result := .next (s.quire (k % 2) (some (0x30, 0x01)) 0)

/-- Q_RFE (R471): Quire return from exception or normal interrupt. -/
def execQRfe (k : Nat) (s : State) : Result := .next (s.quire (k % 2) (some (0x30, 0x02)) 0)

/-- Q_RFF (R471): Quire return from a fast-class handler. -/
def execQRff (k : Nat) (s : State) : Result := .next (s.quire (k % 2) (some (0x30, 0x03)) 0)

/-- Q_MTC (R423): Quire write of a control register. -/
def execQMtc (k : Nat) (s : State) : Result := .next (s.quire (k % 2) (some (0x30, 0x05)) 0)

/-- Q_FENCE (R436): Quire waits for the write buffer to drain and drops the held code lines. -/
def execQFence (k : Nat) (s : State) : Result := .next (s.quire (k % 2) (some (0x30, 0x06)) 0)

/-- Q_WAIT (R450): Quire idles until an interrupt request is present. -/
def execQWait (k : Nat) (s : State) : Result := .next (s.quire (k % 2) (some (0x30, 0x07)) 0)

/-- Q_SEGLD (R427): Quire load of a segment descriptor. -/
def execQSegld (k : Nat) (s : State) : Result := .next (s.quire (k % 2) (some (0x30, 0x10)) 0)

/-- Q_SEGST (R451): Quire store of a segment descriptor. -/
def execQSegst (k : Nat) (s : State) : Result := .next (s.quire (k % 2) (some (0x30, 0x11)) 0)

/-- Q_ENQ (R452): Quire enqueue of a Forme instruction from four g registers. -/
def execQEnq (k : Nat) (s : State) : Result := .next (s.quire (k % 2) (some (0x30, 0x20)) 0)

/-- Q_ENQV (R452): Quire enqueue of a Forme instruction from vector lanes. -/
def execQEnqv (k : Nat) (s : State) : Result := .next (s.quire (k % 2) (some (0x30, 0x21)) 0)

/-- Whether the next instruction of a complex is the second of two encodings. -/
def State.atSecond (s : State) (k : Nat) (key : Nat × Nat) : Bool :=
  match s.complexCores k with
  | [] => false
  | n :: _ => (s.coreStep k 0 (s.core n)).key == some key

/-- Q_FLD (R445): Quire load to an f register, in either half. -/
def execQFld (k : Nat) (s : State) : Result :=
  .next (s.quire (k % 2) (some (if s.atSecond (k % 2) (0x19, 0) then (0x19, 0) else (0x18, 0))) 0)

/-- Q_FST (R445): Quire store from an f register, in either half. -/
def execQFst (k : Nat) (s : State) : Result :=
  .next (s.quire (k % 2) (some (if s.atSecond (k % 2) (0x1B, 0) then (0x1B, 0) else (0x1A, 0))) 0)

/-- Q_MFC (R423, R424): Quire read of a control register; `cycle` is the elapsed Fc cycles since reset that a read of
CYCLE_LO returns. -/
def execQMfc (k cycle : Nat) (s : State) : Result := .next (s.quire (k % 2) (some (0x30, 0x04)) cycle)

/-- Q_ILLEGAL (R440): an unassigned encoding raises ILLEGAL. -/
def execQIllegal (k : Nat) (s : State) : Result := .next (s.quire (k % 2) none 0)

/-! ## Stores, waits and interrupts -/

/-- The cores whose write buffers drain: those that execute, and after END those of the execution that ended. -/
def State.drainCores (s : State) (k : Nat) : List Nat :=
  if k = 0 then (if (s.comp.phase = 1 ∨ s.comp.phase = 2) ∧ s.comp.suppressed = false then s.comp.cores else [])
  else s.complexCores k

/-- WAIT_RELEASE (R450): a request reaches a core in WAIT; it goes on, or takes the interrupt. -/
def execWaitRelease (k : Nat) (s : State) : Result :=
  let k := k % 2
  if s.requestPresent k = false then .next s
  else .next ((s.complexCores k).foldl (fun s n => let c := s.core n; s.setCore n { c with waiting := false }) s)

/-- A core at an instruction boundary (R467). -/
def CoreSt.atBoundary (c : CoreSt) : Bool := !c.halted && c.load.isNone

/-- The cores of a complex that take an interrupt go to its handler; with one that does, its acceptance, of the level
presented then, is on its way to the Event Controller (R467 to R470, R636). -/
def State.takeInterrupt (s : State) (k : Nat) (fast : Bool) (takes : CoreSt → Bool) (enter : CoreSt → CoreSt) : State :=
  let ns := (s.complexCores k).filter fun n => let c := s.core n; c.atBoundary && takes c
  let s1 := ns.foldl (fun s' n => s'.setCore n (enter (s.core n))) s
  if ns = [] then s1
  else s1.onEvt fun e => { e with accepting := e.accepting ++ [(k, fast, (s.presented k fast).getD 0)] }

/-- Entry of the normal class: EPC, ESTATUS, ECAUSE 16, EXL, 4 periods (R469). -/
def CoreSt.enterNormal (c : CoreSt) (p : Nat) : CoreSt :=
  { c with epc := c.pc, estatus := c.qstatus, ecause := 16, qstatus := c.qstatus ||| 0x20#32, pc := alignPc c.hvecNormal
           waiting := false, cycle := c.cycle + 4 * p }.fresh [128, 129, 130, 131]

/-- Entry of the fast class: FEPC, FESTATUS, FAST, 2 periods (R470). -/
def CoreSt.enterFast (c : CoreSt) (p : Nat) : CoreSt :=
  { c with fepc := c.pc, festatus := c.qstatus, qstatus := c.qstatus ||| 0x40#32, pc := alignPc c.hvecFast
           waiting := false, cycle := c.cycle + 2 * p }.fresh [128, 133, 134]

/-- INTERRUPT_ENTRY_NORMAL (R469). -/
def execInterruptEntryNormal (k : Nat) (s : State) : Result :=
  let k := k % 2
  .next (s.takeInterrupt k false (s.takesNormal k) (·.enterNormal (s.periodFc k)))

/-- INTERRUPT_ENTRY_FAST (R470). -/
def execInterruptEntryFast (k : Nat) (s : State) : Result :=
  let k := k % 2
  .next (s.takeInterrupt k true (s.takesFast k) (·.enterFast (s.periodFc k)))

end Sys2Proof.Machine
end

