-- ==== Sys2Proof/Machine/QuireBus.lean ====
section
/-!
DEFINITION. What a Quire core's stores and loads do on their way to memory and back (spec/07, R427, R430 to R436, R464,
R465).
-/
namespace Sys2Proof.Machine

/-- STORE_DRAIN (R346, R347, R431, R433): the oldest store of a complex's write buffers passes the comparator or the voter
and is accepted by its memory. An access that meets an error is reported where it is met. -/
def execStoreDrain (k : Nat) (s : State) : Result :=
  let k := k % 2
  let heads := (s.drainCores k).map fun n => (n, (s.core n).wbuf.head?)
  if heads.all fun h => h.2.isNone then .next s
  else
    let r := s.compareOutputs k heads
    match r.1 with
    | some (some e) =>
      let s1 := heads.foldl (fun s h => let c := s.core h.1; s.setCore h.1 { c with wbuf := c.wbuf.drop 1 }) r.2
      .next (e.foldl (fun s x => ((s.wakeMemory x.1).placeWrite (qMaster k) x.1 x.2).2) s1)
    | _ => .next r.2

/-- One access of a load: its bytes, or the cause of its exception (R430). A register page the index does not assign is an
error response to a core. -/
def State.loadAccess (s : State) (m a size : Nat) : Except Nat (List Byte) × State :=
  if placeOf a = .regs ∧ (pageBlock ((a - regBase) / 0x1000)).isNone then (.error 7, s)
  else match (s.wakeMemory a).placeRead m a size with
    | (.ok bs, s1) => (.ok bs, s1)
    | (.refused, s1) => (.error 7, s1)
    | (.uncorr, s1) => (.error 6, s1)

/-- The accesses of a load in lane order, from lane n: the bytes of all, or the lowest that failed, its address and cause
(R465). -/
def State.loadAll (s : State) (m size : Nat) : Nat → List Nat → Except (Nat × Nat × Nat) (List Byte) × State
  | _, [] => (.ok [], s)
  | n, a :: as =>
    let r := s.loadAccess m a size
    let rest := r.2.loadAll m size (n + 1) as
    match r.1, rest.1 with
    | .error c, _ => (.error (n, a, c), rest.2)
    | .ok _, .error e => (.error e, rest.2)
    | .ok bs, .ok cs => (.ok (bs ++ cs), rest.2)

/-- A core whose load has ended: it goes on at the next instruction. -/
def CoreSt.loaded (c : CoreSt) : CoreSt := { c with load := none, instret := c.instret + 1, pc := c.nextPc }

/-- A load's bytes written to its destination; SEGLD checks its descriptor and, to sc, goes on at its target (R427, R451). -/
def CoreSt.takeLoad (c : CoreSt) (p : Nat) (l : Load) (bs : List Byte) : CoreSt × Option (Nat × Nat) :=
  match l.dst with
  | .g r n sgn => (c.loaded.setG r (BitVec.ofNat 32 (wrap 32 (if sgn then signed (8 * n) (ofLE bs) else (ofLE bs : Int)))), none)
  | .f r => (c.loaded.setF r (BitVec.ofNat 32 (ofLE bs)), none)
  | .v r => (c.loaded.setV r ((List.range 8).map fun n => BitVec.ofNat 32 (fieldLE bs (4 * n) 4)), none)
  | .seg r pc off =>
    let g := segOf bs
    if 2 ^ 48 < g.base + g.limit ∨ (r = 8 ∧ bit g.rights 2 = false) then
      ({ c with load := none } : CoreSt).except p 8 c.pc (BitVec.ofNat 32 off) 0
    else
      let c1 := { c.loaded with seg := SMap.set Seg.none c.seg r g }.fresh [112 + r]
      if r ≠ 8 then (c1, none)
      else
        let t : W32 := BitVec.ofNat 32 pc
        let c2 := { c1 with pc := alignPc t }
        if t = alignPc t then (c2, none) else c2.except p ((c2.fetchCause t).getD 4) t t 0

/-- A load that failed: the destination is unchanged (R430, R461, R465). -/
def CoreSt.failLoad (c : CoreSt) (p : Nat) (l : Load) (lane a cause : Nat) : CoreSt × Option (Nat × Nat) :=
  let info := match l.dst with
    | .v _ => laneInfo lane
    | _ => 0
  ({ c with load := none } : CoreSt).except p cause c.pc (BitVec.ofNat 32 a) info

/-- QUIRE_LOAD_DATA (R430, R432, R464, R465): the data of the load that a complex's cores wait for arrives. -/
def execQuireLoadData (k : Nat) (s : State) : Result :=
  let k := k % 2
  let cs := (s.complexCores k).filter fun n => (s.core n).load.isSome
  match cs with
  | [] => .next s
  | n :: _ =>
    match (s.core n).load with
    | none => .next s
    | some l =>
      let r := s.loadAll (qMaster k) l.size 0 l.addrs
      let outs := cs.map fun n =>
        let c := s.core n
        let own := c.load.getD l
        (n, match r.1 with
          | .ok bs => c.takeLoad (s.periodFc k) own bs
          | .error (lane, a, cause) => c.failLoad (s.periodFc k) own lane a cause)
      let s1 := outs.foldl (fun s o => s.setCore o.1 o.2.1) r.2
      .next (s1.reportHalt k ((outs.head?.bind fun o => o.2.2)))

end Sys2Proof.Machine
end

