-- ==== Sys2Proof/Machine/Dispatch.lean ====
section
/-!
DEFINITION. What each command does: one arm per constructor of Instr, each the call of its own meaning.
-/
namespace Sys2Proof.Machine

/-- The effect of a command on everything but the queue. -/
def exec (i : Instr) (s : State) : Host.Outcome State Fault Refusal :=
  match i with
  | .porNAssert => Sys2Proof.Machine.execPorNAssert s
  | .porNRelease mode test b => Sys2Proof.Machine.execPorNRelease mode test b s
  | .sysRstNAssert => Sys2Proof.Machine.execSysRstNAssert s
  | .sysRstNRelease b => Sys2Proof.Machine.execSysRstNRelease b s
  | .brownoutTrip => Sys2Proof.Machine.execBrownoutTrip s
  | .brownoutRelease mode b => Sys2Proof.Machine.execBrownoutRelease mode b s
  | .thermalReset => Sys2Proof.Machine.execThermalReset s
  | .unitProofDone cls inst pass => Sys2Proof.Machine.execUnitProofDone cls inst pass s
  | .patchLoad a b => Sys2Proof.Machine.execPatchLoad a b s
  | .makeReadyDone failed words entries => Sys2Proof.Machine.execMakeReadyDone failed words entries s
  | .wakeNAssert t => Sys2Proof.Machine.execWakeNAssert t s
  | .perstAssert => Sys2Proof.Machine.execPerstAssert s
  | .perstRelease => Sys2Proof.Machine.execPerstRelease s
  | .functionLevelReset => Sys2Proof.Machine.execFunctionLevelReset s
  | .logPerstRelease k formatOk => Sys2Proof.Machine.execLogPerstRelease k formatOk s
  | .registerWrite m p off data t => Sys2Proof.Machine.execRegisterWrite m p off data t s
  | .counterRead m p off => Sys2Proof.Machine.execCounterRead m p off s
  | .loCaptureRead m p off => Sys2Proof.Machine.execLoCaptureRead m p off s
  | .quoinSet m p v => Sys2Proof.Machine.execQuoinSet m p v s
  | .softReset m p v => Sys2Proof.Machine.execSoftReset m p v s
  | .softResetDone p => Sys2Proof.Machine.execSoftResetDone p s
  | .probeClear m p v => Sys2Proof.Machine.execProbeClear m p v s
  | .probeWrap p t => Sys2Proof.Machine.execProbeWrap p t s
  | .hostBarRequest q t => Sys2Proof.Machine.execHostBarRequest q t s
  | .hostBar4BaseWrite m v => Sys2Proof.Machine.execHostBar4BaseWrite m v s
  | .hostRequestError n => Sys2Proof.Machine.execHostRequestError n s
  | .msixUnmask vector => Sys2Proof.Machine.execMsixUnmask vector s
  | .hostLinkChange up speed width t => Sys2Proof.Machine.execHostLinkChange up speed width t s
  | .hostLinkL1Entry t => Sys2Proof.Machine.execHostLinkL1Entry t s
  | .feedFrameReceive p f t => Sys2Proof.Machine.execFeedFrameReceive p f t s
  | .feedEnableWrite m p v t => Sys2Proof.Machine.execFeedEnableWrite m p v t s
  | .feedPairingOpen m p => Sys2Proof.Machine.execFeedPairingOpen m p s
  | .blockLockGain p t => Sys2Proof.Machine.execBlockLockGain p t s
  | .blockLockLoss p inFrame t => Sys2Proof.Machine.execBlockLockLoss p inFrame t s
  | .speedWindowExpiry p => Sys2Proof.Machine.execSpeedWindowExpiry p s
  | .lockHoldExpiry p => Sys2Proof.Machine.execLockHoldExpiry p s
  | .lldpTransmit p => Sys2Proof.Machine.execLldpTransmit p s
  | .lldpReceive p pdu => Sys2Proof.Machine.execLldpReceive p pdu s
  | .helloOffer p f t => Sys2Proof.Machine.execHelloOffer p f t s
  | .helloConfirm p f t => Sys2Proof.Machine.execHelloConfirm p f t s
  | .helloLeave p f t => Sys2Proof.Machine.execHelloLeave p f t s
  | .helloKeepalive p f t => Sys2Proof.Machine.execHelloKeepalive p f t s
  | .helloPairRequest p f t => Sys2Proof.Machine.execHelloPairRequest p f t s
  | .helloBadStep p f => Sys2Proof.Machine.execHelloBadStep p f s
  | .confirmTimeout ix => Sys2Proof.Machine.execConfirmTimeout ix s
  | .feederLiveExpiry ix t => Sys2Proof.Machine.execFeederLiveExpiry ix t s
  | .staleHoldExpiry ix t => Sys2Proof.Machine.execStaleHoldExpiry ix t s
  | .ftIndexCapture m ix t => Sys2Proof.Machine.execFtIndexCapture m ix t s
  | .ftEvict m ix t => Sys2Proof.Machine.execFtEvict m ix t s
  | .pairConfirmWrite m p code => Sys2Proof.Machine.execPairConfirmWrite m p code s
  | .pairingTimeout p => Sys2Proof.Machine.execPairingTimeout p s
  | .eapolReceive p serial authentic live t => Sys2Proof.Machine.execEapolReceive p serial authentic live t s
  | .mkaHelloTransmit p => Sys2Proof.Machine.execMkaHelloTransmit p s
  | .mkaLifeExpiry p t => Sys2Proof.Machine.execMkaLifeExpiry p t s
  | .ptpFrameReceive p f sync t => Sys2Proof.Machine.execPtpFrameReceive p f sync t s
  | .ptpMessageSend p body t => Sys2Proof.Machine.execPtpMessageSend p body t s
  | .ptpAdjFreqWrite m v t => Sys2Proof.Machine.execPtpAdjFreqWrite m v t s
  | .ptpAdjStep m v t => Sys2Proof.Machine.execPtpAdjStep m v t s
  | .ptpTimeCaptureRead m t => Sys2Proof.Machine.execPtpTimeCaptureRead m t s
  | .ppsInEdge t => Sys2Proof.Machine.execPpsInEdge t s
  | .ppsTimeout t => Sys2Proof.Machine.execPpsTimeout t s
  | .ptpMasterLost t => Sys2Proof.Machine.execPtpMasterLost t s
  | .deviceSecond t => Sys2Proof.Machine.execDeviceSecond t s
  | .sheetDataFrame p f t => Sys2Proof.Machine.execSheetDataFrame p f t s
  | .stoneDataReady => Sys2Proof.Machine.execStoneDataReady s
  | .impressionTick t => Sys2Proof.Machine.execImpressionTick t s
  | .reelCalSlot t => Sys2Proof.Machine.execReelCalSlot t s
  | .halfPressExceeded t => Sys2Proof.Machine.execHalfPressExceeded t s
  | .imposeCommit m => Sys2Proof.Machine.execImposeCommit m s
  | .imposeValidationDone => Sys2Proof.Machine.execImposeValidationDone s
  | .imposeTableScrub bad => Sys2Proof.Machine.execImposeTableScrub bad s
  | .slotIndexCapture m k => Sys2Proof.Machine.execSlotIndexCapture m k s
  | .driveCommit m => Sys2Proof.Machine.execDriveCommit m s
  | .driveValidationDone => Sys2Proof.Machine.execDriveValidationDone s
  | .fadeReqWrite m v t => Sys2Proof.Machine.execFadeReqWrite m v t s
  | .fadeFrameRepeat t => Sys2Proof.Machine.execFadeFrameRepeat t s
  | .fadeDone t => Sys2Proof.Machine.execFadeDone t s
  | .fadeClear m v t => Sys2Proof.Machine.execFadeClear m v t s
  | .fmNop => Sys2Proof.Machine.execFmNop s
  | .fmMov => Sys2Proof.Machine.execFmMov s
  | .fmMovh => Sys2Proof.Machine.execFmMovh s
  | .fmSeti => Sys2Proof.Machine.execFmSeti s
  | .fmGetf => Sys2Proof.Machine.execFmGetf s
  | .fmAdd => Sys2Proof.Machine.execFmAdd s
  | .fmAddc => Sys2Proof.Machine.execFmAddc s
  | .fmSub => Sys2Proof.Machine.execFmSub s
  | .fmSubc => Sys2Proof.Machine.execFmSubc s
  | .fmNeg => Sys2Proof.Machine.execFmNeg s
  | .fmAbs => Sys2Proof.Machine.execFmAbs s
  | .fmAdds => Sys2Proof.Machine.execFmAdds s
  | .fmSubs => Sys2Proof.Machine.execFmSubs s
  | .fmMul => Sys2Proof.Machine.execFmMul s
  | .fmMac => Sys2Proof.Machine.execFmMac s
  | .fmAnd => Sys2Proof.Machine.execFmAnd s
  | .fmOr => Sys2Proof.Machine.execFmOr s
  | .fmXor => Sys2Proof.Machine.execFmXor s
  | .fmAndn => Sys2Proof.Machine.execFmAndn s
  | .fmNot => Sys2Proof.Machine.execFmNot s
  | .fmBool => Sys2Proof.Machine.execFmBool s
  | .fmCmp => Sys2Proof.Machine.execFmCmp s
  | .fmTst => Sys2Proof.Machine.execFmTst s
  | .fmFlag => Sys2Proof.Machine.execFmFlag s
  | .fmSel => Sys2Proof.Machine.execFmSel s
  | .fmMax => Sys2Proof.Machine.execFmMax s
  | .fmMin => Sys2Proof.Machine.execFmMin s
  | .fmNews => Sys2Proof.Machine.execFmNews s
  | .fmPlor => Sys2Proof.Machine.execFmPlor s
  | .fmPland => Sys2Proof.Machine.execFmPland s
  | .fmPlabt => Sys2Proof.Machine.execFmPlabt s
  | .fmPlcnt => Sys2Proof.Machine.execFmPlcnt s
  | .fmPlfst => Sys2Proof.Machine.execFmPlfst s
  | .fmLdg => Sys2Proof.Machine.execFmLdg s
  | .fmStg => Sys2Proof.Machine.execFmStg s
  | .fmWait => Sys2Proof.Machine.execFmWait s
  | .fmWaitEnd n => Sys2Proof.Machine.execFmWaitEnd n s
  | .customerRoutine n => Sys2Proof.Machine.execCustomerRoutine n s
  | .platenResult t => Sys2Proof.Machine.execPlatenResult t s
  | .galleyIoDone => Sys2Proof.Machine.execGalleyIoDone s
  | .waitTimeout => Sys2Proof.Machine.execWaitTimeout s
  | .routineBudgetExpiry => Sys2Proof.Machine.execRoutineBudgetExpiry s
  | .routineBoundary => Sys2Proof.Machine.execRoutineBoundary s
  | .caseScrubDue => Sys2Proof.Machine.execCaseScrubDue s
  | .eClearWrite m v => Sys2Proof.Machine.execEClearWrite m v s
  | .migrationDone => Sys2Proof.Machine.execMigrationDone s
  | .dbgAddrWrite r m v => Sys2Proof.Machine.execDbgAddrWrite r m v s
  | .dbgDataWrite r m v => Sys2Proof.Machine.execDbgDataWrite r m v s
  | .dbgDone r => Sys2Proof.Machine.execDbgDone r s
  | .impEndWrite m v => Sys2Proof.Machine.execImpEndWrite m v s
  | .executionEnd t => Sys2Proof.Machine.execExecutionEnd t s
  | .xcheckPass => Sys2Proof.Machine.execXcheckPass s
  | .spareCoreProof passes => Sys2Proof.Machine.execSpareCoreProof passes s
  | .seqRearm m v => Sys2Proof.Machine.execSeqRearm m v s
  | .seqFlush m v => Sys2Proof.Machine.execSeqFlush m v s
  | .seqEnableWrite m v => Sys2Proof.Machine.execSeqEnableWrite m v s
  | .cstoreWindowWrite m addr data => Sys2Proof.Machine.execCstoreWindowWrite m addr data s
  | .dispatchEntryWrite m v => Sys2Proof.Machine.execDispatchEntryWrite m v s
  | .cstoreMatchWrite m v => Sys2Proof.Machine.execCstoreMatchWrite m v s
  | .qAdd k => Sys2Proof.Machine.execQAdd k s
  | .qSub k => Sys2Proof.Machine.execQSub k s
  | .qAnd k => Sys2Proof.Machine.execQAnd k s
  | .qOr k => Sys2Proof.Machine.execQOr k s
  | .qXor k => Sys2Proof.Machine.execQXor k s
  | .qAndn k => Sys2Proof.Machine.execQAndn k s
  | .qSll k => Sys2Proof.Machine.execQSll k s
  | .qSrl k => Sys2Proof.Machine.execQSrl k s
  | .qSra k => Sys2Proof.Machine.execQSra k s
  | .qSlli k => Sys2Proof.Machine.execQSlli k s
  | .qSrli k => Sys2Proof.Machine.execQSrli k s
  | .qSrai k => Sys2Proof.Machine.execQSrai k s
  | .qCmpeq k => Sys2Proof.Machine.execQCmpeq k s
  | .qCmplt k => Sys2Proof.Machine.execQCmplt k s
  | .qCmpltu k => Sys2Proof.Machine.execQCmpltu k s
  | .qSel k => Sys2Proof.Machine.execQSel k s
  | .qAddx k => Sys2Proof.Machine.execQAddx k s
  | .qCarx k => Sys2Proof.Machine.execQCarx k s
  | .qSubx k => Sys2Proof.Machine.execQSubx k s
  | .qBorx k => Sys2Proof.Machine.execQBorx k s
  | .qMul k => Sys2Proof.Machine.execQMul k s
  | .qMulh k => Sys2Proof.Machine.execQMulh k s
  | .qMulhu k => Sys2Proof.Machine.execQMulhu k s
  | .qMulw k => Sys2Proof.Machine.execQMulw k s
  | .qMulwu k => Sys2Proof.Machine.execQMulwu k s
  | .qDiv k => Sys2Proof.Machine.execQDiv k s
  | .qDivu k => Sys2Proof.Machine.execQDivu k s
  | .qRem k => Sys2Proof.Machine.execQRem k s
  | .qRemu k => Sys2Proof.Machine.execQRemu k s
  | .qDivw k => Sys2Proof.Machine.execQDivw k s
  | .qDivwu k => Sys2Proof.Machine.execQDivwu k s
  | .qClz k => Sys2Proof.Machine.execQClz k s
  | .qCtz k => Sys2Proof.Machine.execQCtz k s
  | .qPopc k => Sys2Proof.Machine.execQPopc k s
  | .qBswap k => Sys2Proof.Machine.execQBswap k s
  | .qAddi k => Sys2Proof.Machine.execQAddi k s
  | .qAndi k => Sys2Proof.Machine.execQAndi k s
  | .qOri k => Sys2Proof.Machine.execQOri k s
  | .qXori k => Sys2Proof.Machine.execQXori k s
  | .qLdhi k => Sys2Proof.Machine.execQLdhi k s
  | .qCmpeqi k => Sys2Proof.Machine.execQCmpeqi k s
  | .qCmplti k => Sys2Proof.Machine.execQCmplti k s
  | .qCmpltui k => Sys2Proof.Machine.execQCmpltui k s
  | .qLdb k => Sys2Proof.Machine.execQLdb k s
  | .qLdbu k => Sys2Proof.Machine.execQLdbu k s
  | .qLdh k => Sys2Proof.Machine.execQLdh k s
  | .qLdhu k => Sys2Proof.Machine.execQLdhu k s
  | .qLdw k => Sys2Proof.Machine.execQLdw k s
  | .qStb k => Sys2Proof.Machine.execQStb k s
  | .qSth k => Sys2Proof.Machine.execQSth k s
  | .qStw k => Sys2Proof.Machine.execQStw k s
  | .qFld k => Sys2Proof.Machine.execQFld k s
  | .qFst k => Sys2Proof.Machine.execQFst k s
  | .qVld k => Sys2Proof.Machine.execQVld k s
  | .qVst k => Sys2Proof.Machine.execQVst k s
  | .qLdwx k => Sys2Proof.Machine.execQLdwx k s
  | .qStwx k => Sys2Proof.Machine.execQStwx k s
  | .qLdbux k => Sys2Proof.Machine.execQLdbux k s
  | .qStbx k => Sys2Proof.Machine.execQStbx k s
  | .qVlds k => Sys2Proof.Machine.execQVlds k s
  | .qVsts k => Sys2Proof.Machine.execQVsts k s
  | .quireLoadData k => Sys2Proof.Machine.execQuireLoadData k s
  | .storeDrain k => Sys2Proof.Machine.execStoreDrain k s
  | .qBez k => Sys2Proof.Machine.execQBez k s
  | .qBnz k => Sys2Proof.Machine.execQBnz k s
  | .qJ k => Sys2Proof.Machine.execQJ k s
  | .qJl k => Sys2Proof.Machine.execQJl k s
  | .qJr k => Sys2Proof.Machine.execQJr k s
  | .qJlr k => Sys2Proof.Machine.execQJlr k s
  | .qFadd k => Sys2Proof.Machine.execQFadd k s
  | .qFsub k => Sys2Proof.Machine.execQFsub k s
  | .qFmul k => Sys2Proof.Machine.execQFmul k s
  | .qFdiv k => Sys2Proof.Machine.execQFdiv k s
  | .qFsqrt k => Sys2Proof.Machine.execQFsqrt k s
  | .qFmin k => Sys2Proof.Machine.execQFmin k s
  | .qFmax k => Sys2Proof.Machine.execQFmax k s
  | .qFabs k => Sys2Proof.Machine.execQFabs k s
  | .qFneg k => Sys2Proof.Machine.execQFneg k s
  | .qFmov k => Sys2Proof.Machine.execQFmov k s
  | .qFeq k => Sys2Proof.Machine.execQFeq k s
  | .qFlt k => Sys2Proof.Machine.execQFlt k s
  | .qFle k => Sys2Proof.Machine.execQFle k s
  | .qFcvtws k => Sys2Proof.Machine.execQFcvtws k s
  | .qFcvtwus k => Sys2Proof.Machine.execQFcvtwus k s
  | .qFcvtwsz k => Sys2Proof.Machine.execQFcvtwsz k s
  | .qFcvtsw k => Sys2Proof.Machine.execQFcvtsw k s
  | .qFcvtswu k => Sys2Proof.Machine.execQFcvtswu k s
  | .qFmvgf k => Sys2Proof.Machine.execQFmvgf k s
  | .qFmvfg k => Sys2Proof.Machine.execQFmvfg k s
  | .qFmadd k => Sys2Proof.Machine.execQFmadd k s
  | .qFmsub k => Sys2Proof.Machine.execQFmsub k s
  | .qFnmsub k => Sys2Proof.Machine.execQFnmsub k s
  | .qFnmadd k => Sys2Proof.Machine.execQFnmadd k s
  | .qVadd k => Sys2Proof.Machine.execQVadd k s
  | .qVsub k => Sys2Proof.Machine.execQVsub k s
  | .qVmul k => Sys2Proof.Machine.execQVmul k s
  | .qVfma k => Sys2Proof.Machine.execQVfma k s
  | .qVmin k => Sys2Proof.Machine.execQVmin k s
  | .qVmax k => Sys2Proof.Machine.execQVmax k s
  | .qVabs k => Sys2Proof.Machine.execQVabs k s
  | .qVneg k => Sys2Proof.Machine.execQVneg k s
  | .qVcmplt k => Sys2Proof.Machine.execQVcmplt k s
  | .qVcmpeq k => Sys2Proof.Machine.execQVcmpeq k s
  | .qVand k => Sys2Proof.Machine.execQVand k s
  | .qVor k => Sys2Proof.Machine.execQVor k s
  | .qVxor k => Sys2Proof.Machine.execQVxor k s
  | .qVandn k => Sys2Proof.Machine.execQVandn k s
  | .qVbcast k => Sys2Proof.Machine.execQVbcast k s
  | .qVsum k => Sys2Proof.Machine.execQVsum k s
  | .qVcvtsw k => Sys2Proof.Machine.execQVcvtsw k s
  | .qVcvtws k => Sys2Proof.Machine.execQVcvtws k s
  | .qVmov k => Sys2Proof.Machine.execQVmov k s
  | .qTrap k => Sys2Proof.Machine.execQTrap k s
  | .qBrk k => Sys2Proof.Machine.execQBrk k s
  | .qRfe k => Sys2Proof.Machine.execQRfe k s
  | .qRff k => Sys2Proof.Machine.execQRff k s
  | .qMfc k cycle => Sys2Proof.Machine.execQMfc k cycle s
  | .qMtc k => Sys2Proof.Machine.execQMtc k s
  | .qFence k => Sys2Proof.Machine.execQFence k s
  | .qWait k => Sys2Proof.Machine.execQWait k s
  | .waitRelease k => Sys2Proof.Machine.execWaitRelease k s
  | .qSegld k => Sys2Proof.Machine.execQSegld k s
  | .qSegst k => Sys2Proof.Machine.execQSegst k s
  | .qEnq k => Sys2Proof.Machine.execQEnq k s
  | .qEnqv k => Sys2Proof.Machine.execQEnqv k s
  | .qIllegal k => Sys2Proof.Machine.execQIllegal k s
  | .interruptEntryNormal k => Sys2Proof.Machine.execInterruptEntryNormal k s
  | .interruptEntryFast k => Sys2Proof.Machine.execInterruptEntryFast k s
  | .webSubmit w m v => Sys2Proof.Machine.execWebSubmit w m v s
  | .jobChainSubmit w => Sys2Proof.Machine.execJobChainSubmit w s
  | .chainStart w => Sys2Proof.Machine.execChainStart w s
  | .chainDiscard w ix cause addr => Sys2Proof.Machine.execChainDiscard w ix cause addr s
  | .chainEnd w ix cycles => Sys2Proof.Machine.execChainEnd w ix cycles s
  | .webFlush w m v => Sys2Proof.Machine.execWebFlush w m v s
  | .webEnableWrite w m v => Sys2Proof.Machine.execWebEnableWrite w m v s
  | .stoneAccess b claims t => Sys2Proof.Machine.execStoneAccess b claims t s
  | .stoneCorrectionRewrite w => Sys2Proof.Machine.execStoneCorrectionRewrite w s
  | .stoneScrubDue t => Sys2Proof.Machine.execStoneScrubDue t s
  | .stoneScrubOverdue b => Sys2Proof.Machine.execStoneScrubOverdue b s
  | .reelAccess claims t => Sys2Proof.Machine.execReelAccess claims t s
  | .reelCorrectionRewrite w => Sys2Proof.Machine.execReelCorrectionRewrite w s
  | .reelRefresh k => Sys2Proof.Machine.execReelRefresh k s
  | .reelTempReading k temp => Sys2Proof.Machine.execReelTempReading k temp s
  | .reelRetrainDue k t => Sys2Proof.Machine.execReelRetrainDue k t s
  | .reelRetrainEnd k t => Sys2Proof.Machine.execReelRetrainEnd k t s
  | .reelPatrolScrub k a t => Sys2Proof.Machine.execReelPatrolScrub k a t s
  | .reelStackLost k => Sys2Proof.Machine.execReelStackLost k s
  | .regionRightsWrite m v => Sys2Proof.Machine.execRegionRightsWrite m v s
  | .regionSelect m v => Sys2Proof.Machine.execRegionSelect m v s
  | .ledgerCommit m => Sys2Proof.Machine.execLedgerCommit m s
  | .ledgerCheckDone => Sys2Proof.Machine.execLedgerCheckDone s
  | .linkUnitReceive r p errors nc => Sys2Proof.Machine.execLinkUnitReceive r p errors nc s
  | .packetHop r out nc inject => Sys2Proof.Machine.execPacketHop r out nc inject s
  | .packetEject r p vn vc nc => Sys2Proof.Machine.execPacketEject r p vn vc nc s
  | .creditReturn r p vn vc => Sys2Proof.Machine.execCreditReturn r p vn vc s
  | .respTimeout ep tag t => Sys2Proof.Machine.execRespTimeout ep tag t s
  | .flowCommit m => Sys2Proof.Machine.execFlowCommit m s
  | .flowCheckDone => Sys2Proof.Machine.execFlowCheckDone s
  | .flowPlacementApply => Sys2Proof.Machine.execFlowPlacementApply s
  | .eventRaise k t => Sys2Proof.Machine.execEventRaise k t s
  | .coalesceTimeout k t => Sys2Proof.Machine.execCoalesceTimeout k t s
  | .evtLineChange n level t => Sys2Proof.Machine.execEvtLineChange n level t s
  | .evtFilterSettle n t => Sys2Proof.Machine.execEvtFilterSettle n t s
  | .softRaise m idx t => Sys2Proof.Machine.execSoftRaise m idx t s
  | .evtAcceptance proc fast => Sys2Proof.Machine.execEvtAcceptance proc fast s
  | .eoiWrite m proc level => Sys2Proof.Machine.execEoiWrite m proc level s
  | .stackReset m proc => Sys2Proof.Machine.execStackReset m proc s
  | .evtConfigScrub hits => Sys2Proof.Machine.execEvtConfigScrub hits s
  | .faultMessage n t => Sys2Proof.Machine.execFaultMessage n t s
  | .localFaultMessage t => Sys2Proof.Machine.execLocalFaultMessage t s
  | .faultLogWriteDone => Sys2Proof.Machine.execFaultLogWriteDone s
  | .faultSevScrub hits => Sys2Proof.Machine.execFaultSevScrub hits s
  | .firstClear m v => Sys2Proof.Machine.execFirstClear m v s
  | .faultLogCapture m v => Sys2Proof.Machine.execFaultLogCapture m v s
  | .tallyWindowExpiry unit k t => Sys2Proof.Machine.execTallyWindowExpiry unit k t s
  | .aliveToggle t => Sys2Proof.Machine.execAliveToggle t s
  | .aliveEnableWrite m v t => Sys2Proof.Machine.execAliveEnableWrite m v t s
  | .heartbeatKick m v t => Sys2Proof.Machine.execHeartbeatKick m v t s
  | .hbTimeoutWrite m v t => Sys2Proof.Machine.execHbTimeoutWrite m v t s
  | .heartbeatDeadline t => Sys2Proof.Machine.execHeartbeatDeadline t s
  | .sensorSample k value t => Sys2Proof.Machine.execSensorSample k value t s
  | .pmbusPoll words t => Sys2Proof.Machine.execPmbusPoll words t s
  | .drbgHealthFail => Sys2Proof.Machine.execDrbgHealthFail s
  | .mbGetCert box => Sys2Proof.Machine.execMbGetCert box s
  | .mbAttest box => Sys2Proof.Machine.execMbAttest box s
  | .mbRegionSet box m r g => Sys2Proof.Machine.execMbRegionSet box m r g s
  | .mbFlowSet box k f => Sys2Proof.Machine.execMbFlowSet box k f s
  | .mbEnrol box key sig owner ownerSig => Sys2Proof.Machine.execMbEnrol box key sig owner ownerSig s
  | .mbRelease box owner sig => Sys2Proof.Machine.execMbRelease box owner sig s
  | .mbLoadImage box more words entries => Sys2Proof.Machine.execMbLoadImage box more words entries s
  | .frisketLoadDone ok => Sys2Proof.Machine.execFrisketLoadDone ok s
  | .mbUpdateBegin box => Sys2Proof.Machine.execMbUpdateBegin box s
  | .mbUpdateData box => Sys2Proof.Machine.execMbUpdateData box s
  | .mbUpdateSwitch box h t => Sys2Proof.Machine.execMbUpdateSwitch box h t s
  | .mbUpdateConfirm box => Sys2Proof.Machine.execMbUpdateConfirm box s
  | .mbRecordOpen box t => Sys2Proof.Machine.execMbRecordOpen box t s
  | .mbRecordClose box t => Sys2Proof.Machine.execMbRecordClose box t s
  | .mbReadLog box k what first count dst data => Sys2Proof.Machine.execMbReadLog box k what first count dst data s
  | .mbReadJournal box first count => Sys2Proof.Machine.execMbReadJournal box first count s
  | .mbBadOpcode box => Sys2Proof.Machine.execMbBadOpcode box s
  | .recordBlockClose t => Sys2Proof.Machine.execRecordBlockClose t s
  | .signatureTimer t => Sys2Proof.Machine.execSignatureTimer t s
  | .nvmeCompletion k id status t => Sys2Proof.Machine.execNvmeCompletion k id status t s
  | .nvmeTimeout k id t => Sys2Proof.Machine.execNvmeTimeout k id t s
  | .logReleaseWrite k m v => Sys2Proof.Machine.execLogReleaseWrite k m v s
  | .journalProgramDone => Sys2Proof.Machine.execJournalProgramDone s
  | .journalEraseDone => Sys2Proof.Machine.execJournalEraseDone s
  | .jobsTailDoorbell n m v => Sys2Proof.Machine.execJobsTailDoorbell n m v s
  | .jobsHeadWrite n m v => Sys2Proof.Machine.execJobsHeadWrite n m v s
  | .ringEnableWrite n m v => Sys2Proof.Machine.execRingEnableWrite n m v s
  | .ticketFetch host => Sys2Proof.Machine.execTicketFetch host s
  | .ticketNop n => Sys2Proof.Machine.execTicketNop n s
  | .ticketCopy n size host => Sys2Proof.Machine.execTicketCopy n size host s
  | .ticketChain n => Sys2Proof.Machine.execTicketChain n s
  | .ticketCall n => Sys2Proof.Machine.execTicketCall n s
  | .ticketBadKind n => Sys2Proof.Machine.execTicketBadKind n s
  | .ticketComplete n => Sys2Proof.Machine.execTicketComplete n s
  | .callDoneWrite m v => Sys2Proof.Machine.execCallDoneWrite m v s
  | .spStart m v t => Sys2Proof.Machine.execSpStart m v t s
  | .spStop m v => Sys2Proof.Machine.execSpStop m v s
  | .frisketEventLine ix t => Sys2Proof.Machine.execFrisketEventLine ix t s
  | .frisketFadeRequest t => Sys2Proof.Machine.execFrisketFadeRequest t s
  | .frisketReset1 m => Sys2Proof.Machine.execFrisketReset1 m s
  | .frisketConfigScrub n uncorrectable t => Sys2Proof.Machine.execFrisketConfigScrub n uncorrectable t s
  | .frisketWakeRelease => Sys2Proof.Machine.execFrisketWakeRelease s
  | .gpioInputChange n level t => Sys2Proof.Machine.execGpioInputChange n level t s
  | .powerRunRequest m t => Sys2Proof.Machine.execPowerRunRequest m t s
  | .powerNapRequest m wake t => Sys2Proof.Machine.execPowerNapRequest m wake t s
  | .powerHoldRequest m wake t => Sys2Proof.Machine.execPowerHoldRequest m wake t s
  | .powerEntryStep d t => Sys2Proof.Machine.execPowerEntryStep d t s
  | .domainWakeComplete d t => Sys2Proof.Machine.execDomainWakeComplete d t s
  | .idleEntry d quiet => Sys2Proof.Machine.execIdleEntry d quiet s
  | .holdAll m v t => Sys2Proof.Machine.execHoldAll m v t s
  | .coloReady m v t => Sys2Proof.Machine.execColoReady m v t s
  | .coloReadyTimeout t => Sys2Proof.Machine.execColoReadyTimeout t s
  | .holdL1Timeout t => Sys2Proof.Machine.execHoldL1Timeout t s
  | .wakeAll m v t => Sys2Proof.Machine.execWakeAll m v t s
  | .powerAlarmFire t => Sys2Proof.Machine.execPowerAlarmFire t s
  | .signalDetect p t => Sys2Proof.Machine.execSignalDetect p t s
  | .pllLockLoss k => Sys2Proof.Machine.execPllLockLoss k s
  | .refClockLoss k => Sys2Proof.Machine.execRefClockLoss k s
  | .thermalResetRelease mode b => Sys2Proof.Machine.execThermalResetRelease mode b s
  | .hostLinkL1Exit t => Sys2Proof.Machine.execHostLinkL1Exit t s
  | .colophonCrossCheck => Sys2Proof.Machine.execColophonCrossCheck s
  | .flagCopyMismatch row p q r => Sys2Proof.Machine.execFlagCopyMismatch row p q r s
  | .evtStackUpset proc => Sys2Proof.Machine.execEvtStackUpset proc s
  | .referenceClockReturn k => Sys2Proof.Machine.execReferenceClockReturn k s
  | .uartReceive data => Sys2Proof.Machine.execUartReceive data s
  | .jtagTapInstruction code mandatory => Sys2Proof.Machine.execJtagTapInstruction code mandatory s
  | .hostConfigRequest => Sys2Proof.Machine.execHostConfigRequest s
  | .flrComplete => Sys2Proof.Machine.execFlrComplete s

end Sys2Proof.Machine
end

