-- ==== Sys2Proof/Safety.lean ====
section
/-!
DEFINITION. The words the statements are stated in: the memory's canonical form, a step that answers a next state, what no step
may take back, and, under Claims, what a command leaves unchanged, reports, sends and asks of the state it meets.
-/
namespace Sys2Proof.Machine

/-- The bytes of Stone and Reel in canonical form: addresses strictly rising, no entry that an unlisted address reads as. -/
def MemSt.wf (m : MemSt) : Bool := SMap.wf (fun _ => 0#8) m.stone && SMap.wf (fun _ => 0#8) m.reel

/-- The memory's canonical form holds. -/
def State.memWf (s : State) : Bool := s.mem.wf

/-- One step of the block from s answers the next state t. -/
def Steps (s t : State) : Prop := step s = .next t

/-- The command c on s answers t. -/
def Answers (c : Instr) (s t : State) : Prop := exec c s = .next t

/-- Every rollback counter and every fused flag is at least what it was: no fuse bit returns to 0 (R726). -/
def FuseSt.le (a b : FuseSt) : Prop :=
  a.fw ≤ b.fw ∧ a.patch ≤ b.patch ∧ a.frisket ≤ b.frisket ∧ a.owner ≤ b.owner ∧
  (a.debugLock = true → b.debugLock = true) ∧ (∀ i, bit a.revoke i = true → bit b.revoke i = true) ∧
  ∀ k i, bit (SMap.get 0 a.states k) i = true → bit (SMap.get 0 b.states k) i = true

/-- A master may write a register and the page takes the write: the reasons of R884 that any page has are absent. -/
def State.accepts (s : State) (m p off : Nat) : Bool := s.pageAllows m p off true && (s.pageReasons p).isEmpty

end Sys2Proof.Machine

/-! ## The words the statements are stated in -/

namespace Sys2Proof.Claims
open Sys2Proof.Machine

/-- Every core of complex j that executes holds the same architected state c, and c issues its next instruction: it has not
halted, waits for no data, and nothing takeable precedes it (R346, R358, R467). -/
def Lockstep (s : State) (j : Nat) (c : CoreSt) : Prop :=
  s.complexCores j ≠ [] ∧ (∀ n ∈ s.complexCores j, s.core n = c) ∧ c.halted = false ∧ c.waiting = false ∧
  c.load = none ∧ c.pc = alignPc c.pc ∧ (j = 0 → c.ending = false) ∧ s.takesFast j c = false ∧ s.takesNormal j c = false

/-- The word at the pc of core c of complex j is w and no register it uses is pending; with the lines it brings in, whose load
time counts, the core is c1, and fs are the lines requested (R429, R435, R438). -/
def Fetches (s : State) (j : Nat) (c : CoreSt) (w : Nat) (c1 : CoreSt) (fs : List Nat) : Prop :=
  ∃ a h rq, s.fetchCheck j c = .ok a ∧
    s.fetchLines j c.lines [a / 64 * 64, (a + 3) / 64 * 64].eraseDups = .ok (h, rq) ∧
    wordIn h a = w ∧ s.qPending j c w = false ∧
    c1 = { c with lines := (s.prefetch j h (a / 64 * 64 + 64)).1, cycle := c.cycle + loadTime j rq * s.periodFc j } ∧
    fs = rq ++ (s.prefetch j h (a / 64 * 64 + 64)).2

/-- The core, whose period is p Fc cycles, after an instruction that retires: the next pc, the periods it took, one more
instruction. -/
def retire (p : Nat) (c : CoreSt) (pc : W32) (cost : Nat := 1) : CoreSt :=
  { c with pc := pc, cycle := c.cycle + cost * p, instret := c.instret + 1 }

/-- The core after a load is issued: it waits for its data. -/
def awaits (p : Nat) (c : CoreSt) (l : Load) (cost : Nat) : CoreSt :=
  { c with load := some l, cycle := c.cycle + cost * p }

/-- The core after an exception with EXL = 0 and FAST = 0 (R462); the registers it writes have sound parity (R348). -/
def entered (p : Nat) (c : CoreSt) (cause : Nat) (epc eaddr : W32) : CoreSt :=
  CoreSt.fresh { c with epc := epc, eaddr := eaddr, estatus := c.qstatus, ecause := BitVec.ofNat 32 cause,
                        qstatus := c.qstatus ||| 0x20#32, pc := alignPc c.hvecExc, cycle := c.cycle + 4 * p }
    [128, 129, 130, 131, 132]

/-- The state with every core of complex j at c, and nothing else changed. -/
def allCores (s : State) (j : Nat) (c : CoreSt) : State := (s.complexCores j).foldl (fun s n => s.setCore n c) s

/-- The state after the cores of complex j become c and the requested lines are read. -/
def fetched (s : State) (j : Nat) (c : CoreSt) (fs : List Nat) : State := (allCores s j c).serveReqs j (fs.map QReq.fetch)

/-- A word that is 1 where b holds. -/
def flagWord (b : Bool) : W32 := if b then 1 else 0

/-- Quotient and remainder of R455. -/
def quotS (a b : W32) : W32 := if b = 0 then 0xFFFFFFFF else BitVec.ofInt 32 (Int.tdiv a.toInt b.toInt)
def remS (a b : W32) : W32 := if b = 0 then a else BitVec.ofInt 32 (Int.tmod a.toInt b.toInt)
def quotU (a b : W32) : W32 := if b = 0 then 0xFFFFFFFF else BitVec.ofNat 32 (a.toNat / b.toNat)
def remU (a b : W32) : W32 := if b = 0 then a else BitVec.ofNat 32 (a.toNat % b.toNat)

/-- Fc cycles of a divide (R454): 3 and the significant bits of the dividend's magnitude; 35 when CT = 1. -/
def divTime (c : CoreSt) (a : W32) (sgn : Bool) : Nat :=
  if c.ct then 35 else 3 + bitLen (if sgn then a.toInt.natAbs else a.toNat)

/-- Fc cycles of FDIV and FSQRT (R447, R456). -/
def fTime (c : CoreSt) (fn a b : Nat) : Nat :=
  let short := fun (x : Nat) => x / 2 ^ 23 % 256 = 255 ∨ x % 2 ^ 31 = 0
  if fn = 3 then (if c.ct = false ∧ (short a ∨ short b) then 2 else 12)
  else if fn = 4 then (if c.ct = false ∧ short a then 2 else 12)
  else 1

/-- What operand form a memory instruction has: base and offset, or two registers (R439, R445). -/
inductive MemForm where
  | m | x
deriving DecidableEq, Repr

/-- The segment an access names. -/
def MemForm.seg (f : MemForm) (w : Nat) : Nat :=
  match f with
  | .m => bits w 15 13
  | .x => bits w 10 8

/-- The offset an access forms (R428). -/
def MemForm.off (f : MemForm) (w : Nat) (c : CoreSt) : W32 :=
  match f with
  | .m => c.getG (qRa w) + (BitVec.ofNat 13 (w % 2 ^ 13)).signExtend 32
  | .x => c.getG (qRa w) + c.getG (qRb w)

/-- An access that R428 passes on segment g at offset o for a master: the rights, the limit, the alignment, the regions. -/
def accessPasses (s : State) (m : Nat) (g : Seg) (store : Bool) (size o : Nat) : Prop :=
  bit g.rights (if store then 1 else 0) = true ∧ o + size ≤ g.limit ∧ o % size = 0 ∧
  s.regionOk m ((g.base + o) % 2 ^ 48) size store = true

/-- The first exception of R428 that an access meets, with its EADDR: SEG_RIGHTS, SEG_LIMIT, ALIGN, REGION. -/
def accessFault (s : State) (m : Nat) (g : Seg) (store : Bool) (size o : Nat) : Option (Nat × Nat) :=
  if bit g.rights (if store then 1 else 0) = false then some (3, o)
  else if g.limit < o + size then some (2, o)
  else if o % size ≠ 0 then some (4, o)
  else if s.regionOk m ((g.base + o) % 2 ^ 48) size store = false then some (5, (g.base + o) % 2 ^ 48 % 2 ^ 32)
  else none

/-- Every register keeps its value but those of the pages listed. -/
def RegsKept (s t : State) (pages : List Nat) : Prop :=
  ∀ p off i, p < 0x4000 → off < 0x1000 → p ∉ pages → t.reg p off i = s.reg p off i

/-- Every byte of Stone and Reel reads as it did. -/
def MemoryKept (s t : State) : Prop := ∀ a, t.byte a = s.byte a

/-- Every sort of the Forme array is as it was. -/
def SortsKept (s t : State) : Prop := ∀ k, t.sort k = s.sort k

/-- The sorts are listed in canonical form, no port of one has anything in flight, and no scrub read or rewrite is due. -/
def PortsQuiet (s : State) : Prop :=
  SMap.wf (fun _ => SortSt.reset) s.forme.sorts = true ∧ s.forme.scrubDue = false ∧ s.forme.scrubFix = none ∧
  ∀ k, (s.sort k).loads = [] ∧ (s.sort k).stores = [] ∧ (s.sort k).fixes = []

/-- The sequencer's copies agree, no microword is lost, no galley transfer is under way. -/
def SequencerSound (s : State) : Prop :=
  s.seq.upset = false ∧ s.forme.uwordBad = [] ∧ s.forme.io = none ∧ PortsQuiet s

/-- The routine of opcode op runs from ROM, its Fc cycles are within its budget, and no check is about to fail in a sort in
service. -/
def RoutineReady (s : State) (op : Nat) (cycles : Nat → Nat) (i : Nat) : Prop :=
  (∃ c, s.seq.cur = some c ∧ c.instr = i ∧ fmOp i = op ∧ c.micro = false ∧ cycles i ≤ c.budget) ∧ SequencerSound s ∧
  ∀ q ∈ s.logical, let m := s.sort (s.place q.1 q.2)
    m.bad = [] ∧ m.weak = [] ∧ m.stickBad = false ∧ m.upset = 0

/-- The logical rows in service lie on different physical rows (R210). -/
def RowMapInjective (s : State) : Prop :=
  ∀ a b, a < s.rows → b < s.rows → s.physRow a = s.physRow b → a = b

/-- A sort after a routine that forms o: FD and the flags where the context enables the sort, K and X as FLAG destinations in
every sort (R217, R218, R302, R303). -/
def formed (i : Nat) (o : RomOut) (m : SortSt) : SortSt :=
  let m1 := if m.enabled (fmCtx i) then
      o.flags.foldl (fun m x => m.setFlag x.1 x.2) (match o.d with
        | some v => m.setField (fmFdAddr i) (fmFdWidth i) v
        | none => m)
    else m
  o.every.foldl (fun m x => m.setFlag x.1 x.2) m1

/-- D alone. -/
def dOut (v : Nat) : RomOut := { d := some v }
/-- D and C. -/
def dcOut (v : Nat) (c : Bool) : RomOut := { d := some v, flags := [(0, c)] }
/-- D, T3 and C = 0. -/
def dtOut (v : Nat) (t3 : Bool) : RomOut := { d := some v, flags := [(7, t3), (0, false)] }

/-- A value clipped to the range of an n-bit D, signed or not. -/
def clip (n : Nat) (sgn : Bool) (v : Int) : Int :=
  if sgn then max (-(2 ^ (n - 1) : Nat)) (min v ((2 ^ (n - 1) : Nat) - 1)) else max 0 (min v ((2 ^ n : Nat) - 1))

/-- What a routine that ran to its end leaves beside the array: no routine, its Fc cycles counted, the rest as it was. -/
def RoutineEnded (s t : State) (cycles : Nat) : Prop :=
  t.seq.cur = none ∧ t.seq.fc = s.seq.fc + cycles ∧ t.seq.queue = s.seq.queue ∧ t.seq.platen = s.seq.platen ∧
  t.seq.marked = s.seq.marked ∧ MemoryKept s t ∧ RegsKept s t [pgCOMPOSITOR] ∧ t.cores = s.cores ∧ t.drive = s.drive ∧
  t.impose = s.impose ∧ t.forme.io = s.forme.io ∧ t.out = s.out

/-- What a command of the pages listed leaves alone: every register of another page, memory, the sorts, the cores, the webs, the
sequencer. -/
def Beside (s t : State) (pages : List Nat) : Prop :=
  RegsKept s t pages ∧ MemoryKept s t ∧ SortsKept s t ∧ t.cores = s.cores ∧ t.webs = s.webs ∧ t.seq = s.seq

/-- A counter advanced by 1 to at most its maximum (R29). -/
def Counted (s t : State) (p : Nat) (f : Fld) : Prop := t.get p f = min (s.get p f + 1) (2 ^ f.width - 1)

/-- A page event's bit stands in EVT_PEND (R622, R877). -/
def Pending (t : State) (p k : Nat) : Prop := bit (t.get p EVT_PEND) k = true

/-- A write ignored and recorded with a reason of R884; beside the page's own header nothing changes (R36, R882). -/
def IgnoredBy (s t : State) (p off reason : Nat) : Prop :=
  t.get p IGNORED_CAUSE_REASON = reason ∧ t.get p IGNORED_CAUSE_OFFSET = off ∧
  t.get p IGNORED_CAUSE_COUNT = min (s.get p IGNORED_CAUSE_COUNT + 1) 255 ∧ Beside s t [p] ∧
  (∀ o i, 0x040 ≤ o → o < 0x1000 → t.reg p o i = s.reg p o i)

/-- A fault message sent on the network (R658). -/
def Reported (s t : State) (src kind addr detail : Nat) : Prop := t.fault.net = s.fault.net ++ [⟨src, kind, addr, detail⟩]

/-- Monotone time once a command that takes place at n has run: it never runs back, and stands while REFCLK_SYS is absent
(R841). -/
def timeAt (s : State) (n : Nat) : Nat := if s.clock.refLost then s.mono else max s.mono (n - s.clock.lostNs)

/-- A domain on its way neither to sleep nor to wake. -/
def Resting (s : State) (d : Nat) : Prop := (s.domain d).entering = none ∧ (s.domain d).waking = none

/-- Galley I/O is done, the Platen settled, no routine runs and no standing chain is left (R356, R361). -/
def Quiet (s : State) : Prop :=
  s.seq.cur = none ∧ s.seq.platen = [] ∧ s.forme.io = none ∧ ∀ w, w < 8 → s.webUp w = true → s.spPending w = 0

/-- A core as the impression context block at address a gives it, its counts and captures those of a core that executed last
(R353, R354). -/
def EnteredFrom (s : State) (a : Nat) (old c : CoreSt) : Prop :=
  let w := fun (o : Nat) => BitVec.ofNat 32 (s.numAt (a + o) 4)
  c.pc = w 0 &&& 0xFFFFFFFC#32 ∧ c.qstatus = w 4 &&& 0x1F3F#32 ∧
  SMap.get 0 c.g 0 = 0 ∧ (∀ r, 1 ≤ r → r < 32 → SMap.get 0 c.g r = w (0x040 + 4 * r)) ∧
  (∀ r, r < 64 → SMap.get 0 c.f r = w (0x0C0 + 4 * r)) ∧
  (∀ r, r < 9 → c.getSeg r = { base := s.numAt (a + 0x1C0 + 16 * r) 6, limit := s.numAt (a + 0x1C0 + 16 * r + 8) 4,
                                rights := s.numAt (a + 0x1C0 + 16 * r + 12) 1 % 8 }) ∧
  (c.epc = 0 ∧ c.estatus = 0 ∧ c.ecause = 0 ∧ c.eaddr = 0 ∧ c.fepc = 0 ∧ c.festatus = 0 ∧ c.hvecExc = 0 ∧
    c.hvecNormal = 0 ∧ c.hvecFast = 0 ∧ (∀ r, SMap.get 0 c.shadow r = 0) ∧ c.wbuf = [] ∧ c.lines = [] ∧ c.load = none) ∧
  c.cycle = old.cycle ∧ c.instret = old.instret ∧ c.capCycle = old.capCycle ∧ c.capInstret = old.capInstret

/-- a lies before b in serial-number arithmetic (R719, R775). -/
def Before (a b : W32) : Prop := 1 ≤ (b - a).toNat ∧ (b - a).toNat < 2 ^ 31

/-- No domain sleeps. -/
def Awake (s : State) : Prop := ∀ d, d < 52 → s.asleep d = false

/-- An extent of Stone or Reel that a master reads without error. -/
def Readable (s : State) (m a len : Nat) : Prop :=
  s.memOk a len = true ∧ s.regionOk m a len false = true ∧ ∀ w, s.isBad w = false

/-- An extent of Stone or Reel that a master writes without error. -/
def Writable (s : State) (m a len : Nat) : Prop :=
  s.memOk a len = true ∧ s.regionOk m a len true = true ∧ ∀ w, s.isBad w = false

/-- Memory with the bytes bs stored from a on, every other byte as it was. -/
def Stored (s t : State) (a : Nat) (bs : List Byte) : Prop :=
  (∀ i, i < bs.length → t.byte (a + i) = bs.getD i 0) ∧ ∀ x, x < a ∨ a + bs.length ≤ x → t.byte x = s.byte x

/-- Ticket k of ring n has ended as e; the other tickets and rings are as they were. -/
def EndedAs (s t : State) (n k : Nat) (e : TicketEnd) : Prop :=
  t.ring n = { s.ring n with tickets := (s.ring n).tickets.map fun x =>
    if x.k = k ∧ x.fin = none then { x with started := true, fin := some e } else x } ∧
  ∀ n', n' ≠ n → t.ring n' = s.ring n'

/-- A mailbox holds a command of opcode op that firmware has taken, and the memory of its header and of len bytes of its
data area answers (R738, R739). -/
def MbReady (s : State) (box op len : Nat) : Prop :=
  box < 2 ∧ s.mbTaken box op = true ∧ (∀ w, s.isBad w = false) ∧ s.memOk (mbBase box) (4096 + len) = true

/-- A mailbox command is answered with a STATUS and data (R739); no other byte of memory changes. -/
def MbAnswered (s t : State) (box st : Nat) (data : List Byte) : Prop :=
  Output.mailbox box st data ∈ t.out ∧ box ∉ t.colo.taken ∧ t.byte (mbBase box + 8) = BitVec.ofNat 8 st ∧
  (∀ i, i < data.length → t.byte (mbBase box + 4096 + i) = data.getD i 0) ∧
  (∀ x, x ≠ mbBase box + 8 → x < mbBase box + 4096 ∨ mbBase box + 4096 + data.length ≤ x → t.byte x = s.byte x) ∧
  SortsKept s t ∧ t.cores = s.cores

/-- Physical place of column c, row r of logical galley gx on physical galley row `row` (R253, R254). -/
def placeOn (s : State) (row gx c r : Nat) : Nat :=
  let p := s.physGalley row gx
  sortKey row p (s.physColumn row p c) r

/-- The registers at 0x040 and above that a write stores by their fields' access codes alone. -/
def Plain (b : Block) (off : Nat) : Prop :=
  match b with
  | .device => True
  | .crypto => True
  | .evtCnt => True
  | .clock => True
  | .router => True
  | .feed => off ≠ 0x040
  | .sheet => off ∉ [0x040, 0x044, 0x060]
  | .galley => off ∉ [0x090, 0x094]
  | .reel => off ≠ 0x044
  | .host => off ≠ 0x040
  | _ => False

/-- The block registers of a page beside one are as they were. -/
def OthersKept (s t : State) (p off i : Nat) : Prop :=
  ∀ o j, 0x040 ≤ o → o < 0x1000 → (o, j) ≠ (off, i) → t.reg p o j = s.reg p o j

/-- A write of one whole register (R870). -/
def wholeWrite (m p off : Nat) (v : W32) (n : Nat) : Instr := .registerWrite m p off (bytesLE 4 v.toNat) n

/-- Entry i of the feeder table is e, every other entry is as it was. -/
def Entry (s t : State) (i : Nat) (e : FtEntry) : Prop := t.ft i = e ∧ ∀ j, j ≠ i → t.ft j = s.ft j

/-- An entry passed to FREE: its next generation and the port last bound (R104, R112). -/
def goneOf (e : FtEntry) : FtEntry := { FtEntry.reset with gen := if 255 ≤ e.gen then 1 else e.gen + 1, port := e.port }

/-- Every entry BOUND to port p is STALE from monotone time n on, every other entry is as it was (R105). -/
def WentStale (s t : State) (p n : Nat) : Prop :=
  (∀ i, (s.ft i).state = .bound → (s.ft i).port = p → t.ft i = { s.ft i with state := .stale, staleSince := n }) ∧
  (∀ i, (s.ft i).state ≠ .bound ∨ (s.ft i).port ≠ p → t.ft i = s.ft i) ∧
  (∀ i, (s.ft i).state = .bound → (s.ft i).port = p → Pending t (pgFEED p) 3)

/-- A frame leaves port p: the outputs are these, and FEED_TX_FRAMES counts it (R87). -/
def Sends (s t : State) (p : Nat) (secured : Bool) (bytes : List Byte) : Prop :=
  t.out = s.out ++ [.frame p secured bytes] ∧
  t.pair (pgFEED p) FEED_TX_FRAMES_LO FEED_TX_FRAMES_HI = (s.pair (pgFEED p) FEED_TX_FRAMES_LO FEED_TX_FRAMES_HI + 1) % 2 ^ 64

/-- The frame that answers f on port p with a hello, its free header bytes from number n on (R95, R925). -/
def answerTo (s : State) (p n : Nat) (f : EthFrame) (h : Hello) : List Byte :=
  let b := helloFrame n h
  ethBytes f.src (s.portMac p) f.tags (if f.sec.isSome then s.secTag p (b.length + 2) else []) s.sheetType b

/-- A frame has been taken up; nothing else of the feeder side changes. -/
def Taken (s t : State) (p : Nat) (f : EthFrame) : Prop := t.feed = { s.feed with passed := s.feed.passed.erase (p, f) }

/-- A frame that the checks of R81 and the filter of R80 pass. -/
def Heard (s : State) (p : Nat) (f : EthFrame) : Prop :=
  64 ≤ f.length ∧ f.length ≤ 9216 ∧ f.fcsOk = true ∧ s.addressPasses p f.dst = true ∧ f.dst ≠ macControl

/-- A frame that no EtherType decision but Sheet's takes. -/
def SheetFrame (s : State) (f : EthFrame) : Prop := f.etherType = s.sheetType ∧ f.etherType ∉ [etLldp, etEapol, etPtp]

/-- A data frame that decisions 1 to 6 of R144 pass on to stream st of entry i. -/
def DataFrame (s : State) (p i : Nat) (f : EthFrame) (st : StreamEntry) : Prop :=
  let h := sheetHdrOf f.body
  (p, f) ∈ s.feed.passed ∧ s.forme.io = none ∧ deepNest f = false ∧ 32 ≤ f.body.length ∧ h.version = 1 ∧
  h.kind = 1 ∧ i = h.handle % 256 ∧
  (s.ft i).state = .bound ∧ (s.ft i).gen * 256 + i = h.handle ∧ (s.ft i).port = p ∧
  (∃ g, f.sec = some g ∧ g.known = true ∧ g.serial = (s.ft i).serial) ∧
  (s.ft i).streams.find? (fun x => x.id == h.stream && x.dir == 1) = some st

/-- The one place of a sample: index i of a channel that slot k of the table in force takes from stream st, no table waiting. -/
def SlotTakes (s : State) (i k ch : Nat) (st : StreamEntry) : Prop :=
  SMap.wf (fun _ => FtEntry.reset) s.feed.table = true ∧
  (∀ j, (s.ft j).state = .bound → (s.ft j).serial = (s.ft i).serial → j = i) ∧
  lowestStream ((s.ft i).streams.filter (covers · ch)) = some st ∧ s.impose.waiting = none ∧
  s.slotFor (s.ft i).serial ch = some k ∧ (s.slot k).rate = st.rate ∧ (s.dynOf k).faulted = false

/-- The pages a multicast reaches: DRIVE and the feeder ports. -/
def drivePages : List Nat := pgDRIVE :: (List.range 16).map pgFEED

/-- What a command of web w leaves alone: every register but those of its page and of the Compositor's VOID, the sorts, the
cores, the sequencer, and every other web. -/
def WebBeside (s t : State) (w : Nat) : Prop :=
  RegsKept s t [pgWEB w, pgCOMPOSITOR] ∧ SortsKept s t ∧ t.cores = s.cores ∧ t.seq = s.seq ∧ ∀ x, x ≠ w → t.web x = s.web x

/-- A standing chain that fails voids the execution it belongs to with cause 5 (R510). -/
def Voided (s t : State) (src : Nat) : Prop :=
  src = 0 → s.inExecution = true → bit (t.get pgCOMPOSITOR COMP_IMP_STATUS_VOID) 5 = true

/-- Chain ref, the only one of its web without a record, is refused with a cause while completion records are off (R501,
R512). -/
def Refuses (s : State) (c : Instr) (w : Nat) (ref : ChainRef) (cause tag : Nat) (evt : Bool) (x : WebSt) : Prop :=
  ∃ t, exec c s = .next t ∧ Counted s t (pgWEB w) WEB_REFUSED ∧ Pending t (pgWEB w) 1 ∧
    Reported s t (0x020 + w) 15 (ref.desc % 2 ^ 48) cause ∧ t.get (pgWEB w) WEB_LAST_ERROR_STATUS = 1 ∧
    t.get (pgWEB w) WEB_LAST_ERROR_CAUSE = cause ∧ t.get (pgWEB w) WEB_LAST_ERROR_TAG = tag ∧
    t.get (pgWEB w) WEB_LAST_SEQ = ref.seq ∧ (evt = true → Pending t (pgWEB w) 0) ∧ Voided s t ref.src ∧
    t.web w = { x with recs := [] } ∧ MemoryKept s t ∧ WebBeside s t w

/-- A chain of one element of type f32: its loads (code 1 and 2), its store, nodes and wiring. -/
def OneElement (c : Chain) : Prop :=
  c.la.enable = true ∧ c.la.type = 1 ∧ c.la.count = 1 ∧ c.lc.enable = false ∧ c.st.type = 1 ∧ c.st.count = 1

/-- Chain r is the only one of web w that runs and the only one without a record; records are off; no galley transfer is under
way. -/
def RunsAlone (s : State) (w : Nat) (r : ChainRun) : Prop :=
  w < 8 ∧ (s.web w).running = [r] ∧ r.done = false ∧ (s.web w).flushing = [] ∧ (s.web w).recs = [{ ref := r.ref, fin := none }] ∧
  s.on (pgWEB w) WEB_CREC_CFG_EN = false ∧ r.ref.seq < 2 ^ 32 ∧ s.forme.io = none

/-- A running chain has ended: nothing of it is left in its web, a job chain's ticket aside, and QUEUE_EMPTY where it was
the last. -/
def Ended (s t : State) (w : Nat) : Prop :=
  t.web w = { s.web w with running := [], recs := [] } ∧
  ((s.web w).standing = [] → (s.web w).job = [] → Pending t (pgWEB w) 3) ∧ WebBeside s t w

/-- An access of a master to memory that meets no error: its regions are checked, but those of a web or of galley I/O, which
were checked at the start of the chain or transfer (R529). -/
def Grants (s : State) (q : ReelReq) : Prop :=
  let n := match q.data with
    | some bs => bs.length
    | none => q.len
  s.memOk q.addr n = true ∧ (2 ≤ q.master ∧ q.master ≤ 10 ∨ s.regionOk q.master q.addr n q.data.isSome = true) ∧
  (∀ w, s.isBad w = false) ∧ ∀ w, s.isWeak w = false

/-- Access q has been served: a read answers the bytes and changes none, a write stores its bytes and changes no other. -/
def Served (s t : State) (q : ReelReq) : Prop :=
  match q.data with
  | none => t.out = s.out ++ [.memory q.master true (s.bytes q.addr q.len)] ∧ MemoryKept s t
  | some bs => t.out = s.out ++ [.memory q.master true []] ∧ Stored s t q.addr bs

/-- What a command of the network leaves alone beside the pages listed; the outputs may grow. -/
def NocBeside (s t : State) (pages : List Nat) : Prop := Beside s t pages ∧ t.evt.held = s.evt.held

/-- The sum of R591 stays what it was for every virtual channel of every link. -/
def CreditsConserved (s t : State) : Prop := ∀ k, t.noc.creditSum k = s.noc.creditSum k

/-- The whole packet at the front of input k of router r is for a local endpoint of r, which is up and awake; its header is
h. -/
def AtEndpoint (s : State) (r k h : Nat) : Prop :=
  frontHeader (s.noc.buffer k) = some h ∧ hDestX h = r % 8 ∧ hDestY h = r / 8 ∧
  (frontPacket (s.noc.buffer k)).any (·.tail) = true ∧ s.epUp (hDest h) = true ∧ s.epReady (hDest h) = true

/-- What no step takes back: the commands still waiting, monotone time, what the outside has seen, the fuses. -/
def Kept (s t : State) : Prop :=
  t.pending = s.pending.tail ∧ s.mono ≤ t.mono ∧ s.out <+: t.out ∧ FuseSt.le s.colo.fuses t.colo.fuses

end Sys2Proof.Claims
end

