-- ==== Sys2Proof/Certificates/Slice0/Obligations.lean ====
section
/-!
DEFINITION. The statements for the provers. A command's statement gives the next state, or what the next state holds, under
conditions on the state and the operands alone; Sys2Proof/Safety.lean holds the words they are stated in.
-/
namespace Sys2Proof.Claims
open Sys2Proof.Machine

/-! ## Instructions of one shape -/

/-- R442, R443: mnemonic's constructor, function code, and rd from ra, rb, rc and the number in the rb field. -/
def IntOp (x : (Nat → Instr) × Nat × (W32 → W32 → W32 → Nat → W32)) : Prop := x ∈ (
  [(.qAdd, 0x00, fun a b _ _ => a + b),
   (.qSub, 0x01, fun a b _ _ => a - b),
   (.qAnd, 0x02, fun a b _ _ => a &&& b),
   (.qOr, 0x03, fun a b _ _ => a ||| b),
   (.qXor, 0x04, fun a b _ _ => a ^^^ b),
   (.qAndn, 0x05, fun a b _ _ => a &&& ~~~b),
   (.qSll, 0x06, fun a b _ _ => a <<< (b.toNat % 32)),
   (.qSrl, 0x07, fun a b _ _ => a >>> (b.toNat % 32)),
   (.qSra, 0x08, fun a b _ _ => a.sshiftRight (b.toNat % 32)),
   (.qSlli, 0x09, fun a _ _ n => a <<< n),
   (.qSrli, 0x0A, fun a _ _ n => a >>> n),
   (.qSrai, 0x0B, fun a _ _ n => a.sshiftRight n),
   (.qCmpeq, 0x0C, fun a b _ _ => flagWord (decide (a = b))),
   (.qCmplt, 0x0D, fun a b _ _ => flagWord (decide (a.toInt < b.toInt))),
   (.qCmpltu, 0x0E, fun a b _ _ => flagWord (decide (a.toNat < b.toNat))),
   (.qSel, 0x0F, fun a b c _ => if c ≠ 0 then a else b),
   (.qAddx, 0x10, fun a b c _ => a + b + (c &&& 1)),
   (.qCarx, 0x11, fun a b c _ => flagWord (decide (2 ^ 32 ≤ a.toNat + b.toNat + c.toNat % 2))),
   (.qSubx, 0x12, fun a b c _ => a - b - (c &&& 1)),
   (.qBorx, 0x13, fun a b c _ => flagWord (decide (a.toNat < b.toNat + c.toNat % 2))),
   (.qMul, 0x14, fun a b _ _ => a * b),
   (.qMulh, 0x15, fun a b _ _ => BitVec.ofInt 32 (a.toInt * b.toInt / 2 ^ 32)),
   (.qMulhu, 0x16, fun a b _ _ => BitVec.ofNat 32 (a.toNat * b.toNat / 2 ^ 32)),
   (.qClz, 0x1F, fun a _ _ _ => BitVec.ofNat 32 (32 - bitLen a.toNat)),
   (.qCtz, 0x20, fun a _ _ _ => BitVec.ofNat 32 (((List.range 32).find? fun i => a.getLsbD i).getD 32)),
   (.qPopc, 0x21, fun a _ _ _ => BitVec.ofNat 32 (popBits 32 a.toNat)),
   (.qBswap, 0x22, fun a _ _ _ =>
      (a.extractLsb' 0 8 ++ a.extractLsb' 8 8 ++ a.extractLsb' 16 8 ++ a.extractLsb' 24 8 : BitVec 32))] :
  List ((Nat → Instr) × Nat × (W32 → W32 → W32 → Nat → W32)))

/-- R444: major opcode, and rd from ra and the 16-bit immediate. -/
def ImmOp (x : (Nat → Instr) × Nat × (W32 → BitVec 16 → W32)) : Prop := x ∈ (
  [(.qAddi, 0x02, fun a i => a + i.signExtend 32),
   (.qAndi, 0x03, fun a i => a &&& i.zeroExtend 32),
   (.qOri, 0x04, fun a i => a ||| i.zeroExtend 32),
   (.qXori, 0x05, fun a i => a ^^^ i.zeroExtend 32),
   (.qLdhi, 0x06, fun _ i => (i.zeroExtend 32) <<< 16),
   (.qCmpeqi, 0x07, fun a i => flagWord (decide (a = i.signExtend 32))),
   (.qCmplti, 0x08, fun a i => flagWord (decide (a.toInt < (i.signExtend 32).toInt))),
   (.qCmpltui, 0x09, fun a i => flagWord (decide (a.toNat < (i.signExtend 32).toNat)))] :
  List ((Nat → Instr) × Nat × (W32 → BitVec 16 → W32)))

/-- R442, R455: the divides into one register: function code, signed or not, result. -/
def DivOp (x : (Nat → Instr) × Nat × Bool × (W32 → W32 → W32)) : Prop := x ∈ (
  [(.qDiv, 0x19, true, quotS), (.qDivu, 0x1A, false, quotU), (.qRem, 0x1B, true, remS), (.qRemu, 0x1C, false, remU)] :
  List ((Nat → Instr) × Nat × Bool × (W32 → W32 → W32)))

/-- R442: the pair operations: function code, low and high result, Fc cycles. -/
def PairOp (x : (Nat → Instr) × Nat × (W32 → W32 → W32) × (W32 → W32 → W32) × (CoreSt → W32 → Nat)) : Prop := x ∈ (
  [(.qMulw, 0x17, fun a b => BitVec.ofInt 32 (a.toInt * b.toInt), fun a b => BitVec.ofInt 32 (a.toInt * b.toInt / 2 ^ 32),
    fun _ _ => 1),
   (.qMulwu, 0x18, fun a b => a * b, fun a b => BitVec.ofNat 32 (a.toNat * b.toNat / 2 ^ 32), fun _ _ => 1),
   (.qDivw, 0x1D, quotS, remS, fun c a => divTime c a true),
   (.qDivwu, 0x1E, quotU, remU, fun c a => divTime c a false)] :
  List ((Nat → Instr) × Nat × (W32 → W32 → W32) × (W32 → W32 → W32) × (CoreSt → W32 → Nat)))

/-- R447: operations from f registers to an f register: function code, result and flags. -/
def FOp (x : (Nat → Instr) × Nat × (Rm → Nat → Nat → Nat × Nat)) : Prop := x ∈ (
  [(.qFadd, 0x00, fadd), (.qFsub, 0x01, fsub), (.qFmul, 0x02, fmul), (.qFdiv, 0x03, fdiv),
   (.qFsqrt, 0x04, fun rm a _ => fsqrt rm a), (.qFmin, 0x05, fun _ a b => fminmax false a b),
   (.qFmax, 0x06, fun _ a b => fminmax true a b), (.qFabs, 0x07, fun _ a _ => (a % 2 ^ 31, 0)),
   (.qFneg, 0x08, fun _ a _ => (a % 2 ^ 31 + (1 - a / 2 ^ 31 % 2) * 2 ^ 31, 0)), (.qFmov, 0x09, fun _ a _ => (a, 0))] :
  List ((Nat → Instr) × Nat × (Rm → Nat → Nat → Nat × Nat)))

/-- R447: operations from f registers to a general register. -/
def FgOp (x : (Nat → Instr) × Nat × (Rm → Nat → Nat → Nat × Nat)) : Prop := x ∈ (
  [(.qFeq, 0x10, fun _ a b => (b2n (feq a b).1, (feq a b).2)), (.qFlt, 0x11, fun _ a b => (b2n (flt a b).1, (flt a b).2)),
   (.qFle, 0x12, fun _ a b => (b2n (fle a b).1, (fle a b).2)), (.qFcvtws, 0x18, fun rm a _ => fcvtws rm a),
   (.qFcvtwus, 0x19, fun rm a _ => fcvtwus rm a), (.qFcvtwsz, 0x1A, fun _ a _ => fcvtws .towardZero a),
   (.qFmvgf, 0x1D, fun _ a _ => (a, 0))] :
  List ((Nat → Instr) × Nat × (Rm → Nat → Nat → Nat × Nat)))

/-- R447: operations from a general register to an f register. -/
def GfOp (x : (Nat → Instr) × Nat × (Rm → W32 → Nat × Nat)) : Prop := x ∈ (
  [(.qFcvtsw, 0x1B, fun rm a => fromInt rm a.toInt), (.qFcvtswu, 0x1C, fun rm a => fromInt rm a.toNat),
   (.qFmvfg, 0x1E, fun _ a => (a.toNat, 0))] :
  List ((Nat → Instr) × Nat × (Rm → W32 → Nat × Nat)))

/-- R447: the fused operations: variant, product negated, addend negated. -/
def FmOp (x : (Nat → Instr) × Nat × Bool × Bool) : Prop := x ∈ (
  [(.qFmadd, 0, false, false), (.qFmsub, 1, false, true), (.qFnmsub, 2, true, false), (.qFnmadd, 3, true, true)] :
  List ((Nat → Instr) × Nat × Bool × Bool))

/-- R448: the lane operations of va, vb and vc: function code, result and flags of a lane. -/
def VOp (x : (Nat → Instr) × Nat × (Rm → Nat → Nat → Nat → Nat × Nat)) : Prop := x ∈ (
  [(.qVadd, 0x00, fun rm a b _ => fadd rm a b), (.qVsub, 0x01, fun rm a b _ => fsub rm a b),
   (.qVmul, 0x02, fun rm a b _ => fmul rm a b), (.qVfma, 0x03, fun rm a b c => fma rm false false a b c),
   (.qVmin, 0x04, fun _ a b _ => fminmax false a b), (.qVmax, 0x05, fun _ a b _ => fminmax true a b),
   (.qVabs, 0x06, fun _ a _ _ => (a % 2 ^ 31, 0)),
   (.qVneg, 0x07, fun _ a _ _ => (a % 2 ^ 31 + (1 - a / 2 ^ 31 % 2) * 2 ^ 31, 0)),
   (.qVcmplt, 0x08, fun _ a b _ => (if (flt a b).1 then 0xFFFFFFFF else 0, (flt a b).2)),
   (.qVcmpeq, 0x09, fun _ a b _ => (if (feq a b).1 then 0xFFFFFFFF else 0, (feq a b).2)),
   (.qVand, 0x0A, fun _ a b _ => (a &&& b, 0)), (.qVor, 0x0B, fun _ a b _ => (a ||| b, 0)),
   (.qVxor, 0x0C, fun _ a b _ => (a ^^^ b, 0)), (.qVandn, 0x0D, fun _ a b _ => (a &&& (0xFFFFFFFF - b), 0)),
   (.qVcvtsw, 0x10, fun rm a _ _ => fromInt rm (BitVec.ofNat 32 a).toInt), (.qVcvtws, 0x11, fun rm a _ _ => fcvtws rm a),
   (.qVmov, 0x12, fun _ a _ _ => (a, 0))] :
  List ((Nat → Instr) × Nat × (Rm → Nat → Nat → Nat → Nat × Nat)))

/-- R445: the loads to general and f registers: opcode, form, size in bytes, and where the data goes. -/
def LoadOp (x : (Nat → Instr) × (Nat × Nat) × MemForm × Nat × (Nat → LoadDst)) : Prop := x ∈ (
  [(.qLdb, (0x10, 0), .m, 1, fun r => .g r 1 true), (.qLdbu, (0x11, 0), .m, 1, fun r => .g r 1 false),
   (.qLdh, (0x12, 0), .m, 2, fun r => .g r 2 true), (.qLdhu, (0x13, 0), .m, 2, fun r => .g r 2 false),
   (.qLdw, (0x14, 0), .m, 4, fun r => .g r 4 false), (.qFld, (0x18, 0), .m, 4, fun r => .f r),
   (.qFld, (0x19, 0), .m, 4, fun r => .f (32 + r)), (.qLdwx, (0x1E, 0), .x, 4, fun r => .g r 4 false),
   (.qLdbux, (0x1E, 2), .x, 1, fun r => .g r 1 false)] :
  List ((Nat → Instr) × (Nat × Nat) × MemForm × Nat × (Nat → LoadDst)))

/-- R445: the stores: opcode, form, size in bytes, and the word stored. -/
def StoreOp (x : (Nat → Instr) × (Nat × Nat) × MemForm × Nat × (CoreSt → Nat → W32)) : Prop := x ∈ (
  [(.qStb, (0x15, 0), .m, 1, fun c r => c.getG r), (.qSth, (0x16, 0), .m, 2, fun c r => c.getG r),
   (.qStw, (0x17, 0), .m, 4, fun c r => c.getG r), (.qFst, (0x1A, 0), .m, 4, fun c r => c.getF r),
   (.qFst, (0x1B, 0), .m, 4, fun c r => c.getF (32 + r)), (.qStwx, (0x1E, 1), .x, 4, fun c r => c.getG r),
   (.qStbx, (0x1E, 3), .x, 1, fun c r => c.getG r)] :
  List ((Nat → Instr) × (Nat × Nat) × MemForm × Nat × (CoreSt → Nat → W32)))

/-- R313 to R321: command, opcode, Fc cycles, and what the routine forms in a sort that holds m. -/
def RomOp (x : Instr × Nat × (Nat → Nat) × (Nat → SortSt → RomOut)) : Prop := x ∈ (
  [(.fmNop, 0x000, fun _ => 1, fun _ _ => {}),
   (.fmMov, 0x001, fun i => fmFdWidth i + 4, fun i m => dOut (m.opAShifted i (fmFdWidth i))),
   (.fmMovh, 0x002, fun i => fmFdWidth i + 4, fun i m => dOut (m.opA i (fmFdWidth i))),
   (.fmSeti, 0x003, fun i => fmFdWidth i + 3, fun i _ => dOut (extend 32 (fmFdWidth i) (fmSignb i) (fmScalar i))),
   (.fmGetf, 0x004, fun i => fmFdWidth i + 3, fun i m =>
      dOut (if m.flag (flagOf (fmFlag i)) then (if fmSigna i then 2 ^ fmFdWidth i - 1 else 1) else 0)),
   (.fmAdd, 0x008, fun i => fmFdWidth i + 4, fun i m =>
      let n := fmFdWidth i; let a := m.opAShifted i n; let b := m.opB i n
      dcOut ((a + b) % 2 ^ n) (decide (2 ^ n ≤ a + b))),
   (.fmAddc, 0x009, fun i => fmFdWidth i + 4, fun i m =>
      let n := fmFdWidth i; let a := m.opAShifted i n; let b := m.opB i n; let c := b2n (m.flag 0)
      dcOut ((a + b + c) % 2 ^ n) (decide (2 ^ n ≤ a + b + c))),
   (.fmSub, 0x00A, fun i => fmFdWidth i + 4, fun i m =>
      let n := fmFdWidth i; let a := m.opAShifted i n; let b := m.opB i n
      dcOut (wrap n ((a : Int) - b)) (decide (b ≤ a))),
   (.fmSubc, 0x00B, fun i => fmFdWidth i + 4, fun i m =>
      let n := fmFdWidth i; let a := m.opAShifted i n; let b := m.opB i n; let c := b2n (m.flag 0)
      dcOut (wrap n ((a : Int) - b - 1 + c)) (decide (b + 1 ≤ a + c))),
   (.fmNeg, 0x00C, fun i => fmFdWidth i + 4, fun i m =>
      let n := fmFdWidth i; let a := m.opA i n
      dcOut (wrap n (-(a : Int))) (decide (a = 0))),
   (.fmAbs, 0x00D, fun i => fmFdWidth i + 6, fun i m =>
      let n := fmFdWidth i; let a := m.opA i n
      if fmSigna i ∧ signed n a < 0 then dtOut (wrap n (-(a : Int))) true else dtOut a false),
   (.fmAdds, 0x00E, fun i => 2 * fmFdWidth i + 7, fun i m =>
      let n := fmFdWidth i; let v := m.valA i + m.valB i
      dtOut (wrap n (clip n (fmSignd i) v)) (decide (clip n (fmSignd i) v ≠ v))),
   (.fmSubs, 0x00F, fun i => 2 * fmFdWidth i + 7, fun i m =>
      let n := fmFdWidth i; let v := m.valA i - m.valB i
      dtOut (wrap n (clip n (fmSignd i) v)) (decide (clip n (fmSignd i) v ≠ v))),
   (.fmMul, 0x010, fun i => fmFaWidth i * fmFbWidth i + 2 * fmFaWidth i + 6, fun i m => dcOut (m.product i) false),
   (.fmMac, 0x011, fun i => fmFaWidth i * fmFbWidth i + 2 * fmFaWidth i + fmFdWidth i + 10, fun i m =>
      let n := fmFdWidth i; let d := m.field (fmFdAddr i) n
      dcOut ((d + m.product i) % 2 ^ n) (decide (2 ^ n ≤ d + m.product i))),
   (.fmAnd, 0x018, fun i => fmFdWidth i + 4, fun i m => dOut (m.opA i (fmFdWidth i) &&& m.opB i (fmFdWidth i))),
   (.fmOr, 0x019, fun i => fmFdWidth i + 4, fun i m => dOut (m.opA i (fmFdWidth i) ||| m.opB i (fmFdWidth i))),
   (.fmXor, 0x01A, fun i => fmFdWidth i + 4, fun i m => dOut (m.opA i (fmFdWidth i) ^^^ m.opB i (fmFdWidth i))),
   (.fmAndn, 0x01B, fun i => fmFdWidth i + 4, fun i m =>
      dOut (m.opA i (fmFdWidth i) &&& (2 ^ fmFdWidth i - 1 - m.opB i (fmFdWidth i)))),
   (.fmNot, 0x01C, fun i => fmFdWidth i + 4, fun i m => dOut (2 ^ fmFdWidth i - 1 - m.opA i (fmFdWidth i))),
   (.fmBool, 0x01D, fun i => fmFdWidth i + 4, fun i m =>
      let n := fmFdWidth i; let a := m.opA i n
      let b := extend (fmFbWidth i) n (fmSignb i) (m.field (fmFbAddr i) (fmFbWidth i))
      dOut (maskOf n fun k => bit (fmScalar i) (4 * b2n (bit a k) + 2 * b2n (bit b k) + b2n (m.flag 0)))),
   (.fmCmp, 0x020, fun i => cmpWidth i + 5, fun i m =>
      let n := cmpWidth i; let a := valueOf n (fmSigna i) (m.opA i n); let b := valueOf n (fmSignb i) (m.opB i n)
      let r := flagResult i m (match fmCond i with
        | 0 => decide (a = b) | 1 => decide (a ≠ b) | 2 => decide (a < b) | 3 => decide (b ≤ a) | 4 => decide (a ≤ b)
        | _ => decide (b < a))
      { r with flags := if fmFlag i = 7 then r.flags else (0, false) :: r.flags }),
   (.fmTst, 0x021, fun i => fmFaWidth i + 4, fun i m =>
      flagResult i m (decide (m.field (fmFaAddr i) (fmFaWidth i) ≠ 0))),
   (.fmFlag, 0x022, fun _ => 3, fun i m =>
      let code := bits (fmScalar i) 3 0
      flagResult i m ((if code < 8 then m.flag (flagOf code) else code == 9) != bit (fmScalar i) 4)),
   (.fmSel, 0x023, fun i => fmFdWidth i + 4, fun i m =>
      dOut (if m.flag (flagOf (fmFlag i)) then m.opA i (fmFdWidth i) else m.opB i (fmFdWidth i))),
   (.fmMax, 0x024, fun i => max (fmFaWidth i) (fmWb i) + fmFdWidth i + 9, fun i m =>
      dtOut (wrap (fmFdWidth i) (max (m.exactA i) (m.exactB i))) (decide (m.exactB i ≤ m.exactA i))),
   (.fmMin, 0x025, fun i => max (fmFaWidth i) (fmWb i) + fmFdWidth i + 9, fun i m =>
      dtOut (wrap (fmFdWidth i) (min (m.exactA i) (m.exactB i))) (decide (m.exactA i ≤ m.exactB i)))] :
  List (Instr × Nat × (Nat → Nat) × (Nat → SortSt → RomOut)))

end Sys2Proof.Claims

open Sys2Proof Sys2Proof.Machine Sys2Proof.Claims

/-! ## The statements -/

/-- R442 to R444: each integer operation and immediate retires with its result in rd, and changes nothing but the core. -/
def Obligations.QuireIntegerResults : Prop :=
  (∀ x, IntOp x → ∀ (k w : Nat) (s : State) (c c1 : CoreSt) (fs : List Nat),
    Lockstep s (k % 2) c → Fetches s (k % 2) c w c1 fs → qKey w = (0x01, x.2.1) →
    exec (x.1 k) s = .next (fetched s (k % 2) (retire (s.periodFc (k % 2))
      (c1.setG (qRd w) (x.2.2 (c.getG (qRa w)) (c.getG (qRb w)) (c.getG (qRc w)) (qRb w))) (c.pc + 4)) fs)) ∧
  (∀ x, ImmOp x → ∀ (k w : Nat) (s : State) (c c1 : CoreSt) (fs : List Nat),
    Lockstep s (k % 2) c → Fetches s (k % 2) c w c1 fs → qMajor w = x.2.1 →
    exec (x.1 k) s = .next (fetched s (k % 2) (retire (s.periodFc (k % 2))
      (c1.setG (qRd w) (x.2.2 (c.getG (qRa w)) (BitVec.ofNat 16 w))) (c.pc + 4)) fs))

/-- R442, R454, R455: divides and pair operations; a pair operation with an odd rd raises ILLEGAL. -/
def Obligations.QuireDividesAndPairs : Prop :=
  (∀ x, DivOp x → ∀ (k w : Nat) (s : State) (c c1 : CoreSt) (fs : List Nat),
    Lockstep s (k % 2) c → Fetches s (k % 2) c w c1 fs → qKey w = (0x01, x.2.1) →
    exec (x.1 k) s = .next (fetched s (k % 2) (retire (s.periodFc (k % 2))
      (c1.setG (qRd w) (x.2.2.2 (c.getG (qRa w)) (c.getG (qRb w)))) (c.pc + 4)
      (divTime c (c.getG (qRa w)) x.2.2.1)) fs)) ∧
  (∀ x, PairOp x → ∀ (k w : Nat) (s : State) (c c1 : CoreSt) (fs : List Nat),
    Lockstep s (k % 2) c → Fetches s (k % 2) c w c1 fs → qKey w = (0x01, x.2.1) →
    let a := c.getG (qRa w)
    let b := c.getG (qRb w)
    (qRd w % 2 = 0 → exec (x.1 k) s = .next (fetched s (k % 2) (retire (s.periodFc (k % 2))
      ((c1.setG (qRd w) (x.2.2.1 a b)).setG (qRd w + 1) (x.2.2.2.1 a b)) (c.pc + 4) (x.2.2.2.2 c a)) fs)) ∧
    (qRd w % 2 = 1 → c.exl = false → c.fast = false →
      exec (x.1 k) s = .next (fetched s (k % 2) (entered (s.periodFc (k % 2)) c1 1 c.pc 0) fs)))

/-- R447, R449, R457: the floating-point operations retire with their result and raise their flags; a general register field
above 31 raises ILLEGAL (R441). -/
def Obligations.QuireFloatResults : Prop :=
  ∀ (k w : Nat) (s : State) (c c1 : CoreSt) (fs : List Nat),
    Lockstep s (k % 2) c → Fetches s (k % 2) c w c1 fs →
    (∀ x, FOp x → qKey w = (0x28, x.2.1) →
      let a := (c.getF (qFa w)).toNat
      let b := (c.getF (qFb w)).toNat
      let r := x.2.2 c.rm a b
      exec (x.1 k) s = .next (fetched s (k % 2) (retire (s.periodFc (k % 2))
        ((c1.setF (qFd w) (BitVec.ofNat 32 r.1)).raise r.2) (c.pc + 4) (fTime c x.2.1 a b)) fs)) ∧
    (∀ x, FgOp x → qKey w = (0x28, x.2.1) →
      let r := x.2.2 c.rm (c.getF (qFa w)).toNat (c.getF (qFb w)).toNat
      (qFd w < 32 → exec (x.1 k) s = .next (fetched s (k % 2) (retire (s.periodFc (k % 2))
        ((c1.setG (qFd w) (BitVec.ofNat 32 r.1)).raise r.2) (c.pc + 4)) fs)) ∧
      (32 ≤ qFd w → c.exl = false → c.fast = false →
        exec (x.1 k) s = .next (fetched s (k % 2) (entered (s.periodFc (k % 2)) c1 1 c.pc 0) fs))) ∧
    (∀ x, GfOp x → qKey w = (0x28, x.2.1) →
      let r := x.2.2 c.rm (c.getG (qFa w))
      (qFa w < 32 → exec (x.1 k) s = .next (fetched s (k % 2) (retire (s.periodFc (k % 2))
        ((c1.setF (qFd w) (BitVec.ofNat 32 r.1)).raise r.2) (c.pc + 4)) fs)) ∧
      (32 ≤ qFa w → c.exl = false → c.fast = false →
        exec (x.1 k) s = .next (fetched s (k % 2) (entered (s.periodFc (k % 2)) c1 1 c.pc 0) fs))) ∧
    (∀ x, FmOp x → qKey w = (0x29, x.2.1) →
      let r := fma c.rm x.2.2.1 x.2.2.2 (c.getF (qFa w)).toNat (c.getF (qFb w)).toNat (c.getF (qFc w)).toNat
      exec (x.1 k) s = .next (fetched s (k % 2) (retire (s.periodFc (k % 2))
        ((c1.setF (qFd w) (BitVec.ofNat 32 r.1)).raise r.2) (c.pc + 4)) fs))

/-- R448, R449: the vector operations: every lane from the same lane of the operands, the flags of all lanes raised;
VBCAST copies one f register, VSUM adds the lanes by its tree. -/
def Obligations.QuireVectorResults : Prop :=
  ∀ (k w : Nat) (s : State) (c c1 : CoreSt) (fs : List Nat),
    Lockstep s (k % 2) c → Fetches s (k % 2) c w c1 fs →
    let lane := fun (v i : Nat) => (c.getF (8 * v + i)).toNat
    let retires := fun (c' : CoreSt) => Host.Outcome.next (fetched s (k % 2) (retire (s.periodFc (k % 2)) c' (c.pc + 4)) fs)
    (∀ x, VOp x → qKey w = (0x2C, x.2.1) →
      let r := fun i => x.2.2 c.rm (lane (qVa w) i) (lane (qVb w) i) (lane (qVc w) i)
      exec (x.1 k) s = retires ((c1.setV (qVd w) ((List.range 8).map fun i => BitVec.ofNat 32 (r i).1)).raise
        ((List.range 8).foldl (fun n i => n ||| (r i).2) 0))) ∧
    (qKey w = (0x2C, 0x0E) →
      exec (.qVbcast k) s = retires (c1.setV (qVd w) (List.replicate 8 (c.getF (qSr w))))) ∧
    (qKey w = (0x2C, 0x0F) →
      let plus := fun (x y : Nat × Nat) => ((fadd c.rm x.1 y.1).1, x.2 ||| y.2 ||| (fadd c.rm x.1 y.1).2)
      let l := fun i => (lane (qVa w) i, 0)
      let r := plus (plus (plus (l 0) (l 1)) (plus (l 2) (l 3))) (plus (plus (l 4) (l 5)) (plus (l 6) (l 7)))
      exec (.qVsum k) s = retires ((c1.setF (qSr w) (BitVec.ofNat 32 r.1)).raise r.2))

/-- R428, R432 to R434, R445: a load that passes its checks waits for its data, a store enters the write buffer; the first
check that fails raises its exception, and nothing is read or written. -/
def Obligations.QuireLoadsAndStores : Prop :=
  ∀ (k w : Nat) (s : State) (c c1 : CoreSt) (fs : List Nat),
    Lockstep s (k % 2) c → Fetches s (k % 2) c w c1 fs →
    (∀ x, LoadOp x → qKey w = x.2.1 →
      let g := c.getSeg (x.2.2.1.seg w)
      let o := (x.2.2.1.off w c).toNat
      let a := (g.base + o) % 2 ^ 48
      (accessPasses s (k % 2) g false x.2.2.2.1 o → c.overlaps x.2.2.2.1 [a] = false →
        exec (x.1 k) s = .next (fetched s (k % 2) (awaits (s.periodFc (k % 2)) c1
          { dst := x.2.2.2.2 (qRd w), size := x.2.2.2.1, addrs := [a] } (loadTime (k % 2) [a])) fs)) ∧
      (accessPasses s (k % 2) g false x.2.2.2.1 o → c.overlaps x.2.2.2.1 [a] = true → exec (x.1 k) s = .next s) ∧
      (∀ f, accessFault s (k % 2) g false x.2.2.2.1 o = some f → c.exl = false → c.fast = false →
        exec (x.1 k) s = .next (fetched s (k % 2) (entered (s.periodFc (k % 2)) c1 f.1 c.pc (BitVec.ofNat 32 f.2)) fs))) ∧
    (∀ x, StoreOp x → qKey w = x.2.1 →
      let g := c.getSeg (x.2.2.1.seg w)
      let o := (x.2.2.1.off w c).toNat
      let a := (g.base + o) % 2 ^ 48
      (accessPasses s (k % 2) g true x.2.2.2.1 o → c.wbuf.length < 8 →
        exec (x.1 k) s = .next (fetched s (k % 2) (retire (s.periodFc (k % 2))
          { c1 with wbuf := c.wbuf ++ [[(a, bytesLE x.2.2.2.1 (x.2.2.2.2 c (qRd w)).toNat)]] } (c.pc + 4)) fs)) ∧
      (accessPasses s (k % 2) g true x.2.2.2.1 o → 8 ≤ c.wbuf.length → exec (x.1 k) s = .next s) ∧
      (∀ f, accessFault s (k % 2) g true x.2.2.2.1 o = some f → c.exl = false → c.fast = false →
        exec (x.1 k) s = .next (fetched s (k % 2) (entered (s.periodFc (k % 2)) c1 f.1 c.pc (BitVec.ofNat 32 f.2)) fs)))

/-- R445, R464, R465: vector loads and stores check every lane first; the lowest failing lane raises the exception, with its
number in ECAUSE; an operand that names no vector register raises ILLEGAL. -/
def Obligations.QuireVectorMemory : Prop :=
  ∀ (k w : Nat) (s : State) (c c1 : CoreSt) (fs : List Nat) (x : (Nat → Instr) × (Nat × Nat) × Bool × Bool),
    Lockstep s (k % 2) c → Fetches s (k % 2) c w c1 fs →
    x ∈ [((fun k => .qVld k : Nat → Instr), ((0x1C, 0) : Nat × Nat), false, false), (.qVst, (0x1D, 0), true, false),
         (.qVlds, (0x1E, 0x10), false, true), (.qVsts, (0x1E, 0x11), true, true)] →
    qKey w = x.2.1 →
    let store := x.2.2.1
    let strided := x.2.2.2
    let g := c.getSeg (if strided then bits w 10 8 else bits w 15 13)
    let off := fun (i : Nat) =>
      if strided then (c.getG (qRa w) + BitVec.ofNat 32 i * c.getG (qRb w)).toNat
      else (MemForm.off .m w c + BitVec.ofNat 32 (4 * i)).toNat
    let v := if strided then qRd w else qRd w / 4
    let named := if strided then decide (qRd w < 8) else decide (qRd w % 4 = 0)
    let addrs := (List.range 8).map fun i => (g.base + off i) % 2 ^ 48
    (named = false → c.exl = false → c.fast = false →
      exec (x.1 k) s = .next (fetched s (k % 2) (entered (s.periodFc (k % 2)) c1 (1 + 2 ^ 11) c.pc 0) fs)) ∧
    (named = true → (∀ i < 8, accessPasses s (k % 2) g store 4 (off i)) →
      (store = false → c.overlaps 4 addrs = false →
        exec (x.1 k) s = .next (fetched s (k % 2) (awaits (s.periodFc (k % 2)) c1
          { dst := .v v, size := 4, addrs := addrs } (loadTime (k % 2) addrs)) fs)) ∧
      (store = true → c.wbuf.length < 8 →
        exec (x.1 k) s = .next (fetched s (k % 2) (retire (s.periodFc (k % 2))
          { c1 with wbuf := c.wbuf ++
              [(List.range 8).map fun i => ((g.base + off i) % 2 ^ 48, bytesLE 4 (c.getF (8 * v + i)).toNat)] }
          (c.pc + 4)) fs))) ∧
    (∀ i f, named = true → i < 8 → (∀ j < i, accessPasses s (k % 2) g store 4 (off j)) →
      accessFault s (k % 2) g store 4 (off i) = some f → c.exl = false → c.fast = false →
      exec (x.1 k) s = .next (fetched s (k % 2)
        (entered (s.periodFc (k % 2)) c1 (f.1 + i * 2 ^ 8 + 2 ^ 11) c.pc (BitVec.ofNat 32 f.2)) fs))

/-- R446, R456: a branch or jump retires at its target, a link register holding the pc after it; JR and JLR to a target with
low bits set raise SEG_LIMIT or ALIGN, the first that R428 gives, with EPC and EADDR at the target. -/
def Obligations.QuireControlTransfer : Prop :=
  ∀ (k w : Nat) (s : State) (c c1 : CoreSt) (fs : List Nat),
    Lockstep s (k % 2) c → Fetches s (k % 2) c w c1 fs →
    let goes := fun (c' : CoreSt) (pc : W32) (n : Nat) =>
      Host.Outcome.next (φ := Fault) (ρ := Refusal) (fetched s (k % 2) (retire (s.periodFc (k % 2)) c' pc n) fs)
    let off21 : W32 := (BitVec.ofNat 21 w).signExtend 32 * 4
    let off26 : W32 := (BitVec.ofNat 26 w).signExtend 32 * 4
    let t := c.getG (qRa w)
    let cause := if (c.getSeg 8).limit < t.toNat + 4 then 2 else 4
    (∀ x ∈ [((fun k => .qBez k : Nat → Instr), (0x20 : Nat), true), (.qBnz, 0x21, false)], qMajor w = x.2.1 →
      (decide (c.getG (qRd w) = 0) = x.2.2 → exec (x.1 k) s = goes c1 (c.pc + off21) 2) ∧
      (decide (c.getG (qRd w) = 0) ≠ x.2.2 → exec (x.1 k) s = goes c1 (c.pc + 4) (if c.ct then 2 else 1))) ∧
    (qMajor w = 0x22 → exec (.qJ k) s = goes c1 (c.pc + off26) 2) ∧
    (qMajor w = 0x23 → exec (.qJl k) s = goes (c1.setG 31 (c.pc + 4)) (c.pc + off26) 2) ∧
    (qKey w = (0x30, 0x08) → t.toNat % 4 = 0 → exec (.qJr k) s = goes c1 t 2) ∧
    (qKey w = (0x30, 0x09) → t.toNat % 4 = 0 → exec (.qJlr k) s = goes (c1.setG (qRd w) (c.pc + 4)) t 2) ∧
    (qKey w = (0x30, 0x08) → t.toNat % 4 ≠ 0 → c.exl = false → c.fast = false →
      exec (.qJr k) s = .next (fetched s (k % 2)
        (entered (s.periodFc (k % 2)) (retire (s.periodFc (k % 2)) c1 (alignPc t) 2) cause t t) fs)) ∧
    (qKey w = (0x30, 0x09) → t.toNat % 4 ≠ 0 → c.exl = false → c.fast = false →
      exec (.qJlr k) s = .next (fetched s (k % 2)
        (entered (s.periodFc (k % 2)) (retire (s.periodFc (k % 2)) (c1.setG (qRd w) (c.pc + 4)) (alignPc t) 2) cause t t) fs))

/-- R423, R436, R450, R471: the system instructions that go on: RFE and RFF, MFC and MTC of every control register (a reserved
number raises ILLEGAL), FENCE, WAIT and its release. -/
def Obligations.QuireSystem : Prop :=
  ∀ (k w x : Nat) (s : State) (c c1 : CoreSt) (fs : List Nat),
    Lockstep s (k % 2) c → Fetches s (k % 2) c w c1 fs →
    let goes := fun (c' : CoreSt) (pc : W32) (n : Nat) =>
      Host.Outcome.next (φ := Fault) (ρ := Refusal) (fetched s (k % 2) (retire (s.periodFc (k % 2)) c' pc n) fs)
    let num := bits w 13 6
    let v := c.getG (qRa w)
    let rd := qRd w
    let cyc := max c1.cycle x
    let put := fun (r : Nat) (c' : CoreSt) => c'.fresh [r]
    (qKey w = (0x30, 0x02) → exec (.qRfe k) s = goes (put 128 { c1 with qstatus := c.estatus &&& 0x1F7F }) (alignPc c.epc) 2) ∧
    (qKey w = (0x30, 0x03) → c.fast = true →
      exec (.qRff k) s = goes (put 128 { c1 with qstatus := c.festatus &&& 0x1F7F }) (alignPc c.fepc) 2) ∧
    (qKey w = (0x30, 0x03) → c.fast = false → c.exl = false →
      exec (.qRff k) s = .next (fetched s (k % 2) (entered (s.periodFc (k % 2)) c1 1 c.pc 0) fs)) ∧
    (qKey w = (0x30, 0x04) →
      (∀ y ∈ [((0 : Nat), c.qstatus), (1, c.epc), (2, c.estatus), (3, c.ecause), (4, c.eaddr), (5, c.fepc), (6, c.festatus),
              (7, c.hvecExc), (8, c.hvecNormal), (9, c.hvecFast),
              (14, BitVec.ofNat 32 (k % 2))], num = y.1 → exec (.qMfc k x) s = goes (c1.setG rd y.2) (c.pc + 4) 1) ∧
      (num = 10 → exec (.qMfc k x) s = goes (({ c1 with cycle := cyc, capCycle := some (BitVec.ofNat 32 (cyc / 2 ^ 32)) }).setG rd
        (BitVec.ofNat 32 cyc)) (c.pc + 4) 1) ∧
      (num = 11 → exec (.qMfc k x) s = goes (({ c1 with cycle := cyc, capCycle := none }).setG rd
        (c.capCycle.getD (BitVec.ofNat 32 (cyc / 2 ^ 32)))) (c.pc + 4) 1) ∧
      (num = 12 → exec (.qMfc k x) s = goes (({ c1 with capInstret := some (BitVec.ofNat 32 (c.instret / 2 ^ 32)) }).setG rd
        (BitVec.ofNat 32 c.instret)) (c.pc + 4) 1) ∧
      (num = 13 → exec (.qMfc k x) s = goes (({ c1 with capInstret := none }).setG rd
        (c.capInstret.getD (BitVec.ofNat 32 (c.instret / 2 ^ 32)))) (c.pc + 4) 1) ∧
      (15 ≤ num → c.exl = false → c.fast = false →
        exec (.qMfc k x) s = .next (fetched s (k % 2) (entered (s.periodFc (k % 2)) c1 1 c.pc 0) fs))) ∧
    (qKey w = (0x30, 0x05) →
      (∀ y ∈ [((0 : Nat), { c1 with qstatus := (v &&& 0x1F3F) ||| (c.qstatus &&& 0x40) }), (1, { c1 with epc := v }),
              (2, { c1 with estatus := v &&& 0x1F7F }), (3, { c1 with ecause := v &&& 0xFFC00F1F }), (4, { c1 with eaddr := v }),
              (5, { c1 with fepc := v }), (6, { c1 with festatus := v &&& 0x1F7F }), (7, { c1 with hvecExc := v }),
              (8, { c1 with hvecNormal := v }), (9, { c1 with hvecFast := v })], num = y.1 →
        exec (.qMtc k) s = goes (put (128 + num) y.2) (c.pc + 4) 1) ∧
      (10 ≤ num → num ≤ 14 → exec (.qMtc k) s = goes c1 (c.pc + 4) 1) ∧
      (15 ≤ num → c.exl = false → c.fast = false →
        exec (.qMtc k) s = .next (fetched s (k % 2) (entered (s.periodFc (k % 2)) c1 1 c.pc 0) fs))) ∧
    (qKey w = (0x30, 0x06) →
      exec (.qFence k) s = if c.wbuf = [] then goes { c1 with lines := [] } (c.pc + 4) 1 else .next s) ∧
    (qKey w = (0x30, 0x07) →
      exec (.qWait k) s = goes { c1 with waiting := !(s.requestPresent (k % 2)) } (c.pc + 4) 1)

/-- R426, R427, R451, R452: SEGLD waits for a descriptor, SEGST stores one, ENQ and ENQV hand a Forme instruction to the
sequencer; a segment number above 8, and ENQ on the Colophon, raise ILLEGAL. -/
def Obligations.QuireSegmentsAndEnqueue : Prop :=
  ∀ (k w : Nat) (s : State) (c c1 : CoreSt) (fs : List Nat),
    Lockstep s (k % 2) c → Fetches s (k % 2) c w c1 fs →
    let g := c.getSeg (bits w 21 19)
    let base := c.getG (bits w 18 14)
    let off := fun (i : Nat) => (base + BitVec.ofNat 32 (4 * i)).toNat
    let addr := fun i => (g.base + off i) % 2 ^ 48
    let illegal := Host.Outcome.next (φ := Fault) (ρ := Refusal) (fetched s (k % 2) (entered (s.periodFc (k % 2)) c1 1 c.pc 0) fs)
    let sd := bits w 25 22
    let img := c.getSeg sd
    let bs := bytesLE 6 img.base ++ [0, 0] ++ bytesLE 4 img.limit ++ bytesLE 1 img.rights ++ [0, 0, 0]
    (qKey w = (0x30, 0x10) → sd ≤ 8 → (∀ i < 4, accessPasses s (k % 2) g false 4 (off i)) →
      c.overlaps 4 ((List.range 4).map addr) = false →
      exec (.qSegld k) s = .next (fetched s (k % 2) (awaits (s.periodFc (k % 2)) c1
        { dst := .seg sd (c.getG (bits w 13 9)).toNat base.toNat, size := 4, addrs := (List.range 4).map addr }
        (4 + loadTime (k % 2) ((List.range 4).map addr))) fs)) ∧
    (qKey w = (0x30, 0x11) → sd ≤ 8 → (∀ i < 4, accessPasses s (k % 2) g true 4 (off i)) → c.wbuf.length < 8 →
      exec (.qSegst k) s = .next (fetched s (k % 2) (retire (s.periodFc (k % 2)) { c1 with wbuf := c.wbuf ++
        [(List.range 4).map fun i => (addr i, (bs.drop (4 * i)).take 4)] } (c.pc + 4) 5) fs)) ∧
    (∀ y ∈ [((0x10 : Nat), Instr.qSegld k), (0x11, .qSegst k)], qKey w = (0x30, y.1) → 9 ≤ sd → c.exl = false →
      c.fast = false → exec y.2 s = illegal) ∧
    (∀ y ∈ [((0x20 : Nat), Instr.qEnq k, decide (qRa w % 4 = 0), fun i => c.getG (qRa w + i)),
            (0x21, .qEnqv k, decide (qRa w < 8), fun i => c.getF (8 * qRa w + i))],
      qKey w = (0x30, y.1) →
      (k % 2 = 0 → y.2.2.1 = true → s.seq.discard = false → c.wbuf = [] → s.seq.queue.length < 64 →
        let f := (List.range 4).foldl (fun n i => n + (y.2.2.2 i).toNat * 2 ^ (32 * i)) 0
        exec y.2.1 s = .next (State.onSeq (fetched s 0 (retire 1 c1 (c.pc + 4)) fs) fun q =>
          { q with queue := q.queue ++ [f],
                   marked := if isPlaten (fmOp f) ∧ fmGreg f ≠ 0 ∧ fmGreg f ∉ q.marked then fmGreg f :: q.marked
                     else q.marked })) ∧
      (k % 2 = 0 → y.2.2.1 = true → s.seq.discard = true → ∃ t, exec y.2.1 s = .next t ∧
        (∀ n ∈ s.complexCores 0, t.core n = retire 1 c1 (c.pc + 4)) ∧ t.seq.queue = s.seq.queue) ∧
      (k % 2 = 0 → y.2.2.1 = true → s.seq.discard = false → c.wbuf ≠ [] ∨ 64 ≤ s.seq.queue.length → exec y.2.1 s = .next s) ∧
      (k % 2 = 1 ∨ y.2.2.1 = false → c.exl = false → c.fast = false → exec y.2.1 s = illegal))

/-- R440, R450, R462, R463, R467 to R470, R636: TRAP, BRK and an unassigned encoding take their exception; while EXL = 1 or
FAST = 1 they halt the core instead, with EPC, ESTATUS and ECAUSE of the earlier exception kept, and a Compositor pair reports
QUIRE_HALT; an interrupt is entered at an instruction boundary, and its acceptance is on its way to the Event Controller: the
normal class with EPC, ESTATUS, ECAUSE and EXL, the fast class, which goes first, with FEPC, FESTATUS and FAST; a class that
is not takeable enters nothing. -/
def Obligations.QuireExceptionEntry : Prop :=
  (∀ (k w : Nat) (s : State) (c c1 : CoreSt) (fs : List Nat),
     Lockstep s (k % 2) c → Fetches s (k % 2) c w c1 fs →
     let j := k % 2
     ∀ (i : Instr) (cause : Nat) (epc : W32),
       (qKey w = (0x30, 0x00) ∧ i = .qTrap k ∧ cause = 9 + bits w 15 6 * 2 ^ 22 ∧ epc = c.pc + 4) ∨
       (qKey w = (0x30, 0x01) ∧ i = .qBrk k ∧ cause = 10 ∧ epc = c.pc) ∨
       (qBodyOf (qKey w) = none ∧ i = .qIllegal k ∧ cause = 1 ∧ epc = c.pc) →
       (c.exl = false → c.fast = false → exec i s = .next (fetched s j (entered (s.periodFc j) c1 cause epc 0) fs)) ∧
       (c.exl = true ∨ c.fast = true →
         exec i s = .next (let t := fetched s j { c1 with halted := true } fs
           if j = 0 then t.report pgCOMPOSITOR 0x01A 13 epc.toNat cause else t))) ∧
  (∀ (k : Nat) (s : State) (c : CoreSt), s.complexCores (k % 2) ≠ [] → (∀ n ∈ s.complexCores (k % 2), s.core n = c) →
     c.halted = false → c.load = none →
     let j := k % 2
     let fast := (s.presented j true).isSome = true ∧ c.qstatus.getLsbD 4 = true ∧ c.qstatus.getLsbD 6 = false
     let normal := (s.presented j false).isSome = true ∧ c.qstatus.getLsbD 3 = true ∧ c.qstatus.getLsbD 5 = false ∧
       c.qstatus.getLsbD 6 = false ∧ ¬ fast
     let accepts := fun (t : State) (cls : Bool) => t.onEvt fun e =>
       { e with accepting := e.accepting ++ [(j, cls, (s.presented j cls).getD 0)] }
     (normal → exec (.interruptEntryNormal k) s = .next (accepts (allCores s j (CoreSt.fresh
       { c with epc := c.pc, estatus := c.qstatus, ecause := 16, qstatus := c.qstatus ||| 0x20,
                pc := alignPc c.hvecNormal, waiting := false, cycle := c.cycle + 4 * s.periodFc j } [128, 129, 130, 131])) false)) ∧
     (¬ normal → exec (.interruptEntryNormal k) s = .next s) ∧
     (fast → exec (.interruptEntryFast k) s = .next (accepts (allCores s j (CoreSt.fresh
       { c with fepc := c.pc, festatus := c.qstatus, qstatus := c.qstatus ||| 0x40, pc := alignPc c.hvecFast,
                waiting := false, cycle := c.cycle + 2 * s.periodFc j } [128, 133, 134])) true)) ∧
     (¬ fast → exec (.interruptEntryFast k) s = .next s) ∧
     (s.requestPresent j = true → exec (.waitRelease k) s = .next (allCores s j { c with waiting := false })) ∧
     (s.requestPresent j = false → exec (.waitRelease k) s = .next s))

/-- R313 to R321, R246, R247, R323, R324: a ROM routine forms its result in every sort in service at once, each from the
sort's own case memory and flags; a sort out of service is unchanged; FM.NEWS gives D the A operand of the neighbour on the
side opposite DIR, the array closed on itself in GLOBAL mode; in LOCAL mode a sort on its galley's receiving edge takes
SCALAR, sign-extended. -/
def Obligations.FormeRoutineResults : Prop :=
  (∀ x, RomOp x → ∀ (s : State) (i : Nat), RoutineReady s x.2.1 x.2.2.1 i → RowMapInjective s →
     ∃ t, exec x.1 s = .next t ∧ RoutineEnded s t (x.2.2.1 i) ∧
       (∀ q ∈ s.logical, t.sort (s.place q.1 q.2) = formed i (x.2.2.2 i (s.sort (s.place q.1 q.2))) (s.sort (s.place q.1 q.2))) ∧
       (∀ k, (∀ q ∈ s.logical, k ≠ s.place q.1 q.2) → t.sort k = s.sort k)) ∧
  (∀ (s : State) (i : Nat), RoutineReady s 0x028 (fun i => fmFdWidth i + (if fmGlobal i then 3 else 2)) i → RowMapInjective s →
     ∃ t, exec .fmNews s = .next t ∧ RoutineEnded s t (fmFdWidth i + (if fmGlobal i then 3 else 2)) ∧
       (∀ x y, x < 512 → y < 32 * s.rows →
         let h := 32 * s.rows
         let edge := match fmDir i with
           | 0 => decide (y % 32 = 31) | 1 => decide (x % 32 = 0) | 2 => decide (x % 32 = 31) | _ => decide (y % 32 = 0)
         let src := match fmDir i with
           | 0 => (x, (y + 1) % h) | 1 => ((x + 511) % 512, y) | 2 => ((x + 1) % 512, y) | _ => (x, (y + h - 1) % h)
         let v := if fmGlobal i = false ∧ edge = true then extend 32 (fmFdWidth i) true (fmScalar i)
           else (s.sort (s.place src.1 src.2)).opA i (fmFdWidth i)
         t.sort (s.place x y) = formed i (dOut v) (s.sort (s.place x y))) ∧
       (∀ k, (∀ q ∈ s.logical, k ≠ s.place q.1 q.2) → t.sort k = s.sort k))

/-- R263, R264, R326, R264 to R268, R331: a Platen instruction issues its operation with the value the sorts in service with E
= 0 give now; its result is due 20, 40 or 44 Fc cycles after its one cycle; the earliest due result reaches its general
register in every core of the pair, unless a later operation to the register overtook it; OR, AND and OR_ABORT drive their
tap, and an OR_ABORT that is 1 requests a fade with CAUSE 2. -/
def Obligations.FormePlaten : Prop :=
  (∀ x ∈ ([(.fmPlor, 0x030, 1, 20), (.fmPland, 0x031, 2, 20), (.fmPlabt, 0x032, 3, 20), (.fmPlcnt, 0x033, 4, 40),
           (.fmPlfst, 0x034, 5, 44)] : List (Instr × Nat × Nat × Nat)),
     ∀ (s : State) (c : Routine), s.seq.cur = some c → fmOp c.instr = x.2.1 → c.micro = false → SequencerSound s →
     let r := fmGreg c.instr
     let due := s.seq.fc + 1 + x.2.2.2
     let e := fun (q : Nat × Nat) => (s.sort (s.place q.1 q.2)).e
     let p := fun (q : Nat × Nat) => !e q && (s.sort (s.place q.1 q.2)).flag 3
     ∃ t v, exec x.1 s = .next t ∧ t.seq.cur = none ∧ t.seq.fc = s.seq.fc + 1 ∧
       t.seq.platen = (s.seq.platen.map fun y => if y.greg = r ∧ due < y.due then { y with overtaken := true } else y) ++
         [{ op := x.2.2.1, greg := r, result := v, due := due, overtaken := false }] ∧
       (x.2.2.1 = 1 ∨ x.2.2.1 = 3 → v = b2n (s.logical.any p)) ∧
       (x.2.2.1 = 2 → v = b2n (s.logical.all fun q => e q || p q)) ∧
       (x.2.2.1 = 4 → v = (s.logical.filter p).length) ∧
       (x.2.2.1 = 5 → v = match s.logical.find? p with
         | some q => q.2 * 512 + q.1
         | none => 0x00040000) ∧
       SortsKept s t ∧ MemoryKept s t ∧ RegsKept s t [pgCOMPOSITOR] ∧ t.cores = s.cores) ∧
  (∀ (s : State) (n : Nat) (x : PlatenOp), s.seq.platen = [x] → s.seq.queue = [] → s.seq.cur = none →
     ∃ t, exec (.platenResult n) s = .next t ∧ t.seq.platen = [] ∧ x.greg ∉ t.seq.marked ∧ SortsKept s t ∧ MemoryKept s t ∧
       (x.overtaken = true → t.cores = s.cores ∧ t.regs = s.regs ∧ t.drive = s.drive ∧ t.out = s.out) ∧
       (x.overtaken = false →
         (∀ k ∈ s.pairCores, x.greg ≠ 0 → SMap.get 0 (t.core k).g x.greg = BitVec.ofNat 32 x.result) ∧
         (∀ k, k ∉ s.pairCores → t.core k = s.core k) ∧ (x.greg = 0 → t.cores = s.cores) ∧
         (x.op ≤ 3 → bit (t.get pgFORME FORME_TAPS_TAP) (x.greg % 16) = decide (x.result = 1) ∧
           Output.platenTap (x.greg % 16) (decide (x.result = 1)) ∈ t.out) ∧
         (x.op = 3 → t.drive.abortPlane = decide (x.result = 1)) ∧
         (x.op = 3 → x.result = 1 → s.get pgDRIVE DRIVE_FADE_STATUS_STATE = 0 →
           t.get pgDRIVE DRIVE_FADE_STATUS_STATE = 1 ∧ t.drive.t0 = (s.advance n).dev ∧ (s.pending = [] → t.drive.fadeCause = 2)) ∧
         (x.op ≠ 3 → t.drive = s.drive)))

/-- R340 to R343, R379, R387: FM.WAIT ends after 2 Fc cycles when its condition holds, and waits otherwise; a wait ends 2 Fc
cycles after the condition first holds, is abandoned with cause 2 when SCALAR cycles pass without it, and with cause 1 when
the routine budget ends first. The five conditions are those of R340. -/
def Obligations.FormeWaits : Prop :=
  ∀ (s : State) (c : Routine), s.seq.cur = some c → fmOp c.instr = 0x03C → c.micro = false → c.cycles = 0 →
    s.seq.upset = false → s.forme.uwordBad = [] →
    let code := bits (fmMod c.instr) 2 0
    let line := bits (fmMod c.instr) 6 3
    let limit := fmScalar c.instr
    let fc := s.seq.fc
    let holds := fun (cycle : Nat) => match code with
      | 0 => ∀ x ∈ s.seq.platen, x.due ≤ cycle
      | 1 => s.forme.io = none
      | 2 => ∃ m, s.impose.ready = some m ∧ s.comp.block ≤ m
      | 3 => c.ticked = true
      | _ => (SMap.get EvtLine.reset s.evt.lines line).filtered = true
    let ended := fun (t : State) (n : Nat) => t.seq.cur = none ∧ t.seq.fc = fc + n ∧ t.seq.discard = s.seq.discard ∧
      t.seq.queue = s.seq.queue ∧ (SequencerSound s → SortsKept s t ∧ MemoryKept s t ∧ RegsKept s t [pgCOMPOSITOR])
    let abandoned := fun (t : State) (n cause : Nat) => t.seq.cur = none ∧ t.seq.fc = fc + n ∧ t.seq.discard = true ∧
      t.seq.queue = [] ∧ t.get pgCOMPOSITOR COMP_ABANDON_CAUSE = cause ∧
      t.get pgCOMPOSITOR COMP_ABANDON_OPCODE = 0x03C ∧ (SequencerSound s → MemoryKept s t)
    (c.wait = none → holds fc → ∃ t, exec .fmWait s = .next t ∧ ended t 2) ∧
    (c.wait = none → ¬ holds fc → ∃ u, exec .fmWait s =
      .next ({ s with free := s.free + 1 }.onSeq fun q => { q with cur := some { c with wait := some 0, uaddr := u } })) ∧
    (∀ n, c.wait.isSome = true → holds (fc + n) → n < limit → n + 2 ≤ c.budget →
      ∃ t, exec (.fmWaitEnd n) s = .next t ∧ ended t (n + 2)) ∧
    (c.wait.isSome = true → ¬ holds (fc + limit - 1) → limit < c.budget →
      ∃ t, exec .waitTimeout s = .next t ∧ abandoned t limit 2) ∧
    (c.wait.isSome = true → ¬ holds (fc + c.budget - 1) → c.budget ≤ limit →
      ∃ t, exec .routineBudgetExpiry s = .next t ∧ abandoned t c.budget 1)

/-- R392, R412, R54, R403 to R406: COMP_SEQ_CTRL takes ENABLE; REARM from the Compositor ends the discard state while no
routine runs; FLUSH enters it, at once while no routine runs and at the next boundary otherwise; a microword written whole in
one access waits in the staging register for its boundary, and commits at once while no routine runs; a dispatch entry
likewise; the match registers take writes from boot firmware alone, before the quoin. A write outside the customer range is
ignored with reason READ_ONLY_RANGE. -/
def Obligations.SequencerAndControlStore : Prop :=
  (∀ (s : State) (m : Nat) (v : W32), s.accepts m pgCOMPOSITOR 0x048 = true →
     (v.getLsbD 1 = false → v.getLsbD 2 = false →
       ∃ t, exec (.seqEnableWrite m v) s = .next t ∧ t.on pgCOMPOSITOR COMP_SEQ_CTRL_ENABLE = v.getLsbD 0 ∧ t.seq = s.seq ∧
         SortsKept s t ∧ MemoryKept s t ∧ RegsKept s t [pgCOMPOSITOR]) ∧
     (v.getLsbD 1 = false → m = 0 → s.seq.discard = true → s.seq.cur = none →
       ∃ t, exec (.seqRearm m v) s = .next t ∧ t.seq = { s.seq with discard := false } ∧
         t.on pgCOMPOSITOR COMP_SEQ_CTRL_ENABLE = v.getLsbD 0) ∧
     (v.getLsbD 2 = false → s.seq.cur = none →
       ∃ t, exec (.seqFlush m v) s = .next t ∧ t.seq.discard = true ∧ t.seq.queue = [] ∧ MemoryKept s t) ∧
     (v.getLsbD 2 = false → s.seq.cur ≠ none →
       ∃ t, exec (.seqFlush m v) s = .next t ∧ t.seq = { s.seq with flush := true } ∧ MemoryKept s t)) ∧
  (∀ (s : State) (m u : Nat) (data : List Byte), 0x8000 ≤ u → u ≤ 0x9FFF → data.length = 24 → s.cstore.staging = none →
    s.regionOk m (cstoreBase + 32 * u) 24 true = true → (s.on pgCSTORE CSTORE_STATUS_OWNER_ONLY = true → m = 1) →
    let x := ofLE data % 2 ^ 176
    (s.seq.cur = none → s.cstore.ready = [] → s.cstore.entries = [] →
      ∃ t, exec (.cstoreWindowWrite m (cstoreBase + 32 * u) data) s = .next t ∧ SMap.get 0 t.cstore.words u = x ∧
        (∀ u', u' ≠ u → SMap.get 0 t.cstore.words u' = SMap.get 0 s.cstore.words u') ∧ u ∉ t.cstore.bad ∧
        t.cstore.staging = none ∧ MemoryKept s t ∧ RegsKept s t [pgCSTORE]) ∧
    (s.seq.cur ≠ none →
      ∃ t, exec (.cstoreWindowWrite m (cstoreBase + 32 * u) data) s = .next t ∧ t.cstore.words = s.cstore.words ∧
        t.cstore.staging = some (u, x, true) ∧ t.on pgCSTORE CSTORE_STATUS_STAGED = true)) ∧
  (∀ (s : State) (m u : Nat) (data : List Byte), u < 0x8000 → data.length = 24 →
    s.regionOk m (cstoreBase + 32 * u) 24 true = true →
    ∃ t, exec (.cstoreWindowWrite m (cstoreBase + 32 * u) data) s = .next t ∧ t.cstore = s.cstore ∧
      t.get pgCSTORE IGNORED_CAUSE_REASON = 5 ∧ MemoryKept s t) ∧
  (∀ (s : State) (m : Nat) (v : W32), s.accepts m pgCSTORE 0x048 = true →
    (s.on pgCSTORE CSTORE_STATUS_OWNER_ONLY = true → m = 1) → 768 ≤ s.get pgCSTORE CSTORE_DISPATCH_INDEX_INDEX →
    (v.getLsbD 31 = true → 0x8000 ≤ v.toNat % 2 ^ 16 ∧ v.toNat % 2 ^ 16 ≤ 0x9FFF) →
    s.seq.cur = none → s.cstore.complete = false → s.cstore.ready = [] → s.cstore.entries = [] →
    ∃ t, exec (.dispatchEntryWrite m v) s = .next t ∧
      t.reg pgCSTORE 0x048 (s.get pgCSTORE CSTORE_DISPATCH_INDEX_INDEX + 1) = v &&& 0x8000FFFF ∧ t.cstore.words = s.cstore.words ∧
      RegsKept s t [pgCSTORE]) ∧
  (∀ (s : State) (v : W32), s.accepts 1 pgCSTORE 0x050 = true → s.quoined pgCSTORE = false → v.toNat % 2 ^ 16 ≤ 0x7FFF →
    ∃ t, exec (.cstoreMatchWrite 1 v) s = .next t ∧
      t.reg pgCSTORE 0x050 (s.get pgCSTORE CSTORE_MATCH_INDEX_INDEX + 1) = v &&& 0x83FFFFFF ∧ t.cstore = s.cstore ∧
      RegsKept s t [pgCSTORE])

/-- R216, R231, R232, R241, R243, R284, R282, R283, R289: the two copies of a flag differing raise E in that sort, once, with
check code 6 in FORME_E_FIRST; E_CLEAR clears every E and lets galleys report again, at once while no routine runs; a scrub
read moves to the next word, and waits while the Forme sleeps; with DEBUG_EN = 1 and BUSY = 0 a write of GALLEY_DBG_ADDR or
GALLEY_DBG_DATA starts an access; when it completes, a read has its word in GALLEY_DBG_DATA, a write has changed that word
alone, and BUSY is 0. -/
def Obligations.FormeErrorsAndDebug : Prop :=
  (∀ (s : State) (row p q r : Nat), row < 16 → p < 17 → q < 33 → r < 32 →
    let key := sortKey row p q r
    ((s.sort key).e = true → ∃ t, exec (.flagCopyMismatch row p q r) s = .next t ∧ t.forme = s.forme ∧ t.fault = s.fault) ∧
    ((s.sort key).e = false →
      ∃ t, exec (.flagCopyMismatch row p q r) s = .next t ∧ t.sort key = { s.sort key with e := true } ∧
        (∀ k, k ≠ key → t.sort k = s.sort k) ∧ MemoryKept s t ∧
        (s.on pgFORME FORME_E_FIRST_VALID = false → t.on pgFORME FORME_E_FIRST_VALID = true ∧
          t.get pgFORME FORME_E_FIRST_CHECK = 6 ∧ t.get pgFORME FORME_E_FIRST_POSITION = key) ∧
        (row * 17 + p ∉ s.forme.told →
          ∃ d, t.fault.net = s.fault.net ++ [⟨0x100 + (row * 17 + p), 1, key, d⟩] ∧ (s.seq.cur = none → d / 2 ^ 16 = 6)))) ∧
  (∀ (s : State) (m : Nat) (v : W32), s.accepts m pgFORME 0x040 = true → s.seq.cur = none →
    SMap.wf (fun _ => SortSt.reset) s.forme.sorts = true →
    ∃ t, exec (.eClearWrite m v) s = .next t ∧ (∀ k, t.sort k = { s.sort k with e := false }) ∧ t.forme.told = [] ∧
      t.on pgFORME FORME_E_FIRST_VALID = false ∧ MemoryKept s t) ∧
  (∀ (s : State) (m : Nat) (v : W32), s.accepts m pgFORME 0x040 = true → s.seq.cur ≠ none →
    ∃ t, exec (.eClearWrite m v) s = .next t ∧ t.forme = { s.forme with eClear := true } ∧ MemoryKept s t) ∧
  (∀ (s : State), s.rows ≠ 0 → s.formeAsleep = true → exec .caseScrubDue s = .next s) ∧
  (∀ (s : State), s.seq.cur = none → s.rows = 0 ∨ s.formeAsleep = false →
    ∃ t, exec .caseScrubDue s = .next t ∧ t.forme.scrubAddr = (s.forme.scrubAddr + 1) % 512 ∧ t.forme.scrubDue = false ∧
      (∀ k, (t.sort k).mem = (s.sort k).mem ∧ (t.sort k).flags = (s.sort k).flags) ∧ MemoryKept s t) ∧
  (∀ (s : State) (c : Routine), s.seq.cur = some c → c.wait = none → s.forme.scrubDue = false →
    s.rows = 0 ∨ s.formeAsleep = false → exec .caseScrubDue s = .next (s.onForme fun f => { f with scrubDue := true })) ∧
  (∀ (s : State) (r m : Nat) (v : W32), r < 16 → s.on (pgGALLEY r) GALLEY_DBG_STATUS_BUSY = false →
    s.on pgFORME FORME_CTRL_DEBUG_EN = true →
    (s.accepts m (pgGALLEY r) 0x090 = true →
      ∃ t, exec (.dbgAddrWrite r m v) s = .next t ∧ t.reg (pgGALLEY r) 0x090 = v &&& 0x00FFFFFF ∧
        t.on (pgGALLEY r) GALLEY_DBG_STATUS_BUSY = true ∧
        SMap.get none t.forme.dbg r = some { write := none, started := s.seq.cur.isNone } ∧ SortsKept s t ∧ MemoryKept s t) ∧
    (s.accepts m (pgGALLEY r) 0x094 = true →
      ∃ t, exec (.dbgDataWrite r m v) s = .next t ∧ t.on (pgGALLEY r) GALLEY_DBG_STATUS_BUSY = true ∧
        SMap.get none t.forme.dbg r = some { write := some v.toNat, started := s.seq.cur.isNone } ∧
        t.reg (pgGALLEY r) 0x094 = v ∧ SortsKept s t ∧ MemoryKept s t)) ∧
  (∀ (s : State) (r : Nat) (op : DbgOp), r < 16 → SMap.get none s.forme.dbg r = some op → op.started = true →
    s.on (pgGALLEY r) GALLEY_DBG_ADDR_FLAGS = false →
    let p := s.physGalley r (s.get (pgGALLEY r) GALLEY_DBG_ADDR_GALLEY)
    let key := sortKey r p (s.physColumn r p (s.get (pgGALLEY r) GALLEY_DBG_ADDR_COLUMN)) (s.get (pgGALLEY r) GALLEY_DBG_ADDR_ROW)
    let w := s.get (pgGALLEY r) GALLEY_DBG_ADDR_WORD
    ∃ t, exec (.dbgDone r) s = .next t ∧ t.on (pgGALLEY r) GALLEY_DBG_STATUS_BUSY = false ∧
      SMap.get none t.forme.dbg r = none ∧ MemoryKept s t ∧
      (∀ v, op.write = some v → (t.sort key).word w % 2 ^ 32 = v % 2 ^ 32 ∧
        (∀ w', w' ≠ w → (t.sort key).word w' = (s.sort key).word w') ∧ ∀ k, k ≠ key → t.sort k = s.sort k) ∧
      (op.write = none → w ∉ (s.sort key).bad →
        t.reg (pgGALLEY r) GALLEY_DBG_DATA.off = BitVec.ofNat 32 ((s.sort key).word w) ∧
        ∀ k, (t.sort k).mem = (s.sort k).mem))

/-- R349 to R351, R363, R412, R802: the pair's cross-check, the spare core's proof, and the half-press limit. -/
def Obligations.CoreChecks : Prop :=
  (∀ s : State, s.on pgCOMPOSITOR COMP_PAIR_PAIR_OK = true →
    let a := s.get pgCOMPOSITOR COMP_PAIR_FIRST
    let b := s.get pgCOMPOSITOR COMP_PAIR_SECOND
    (s.core a = s.core b → exec .xcheckPass s = .next s) ∧
    (∀ r v, 1 ≤ r → r < 32 → s.core b = { s.core a with g := SMap.set 0 (s.core a).g r v } → v ≠ SMap.get 0 (s.core a).g r →
      ∃ t, exec .xcheckPass s = .next t ∧ Counted s t pgCOMPOSITOR COMP_XCHECK_DIFFS ∧ Pending t pgCOMPOSITOR 3 ∧
        Reported s t 0x013 8 0 (r + 3 * 2 ^ 8) ∧ Beside s t [pgCOMPOSITOR])) ∧
  (∀ s : State,
    let n := s.get pgCOMPOSITOR COMP_PAIR_SPARE
    (n = 3 ∨ s.on pgCOMPOSITOR COMP_PAIR_TRIO = true → ∀ p, exec (.spareCoreProof p) s = .next s) ∧
    (n < 3 → s.on pgCOMPOSITOR COMP_PAIR_TRIO = false →
      (∀ x ∈ ([(none, 5), (some true, 1)] : List (Option Bool × Nat)), ∃ t, exec (.spareCoreProof x.1) s = .next t ∧
        t.get pgCOMPOSITOR (coreStateFld n) = x.2 ∧ Beside s t [pgCOMPOSITOR]) ∧
      (∀ a b, s.pair2 = [a, b] → a < b → b < 3 → n ≠ a → n ≠ b → a ∈ s.coresInService → b ∈ s.coresInService →
        ∃ t, exec (.spareCoreProof (some false)) s = .next t ∧ t.get pgCOMPOSITOR (coreStateFld n) = 0 ∧ t.pair2 = [a, b] ∧
          t.get pgCOMPOSITOR COMP_PAIR_SPARE = 3 ∧ t.on pgCOMPOSITOR COMP_PAIR_PAIR_OK = true ∧ Reported s t 0x016 9 0 n ∧
          Beside s t [pgCOMPOSITOR, pgDEVICE]))) ∧
  (∀ (s : State) (n : Nat),
    (s.inExecution = true → s.sp.told = false → 45 * s.period < 100 * (timeAt s n - s.sp.entryAt) →
      ∃ t, exec (.halfPressExceeded n) s = .next t ∧ Counted s t pgJOBS JOBS_HALF_PRESS_EXCEEDED ∧ Pending t pgJOBS 1 ∧
        t.sp = { s.sp with told := true } ∧ t.comp = s.comp ∧ Beside s t [pgJOBS]) ∧
    (s.inExecution = false ∨ s.sp.told = true ∨ 100 * (timeAt s n - s.sp.entryAt) ≤ 45 * s.period →
      exec (.halfPressExceeded n) s = .next (s.advance n)))

/-- R27, R31, R53, R870 to R875, R881 to R885, R32 to R34, R877, R880, R886, R887: a register stores by its fields' access
codes; what a quoin, a partial access, a page without a unit or a soft reset in progress makes ignored; reads, captures of _HI
and the clearing of RC counters; the common header: event words, a quoin that no write of PAGE_CTRL clears, the soft reset and
its end, the probe counter. -/
def Obligations.RegisterWindow : Prop :=
  (∀ (s : State) (m p off n i : Nat) (b : Block) (v : W32), Awake s → pageBlock p = some (b, i) → 0x040 ≤ off → off < 0x1000 →
      off % 4 = 0 → s.pageAllows m p off true = true →
    let w := s.window p off
    let locked : Prop := s.quoined p = true ∧ ∃ f ∈ fieldsAt p off, f.acc = .rwl
    (Plain b off → s.accepts m p off = true → writable p off = true →
      ∃ t, exec (.registerWrite m p off (bytesLE 4 v.toNat) n) s = .next t ∧
      (∀ f ∈ fieldsAt p off, (f.acc = .rw ∨ (f.acc = .rwl ∧ s.quoined p = false) → t.get p f w = bits v.toNat f.hi f.lo) ∧
        (f.acc = .ro ∨ f.acc = .rc ∨ (f.acc = .rwl ∧ s.quoined p = true) → t.get p f w = s.get p f w)) ∧
      OthersKept s t p off w ∧ Beside s t [p] ∧
      (locked → t.get p IGNORED_CAUSE_REASON = 4 ∧ t.get p IGNORED_CAUSE_OFFSET = off ∧
        t.get p IGNORED_CAUSE_COUNT = min (s.get p IGNORED_CAUSE_COUNT + 1) 255) ∧
      (¬ locked → t.get p IGNORED_CAUSE_COUNT = s.get p IGNORED_CAUSE_COUNT)) ∧
    (Plain b off → writable p off = true →
      (s.on p PAGE_STATUS_IN_SERVICE = false → ∃ t, exec (wholeWrite m p off v n) s = .next t ∧ IgnoredBy s t p off 3) ∧
      (s.on p PAGE_STATUS_IN_SERVICE = true → s.on p PAGE_STATUS_RESETTING = true →
        ∃ t, exec (wholeWrite m p off v n) s = .next t ∧ IgnoredBy s t p off 9)) ∧
    (writable p off = false → ∃ t, exec (wholeWrite m p off v n) s = .next t ∧ OthersKept s t p 0 0 ∧ Beside s t [p] ∧
      t.get p IGNORED_CAUSE_COUNT = s.get p IGNORED_CAUSE_COUNT)) ∧
  (∀ (s : State) (m p off n : Nat) (data : List Byte), p < 0x4000 → off < 0x1000 → 0 < data.length → data.length < 4 →
    off % 4 + data.length ≤ 4 → s.accepts m p (off / 4 * 4) = true → (pageBlock p).isSome = true →
    ∃ t, exec (.registerWrite m p off data n) s = .next t ∧ IgnoredBy s t p (off / 4 * 4) 1) ∧
  (∀ (s : State) (m p off n : Nat) (v w : W32), p < 0x4000 → off + 8 ≤ 0x1000 → off % 4 = 0 →
    ∃ t1, exec (wholeWrite m p off v n) s = .next t1 ∧
      exec (.registerWrite m p off (bytesLE 4 v.toNat ++ bytesLE 4 w.toNat) n) s = exec (wholeWrite m p (off + 4) w n) t1) ∧
  (∀ (s : State) (m p off n : Nat) (v : W32), pageBlock p = none → p < 0x3FFE → off < 0x1000 → off % 4 = 0 →
    (s.pageAllows m p off true = true → exec (wholeWrite m p off v n) s = .next (s.advance n)) ∧
    (s.pageAllows m p off false = true → ∀ c ∈ [Instr.counterRead m p off, .loCaptureRead m p off],
      exec c s = .next { s with out := s.out ++ [.readData m 0] })) ∧
  (∀ (s : State) (m p off : Nat), Awake s → (pageBlock p).isSome = true → off < 0x1000 → off % 4 = 0 →
      s.pageAllows m p off false = true →
    let v := s.readReg p off
    let w := s.window p off
    (s.capture p off m = none → isLo p off = false → isHi p off = false → (p ≠ pgPTP ∨ off ≠ 0x044) →
        off < 0x020 ∨ 0x040 ≤ off →
      ∃ t, exec (.counterRead m p off) s = .next t ∧ t.out = s.out ++ [.readData m v.toNat] ∧ t.caps = s.caps ∧
        (∀ f ∈ fieldsAt p off, f.acc = .rc → bits v.toNat f.hi f.lo = s.get p f w ∧ t.get p f w = 0) ∧
        (∀ f ∈ fieldsAt p off, f.acc ≠ .rc → t.get p f w = s.get p f w) ∧ OthersKept s t p off w ∧ Beside s t [p]) ∧
    (s.capture p off m = none → isLo p off = true →
      ∃ t, exec (.loCaptureRead m p off) s = .next t ∧ t.out = s.out ++ [.readData m v.toNat] ∧ Beside s t [p] ∧
        (∀ f ∈ fieldsAt p off ++ fieldsAt p (off + 4), f.acc = .rc → t.get p f = 0) ∧
        ∀ u : State, u.caps = t.caps → Awake u → u.pageAllows m p (off + 4) false = true →
          ∃ x, exec (.loCaptureRead m p (off + 4)) u = .next x ∧
            x.out = u.out ++ [.readData m (s.readReg p (off + 4)).toNat] ∧ x.capture p (off + 4) m = none ∧
            OthersKept u x p 0 0 ∧ Beside u x [p])) ∧
  (∀ (s : State) (m p n i : Nat) (b : Block) (v : W32), Awake s → pageBlock p = some (b, i) →
    (∀ off ∈ [0x010, 0x014], s.accepts m p off = true → ∃ t, exec (.registerWrite m p off (bytesLE 4 v.toNat) n) s = .next t ∧
      t.reg p off = BitVec.ofNat 32 (v.toNat % 2 ^ blockEventBits b) ∧ t.evt = s.evt ∧ OthersKept s t p 0 0 ∧ Beside s t [p]) ∧
    (s.quoined p = true → ∀ c ∈ [wholeWrite m p 0x008 v n, .quoinSet m p v, .softReset m p v],
      ∃ t, exec c s = .next t ∧ t.quoined p = true) ∧
    (s.accepts m p 0x008 = true → v.getLsbD 2 = false → ∃ t, exec (.quoinSet m p v) s = .next t ∧ t.quoined p = true ∧
      t.on p PAGE_CTRL_ENABLE = v.getLsbD 0 ∧ OthersKept s t p 0 0 ∧ Beside s t [p]) ∧
    (s.accepts m p 0x008 = true → blockSoftReset b = false → ∃ t, exec (.softReset m p v) s = .next t ∧ IgnoredBy s t p 0x008 16) ∧
    (s.accepts m p 0x008 = true → blockSoftReset b = true → b ∉ [Block.feed, .web, .stone, .frisket, .logport] →
      ∃ t, exec (.softReset m p v) s = .next t ∧ t.on p PAGE_STATUS_RESETTING = true ∧
        t.quoined p = (s.quoined p || v.getLsbD 1) ∧ t.reg p 0x010 = 0 ∧ t.reg p 0x014 = 0 ∧
        (∀ off, 0x040 ≤ off → off < 0x1000 → off % 4 = 0 → ∀ f ∈ fieldsAt p off,
          (f.acc = .rw ∨ f.acc = .rc → t.get p f = bits (resetNat p off) f.hi f.lo) ∧
          (f.acc = .ro ∨ f.acc = .rwl → t.get p f = s.get p f)) ∧ Beside s t [p]) ∧
    (b ≠ .web → s.on p PAGE_STATUS_RESETTING = true → ∃ t, exec (.softResetDone p) s = .next t ∧
      t.on p PAGE_STATUS_RESETTING = false ∧ OthersKept s t p 0 0 ∧ Beside s t [p]) ∧
    (s.on p PAGE_STATUS_RESETTING = false → exec (.softResetDone p) s = .next s) ∧
    (b ≠ .router → s.accepts m p 0x020 = true → bits v.toNat 2 0 ≤ 5 → ∃ t, exec (.probeClear m p v) s = .next t ∧
      t.pair p PROBE_CNT_LO PROBE_CNT_HI = 0 ∧ t.on p PROBE_SEL_OVF = false ∧ t.get p PROBE_SEL_EVENT = bits v.toNat 2 0 ∧
      OthersKept s t p 0 0 ∧ Beside s t [p]) ∧
    (b ≠ .router → s.accepts m p 0x020 = true → 6 ≤ bits v.toNat 2 0 → ∃ t, exec (.probeClear m p v) s = .next t ∧
      t.get p PROBE_SEL_EVENT = s.get p PROBE_SEL_EVENT ∧ IgnoredBy s t p 0x020 6)) ∧
  (∀ (s : State) (p n i : Nat) (b : Block), pageBlock p = some (b, i) →
    (s.countsNc p = false → exec (.probeWrap p n) s = .next (s.advance n)) ∧
    (s.countsNc p = true →
      let u := s.advance n
      let total := s.pair p PROBE_CNT_LO PROBE_CNT_HI + (u.ncNow + 2 ^ 48 - s.pair p PROBE_CNT_LO PROBE_CNT_HI 1) % 2 ^ 48
      (total < 2 ^ 48 → exec (.probeWrap p n) s = .next u) ∧
      (2 ^ 48 ≤ total → ∃ t, exec (.probeWrap p n) s = .next t ∧ t.on p PROBE_SEL_OVF = true ∧
        t.pair p PROBE_CNT_LO PROBE_CNT_HI = total % 2 ^ 48 ∧ (b = .router → Pending t p 3) ∧ Beside s t [p])))

/-- R79 to R84, R86 to R92, R94, R105, R121 to R124: the checks, the filter, MACsec and the EtherType decisions a received frame
meets; a port is enabled, finds and loses its lock, searches its speed, sends its LLDP and MKA frames, and learns a serial from
LLDP.
Choices of the model: notes/assumptions/51.md. -/
def Obligations.FeederPorts : Prop :=
  (∀ (s : State) (p n : Nat) (f : EthFrame), p < 16 →
    (s.on (pgFEED p) FEED_STATUS_LINK = false → exec (.feedFrameReceive p f n) s = .next (s.advance n)) ∧
    (s.on (pgFEED p) FEED_STATUS_LINK = true → s.domState (16 + p) = 2 → Resting s (16 + p) →
      ∃ t, exec (.feedFrameReceive p f n) s = .next t ∧ (t.domain (16 + p)).waking = some (4, 0)) ∧
    (s.on (pgFEED p) FEED_STATUS_LINK = true → s.domState (16 + p) ≠ 2 →
      ∃ t, exec (.feedFrameReceive p f n) s = .next t ∧ Beside s t [pgFEED p] ∧ t.feed.table = s.feed.table ∧
        let fec := s.on (pgFEED p) FEED_STATUS_FEC_ACTIVE
        t.get (pgFEED p) FEED_FEC_CORRECTED = (if fec then min (s.get (pgFEED p) FEED_FEC_CORRECTED + f.fecCorrected)
          (2 ^ 32 - 1) else s.get (pgFEED p) FEED_FEC_CORRECTED) ∧
        t.get (pgFEED p) FEED_FEC_UNCORR = (if fec then min (s.get (pgFEED p) FEED_FEC_UNCORR + f.fecUncorr) (2 ^ 32 - 1)
          else s.get (pgFEED p) FEED_FEC_UNCORR) ∧
        let counted := fun (c : Fld) => Counted s t (pgFEED p) c ∧ t.feed = s.feed
        let passed := t.feed.passed = s.feed.passed ++ [(p, f)]
        (f.length < 64 → counted FEED_RX_RUNT) ∧
        (9216 < f.length → counted FEED_RX_OVERSIZE) ∧
        (64 ≤ f.length → f.length ≤ 9216 → f.fcsOk = false → counted FEED_RX_FCS_ERR) ∧
        (64 ≤ f.length → f.length ≤ 9216 → f.fcsOk = true → s.addressPasses p f.dst = true → f.dst = macControl →
          counted FEED_RX_PAUSE) ∧
        (64 ≤ f.length → f.length ≤ 9216 → f.fcsOk = true → s.addressPasses p f.dst = false → t.feed = s.feed ∧
          t.pair (pgFEED p) FEED_RX_FRAMES_LO FEED_RX_FRAMES_HI = s.pair (pgFEED p) FEED_RX_FRAMES_LO FEED_RX_FRAMES_HI) ∧
        (Heard s p f →
          t.pair (pgFEED p) FEED_RX_FRAMES_LO FEED_RX_FRAMES_HI =
            (s.pair (pgFEED p) FEED_RX_FRAMES_LO FEED_RX_FRAMES_HI + 1) % 2 ^ 64 ∧
          (2 < f.tags.length → passed) ∧
          (f.tags.length ≤ 2 → f.sec = none →
            (f.etherType = etLldp ∨ f.etherType = etEapol → passed) ∧
            (f.etherType = etPtp → s.on (pgFEED p) FEED_CTRL_PTP_UNCONTROLLED = true → passed) ∧
            (f.etherType = etPtp → s.on (pgFEED p) FEED_CTRL_PTP_UNCONTROLLED = false → counted FEED_RX_UNSECURED) ∧
            (SheetFrame s f → isPairStep f = true → s.on (pgFEED p) FEED_CTRL_PAIRING = true → passed) ∧
            (SheetFrame s f → isPairStep f = false ∨ s.on (pgFEED p) FEED_CTRL_PAIRING = false → counted FEED_RX_UNSECURED) ∧
            (f.etherType ∉ [etLldp, etEapol, etPtp, s.sheetType] → counted FEED_RX_OTHER)) ∧
          (∀ g, f.sec = some g →
            let high := (s.port p).rxHigh
            let window := s.get (pgFEED p) FEED_REPLAY_WINDOW
            (g.known = false ∨ g.icvOk = false → counted FEED_MACSEC_BAD_ICV) ∧
            (g.known = true → g.icvOk = true → g.pn + window ≤ high → counted FEED_MACSEC_LATE) ∧
            (g.known = true → g.icvOk = true → high < g.pn + window → g.pn < pnLimit →
              (t.port p).rxHigh = max high g.pn ∧ (t.port p).sak = (s.port p).sak ∧
              (SheetFrame s f ∨ f.etherType ∈ [etLldp, etEapol, etPtp] ∨ f.etherType ∈ vlanTpids ∨ f.etherType = etSecTag → passed) ∧
              (f.etherType ∉ [etLldp, etEapol, etPtp, s.sheetType, etSecTag] ++ vlanTpids →
                Counted s t (pgFEED p) FEED_RX_OTHER ∧ t.feed.passed = s.feed.passed)) ∧
            (g.known = true → g.icvOk = true → high < g.pn + window → pnLimit ≤ g.pn →
              (t.port p).rxHigh = 0 ∧ (t.port p).txPn = 0 ∧ (t.port p).sak = (s.port p).sak + 1))))) ∧
  (∀ (s : State) (m p n : Nat), p < 16 → s.accepts m (pgFEED p) 0x040 = true →
    (s.on (pgFEED p) FEED_CTRL_ENABLE = false → ∃ t, exec (.feedEnableWrite m p true n) s = .next t ∧
      t.on (pgFEED p) FEED_CTRL_ENABLE = true ∧ t.on (pgFEED p) FEED_STATUS_SPEED_ACTIVE = decide (s.get (pgFEED p) FEED_CTRL_SPEED = 1) ∧
      t.feed = s.feed ∧ Beside s t [pgFEED p]) ∧
    (∃ t, exec (.feedEnableWrite m p false n) s = .next t ∧ t.on (pgFEED p) FEED_CTRL_ENABLE = false ∧
      t.on (pgFEED p) FEED_STATUS_LINK = false ∧ t.on (pgFEED p) FEED_STATUS_SECURED = false ∧ (t.port p).peers = [] ∧
      (t.port p).sakKey = [] ∧
      (s.on (pgFEED p) FEED_STATUS_LINK = true → Counted s t (pgFEED p) FEED_LINK_LOSSES ∧ Pending t (pgFEED p) 0 ∧
        t.on (pgFEED p) FEED_STATUS_FEC_ACTIVE = false) ∧
      WentStale s t p (timeAt s n) ∧ Beside s t [pgFEED p]) ∧
    (∃ t, exec (.feedPairingOpen m p) s = .next t ∧ t.on (pgFEED p) FEED_CTRL_PAIRING = true ∧ t.feed = s.feed ∧
      Beside s t [pgFEED p])) ∧
  (∀ (s : State) (p n : Nat) (b : Bool), p < 16 →
    let speed := s.get (pgFEED p) FEED_STATUS_SPEED_ACTIVE
    let up := s.on (pgFEED p) FEED_STATUS_LINK
    let on := s.on (pgFEED p) FEED_CTRL_ENABLE
    (on = true → up = false → ∃ t, exec (.blockLockGain p n) s = .next t ∧ t.on (pgFEED p) FEED_STATUS_LINK = true ∧
      t.on (pgFEED p) FEED_STATUS_FEC_ACTIVE = (s.on (pgFEED p) FEED_CTRL_RS_FEC && decide (speed = 0)) ∧
      (t.port p).held = false ∧ Pending t (pgFEED p) 0 ∧ t.feed.table = s.feed.table ∧ Beside s t [pgFEED p]) ∧
    (on = false ∨ up = true → exec (.blockLockGain p n) s = .next (s.advance n)) ∧
    (up = true → ∃ t, exec (.blockLockLoss p b n) s = .next t ∧ t.on (pgFEED p) FEED_STATUS_LINK = false ∧
      t.on (pgFEED p) FEED_STATUS_FEC_ACTIVE = false ∧ Counted s t (pgFEED p) FEED_LINK_LOSSES ∧ Pending t (pgFEED p) 0 ∧
      (b = true → Counted s t (pgFEED p) FEED_RX_FCS_ERR) ∧
      (b = false → t.get (pgFEED p) FEED_RX_FCS_ERR = s.get (pgFEED p) FEED_RX_FCS_ERR) ∧
      t.get (pgFEED p) FEED_STATUS_SPEED_ACTIVE = (if s.get (pgFEED p) FEED_CTRL_SPEED ≠ 2 then speed
        else if (s.port p).held then 0 else 1 - speed) ∧
      WentStale s t p (timeAt s n) ∧ Beside s t [pgFEED p]) ∧
    (up = false → exec (.blockLockLoss p b n) s = .next (s.advance n)) ∧
    (on = true → s.get (pgFEED p) FEED_CTRL_SPEED = 2 → up = false → ∃ t, exec (.speedWindowExpiry p) s = .next t ∧
      t.get (pgFEED p) FEED_STATUS_SPEED_ACTIVE = 1 - speed ∧ t.feed = s.feed ∧ Beside s t [pgFEED p]) ∧
    (on = false ∨ s.get (pgFEED p) FEED_CTRL_SPEED ≠ 2 ∨ up = true → exec (.speedWindowExpiry p) s = .next s) ∧
    (up = true → exec (.lockHoldExpiry p) s = .next (s.setPort p { s.port p with held := true })) ∧
    (up = false → exec (.lockHoldExpiry p) s = .next s) ∧
    (on = true → up = true → s.asleep (16 + p) = false →
      (∃ t, exec (.lldpTransmit p) s = .next t ∧ Beside s t [pgFEED p] ∧ t.feed = s.feed ∧
        Sends s t p false (ethBytes macLldp (s.portMac p) [] [] etLldp (lldpTlv 1 (7#8 :: bytesLE 8 s.deviceSerial) ++
          lldpTlv 2 (3#8 :: bytesLE 6 (s.portMac p)) ++ lldpTlv 3 (bytesBE 2 (4 * s.get (pgFEED p) FEED_CTRL_LLDP_INTERVAL)) ++
          lldpOrg 1 [1#8] ++ lldpOrg 2 (bytesBE 2 s.sheetType) ++ lldpOrg 4 [BitVec.ofNat 8 p] ++
          lldpOrg 5 [BitVec.ofNat 8 (s.get (pgFEED p) FEED_CTRL_PAIRING)] ++ lldpTlv 0 []))) ∧
      (∃ t, exec (.mkaHelloTransmit p) s = .next t ∧ Beside s t [pgFEED p] ∧ t.feed = s.feed ∧
        Sends s t p false (ethBytes macPae (s.portMac p) [] [] etEapol [0x10#8]))) ∧
    (on = false ∨ up = false → exec (.lldpTransmit p) s = .next s ∧ exec (.mkaHelloTransmit p) s = .next s)) ∧
  (∀ (s : State) (p : Nat) (pdu : List Byte), p < 16 →
    let serials := fun (x : LldpTlv) => x.oui = 0x6AD416 ∧ x.subtype = 3 ∧ x.info.length = 8
    (∀ xs x ys, lldpTlvs pdu.length pdu = xs ++ x :: ys → serials x → (∀ y ∈ ys, ¬ serials y) →
      ∃ t, exec (.lldpReceive p pdu) s = .next t ∧
        t.pair (pgFEED p) FEED_LLDP_SERIAL_LO FEED_LLDP_SERIAL_HI = ofLE x.info ∧ t.feed = s.feed ∧ Beside s t [pgFEED p]) ∧
    ((∀ x ∈ lldpTlvs pdu.length pdu, ¬ serials x) → exec (.lldpReceive p pdu) s = .next s))

/-- R94 to R101, R104 to R121, R146: the Sheet hello engine and the feeder table with its timeouts; the pairing ceremony,
and the members and keys of MKA.
Choices of the model: notes/assumptions/51.md. -/
def Obligations.FeederTableAndPairing : Prop :=
  (∀ (s : State) (p n : Nat) (f : EthFrame), p < 16 → f.sec = none ∨ s.on (pgFEED p) FEED_STATUS_SECURED = false →
    ∀ c ∈ [Instr.helloOffer p f n, .helloConfirm p f n, .helloLeave p f n, .helloKeepalive p f n, .helloBadStep p f],
      ∃ t, exec c s = .next t ∧ Counted s t (pgFEED p) FEED_RX_UNSECURED ∧ Taken s t p f ∧ Beside s t [pgFEED p]) ∧
  (∀ (s : State) (p n : Nat) (f : EthFrame) (g : SecTag), p < 16 → s.on (pgFEED p) FEED_STATUS_SECURED = true → f.sec = some g →
    let h := helloOf f.body
    let refused := fun (code : Nat) => ∃ t, exec (.helloOffer p f n) s = .next t ∧
      Output.frame p true (answerTo s p s.free f (helloAnswer 4 code 0 h.serial [])) ∈ t.out ∧
      ((s.port p).txPn + 1 < pnLimit → Sends s t p true (answerTo s p s.free f (helloAnswer 4 code 0 h.serial []))) ∧
      t.feed.table = s.feed.table ∧ Counted s t pgSHEET SHEET_HELLO_REFUSED ∧ Beside s t [pgFEED p, pgSHEET]
    let assigned := fun (i : Nat) (e : FtEntry) => s.pending = [] → ∃ t, exec (.helloOffer p f n) s = .next t ∧
      Entry s t i { e with state := .offered, serial := h.serial, port := p, caps := capsOf h.caps, streams := h.entries,
                           lastFrame := if e.state = .free then timeAt s n else e.lastFrame, tags := f.tags, mac := f.src } ∧
      Output.frame p true (answerTo s p s.free f (helloAnswer 2 0 (e.gen * 256 + i) h.serial [])) ∈ t.out ∧
      Beside s t [pgFEED p]
    let good : Prop := g.serial = h.serial ∧ h.streams ≤ 64 ∧ badList h = false
    (g.serial ≠ h.serial → refused 5) ∧
    (g.serial = h.serial → 64 < h.streams → refused 3) ∧
    (g.serial = h.serial → h.streams ≤ 64 → badList h = true → refused 4) ∧
    (∀ p' f', good → p' < p → Instr.helloOffer p' f' n ∈ s.pending → (helloOf f'.body).serial = h.serial →
      s.offerEnters p' f' = true → (∃ i b, (s.advance n).resolveOffer p' h.serial = .assign i b) → refused 2) ∧
    (good → s.ftOfSerial h.serial = none →
      (∀ i, s.ftFree = some i → assigned i (s.ft i)) ∧
      (s.pending = [] → s.ftFree = none → s.ftOldestStale = none → refused 1) ∧
      (∀ i, s.ftFree = none → s.ftOldestStale = some i → assigned i (goneOf (s.ft i)))) ∧
    (∀ i, good → s.ftOfSerial h.serial = some i →
      let age := timeAt s n - (s.ft i).lastFrame
      let live := s.get pgSHEET SHEET_FT_CTRL_LIVE_MS * 1000000
      ((s.ft i).state = .stale → assigned i (s.ft i)) ∧
      ((s.ft i).state = .bound → live ≤ age → assigned i (s.ft i)) ∧
      ((s.ft i).state = .bound → age < live → refused 2) ∧
      ((s.ft i).state = .offered → (s.ft i).port = p → assigned i (s.ft i)) ∧
      ((s.ft i).state = .offered → (s.ft i).port ≠ p → refused 2)) ∧
    let i := h.handle % 256
    let e := s.ft i
    let named : Prop := e.gen * 256 + i = h.handle ∧ e.serial = h.serial
    let renewed : FtEntry := { e with lastFrame := timeAt s n, tags := f.tags, mac := f.src }
    let left := (s.advance n).takePassed p f
    (named → e.port = p → e.state = .offered → ∃ t, exec (.helloConfirm p f n) s = .next t ∧
      Entry s t i { renewed with state := .bound, rxSeq := [] } ∧ Pending t (pgFEED p) 2 ∧
      (∀ k, (s.slot k).serial = h.serial → (t.dynOf k).active = false) ∧
      ((SMap.keys s.impose.dyn).Nodup → ∀ k, (s.slot k).serial ≠ h.serial → t.dynOf k = s.dynOf k) ∧
      Beside s t [pgFEED p]) ∧
    (named → e.port = p → e.state = .bound ∨ e.state = .stale → ∃ t, exec (.helloConfirm p f n) s = .next t ∧
      Entry s t i renewed ∧ t.regs = s.regs ∧ Beside s t []) ∧
    (named → e.port = p → e.state ≠ .free → ∃ t, exec (.helloKeepalive p f n) s = .next t ∧
      Entry s t i renewed ∧ t.regs = s.regs ∧ Beside s t []) ∧
    (named → e.port ≠ p → exec (.helloConfirm p f n) s = .next left ∧ exec (.helloKeepalive p f n) s = .next left) ∧
    (named → e.state = .bound ∨ e.state = .stale → ∃ t, exec (.helloLeave p f n) s = .next t ∧ Entry s t i (goneOf e) ∧
      t.regs = s.regs ∧ Beside s t []) ∧
    (¬ named ∨ e.state = .free → ∀ c ∈ [Instr.helloConfirm p f n, .helloKeepalive p f n, .helloLeave p f n],
      exec c s = .next left) ∧
    (∃ t, exec (.helloBadStep p f) s = .next t ∧ Counted s t pgSHEET SHEET_HELLO_BAD ∧ Taken s t p f ∧ Beside s t [pgSHEET])) ∧
  (∀ (s : State) (m i n : Nat), i < 256 →
    let e := s.ft i
    let hold := s.get pgSHEET SHEET_FT_CTRL_HOLD_S * 1000000000
    let live := s.get pgSHEET SHEET_FT_CTRL_LIVE_MS * 1000000
    (e.state = .offered → ∃ t, exec (.confirmTimeout i) s = .next t ∧ Entry s t i (goneOf e) ∧ t.regs = s.regs ∧ Beside s t []) ∧
    (e.state ≠ .offered → exec (.confirmTimeout i) s = .next s) ∧
    (e.state = .bound → e.port < 16 → live ≤ timeAt s n - e.lastFrame →
      ∃ t, exec (.feederLiveExpiry i n) s = .next t ∧ Entry s t i { e with state := .stale, staleSince := timeAt s n } ∧
        Pending t (pgFEED e.port) 3 ∧ Beside s t [pgFEED e.port]) ∧
    (e.state ≠ .bound ∨ timeAt s n - e.lastFrame < live → exec (.feederLiveExpiry i n) s = .next (s.advance n)) ∧
    (e.state = .stale → e.staleSince + hold ≤ timeAt s n → s.pending = [] → ∃ t, exec (.staleHoldExpiry i n) s = .next t ∧
      Entry s t i (goneOf e) ∧ t.regs = s.regs ∧ Beside s t []) ∧
    (∀ p f t', Instr.helloOffer p f t' ∈ s.pending → t' / 40 = n / 40 → (helloOf f.body).serial = e.serial →
      s.offerEnters p f = true → exec (.staleHoldExpiry i n) s = .next (s.advance n)) ∧
    (e.state ≠ .stale ∨ timeAt s n < e.staleSince + hold → exec (.staleHoldExpiry i n) s = .next (s.advance n)) ∧
    (s.accepts m pgSHEET 0x044 = true → ∃ t, exec (.ftIndexCapture m i n) s = .next t ∧ t.feed = s.feed ∧ Beside s t [pgSHEET] ∧
      t.get pgSHEET SHEET_FT_INDEX_INDEX = i ∧ (e.port < 16 → t.get pgSHEET SHEET_FT_ENTRY_PORT = e.port) ∧
      t.get pgSHEET SHEET_FT_ENTRY_STATE = (match e.state with
        | .free => 0
        | .offered => 1
        | .bound => 2
        | .stale => 3) ∧
      (e.gen < 256 → e.state ≠ .free → t.get pgSHEET SHEET_FT_ENTRY_HANDLE = e.gen * 256 + i) ∧
      (e.state = .free → t.get pgSHEET SHEET_FT_ENTRY_HANDLE = 0) ∧
      (e.serial < 2 ^ 64 → t.pair pgSHEET SHEET_FT_SERIAL_LO SHEET_FT_SERIAL_HI = e.serial) ∧
      t.get pgSHEET SHEET_FT_AGE_MS = (if e.state = .free then 0 else min ((timeAt s n - e.lastFrame) / 1000000) 0xFFFFFFFF)) ∧
    (s.accepts m pgSHEET 0x044 = true → e.state ≠ .free → ∃ t, exec (.ftEvict m i n) s = .next t ∧ Entry s t i (goneOf e) ∧
      t.get pgSHEET SHEET_FT_ENTRY_STATE = 0 ∧ t.get pgSHEET SHEET_FT_INDEX_INDEX = i ∧ Beside s t [pgSHEET]) ∧
    (s.accepts m pgSHEET 0x044 = true → e.state = .free → ∃ t, exec (.ftEvict m i n) s = .next t ∧ t.feed = s.feed ∧
      IgnoredBy s t pgSHEET 0x044 10)) ∧
  (∀ (s : State) (p n : Nat) (f : EthFrame), p < 16 →
    let h := helloOf f.body
    let open_ := s.on (pgFEED p) FEED_CTRL_PAIRING
    let secured : Prop := f.sec.isSome = true ∧ s.on (pgFEED p) FEED_STATUS_SECURED = true
    let full : Prop := 256 ≤ s.feed.pairings.length ∧ ∀ q ∈ s.feed.pairings, q.serial ≠ h.serial
    let x := ecShared s.free h.key
    (open_ = false → ¬ secured → ∃ t, exec (.helloPairRequest p f n) s = .next t ∧
      Counted s t (pgFEED p) FEED_RX_UNSECURED ∧ Taken s t p f ∧ Beside s t [pgFEED p]) ∧
    (open_ = false → secured → exec (.helloPairRequest p f n) s = .next ((s.advance n).takePassed p f)) ∧
    (open_ = true → full → f.sec = none ∨ (s.port p).txPn + 1 < pnLimit → ∃ t, exec (.helloPairRequest p f n) s = .next t ∧
      Sends s t p f.sec.isSome (answerTo s p s.free f (helloAnswer 4 1 0 h.serial [])) ∧ t.feed.pairings = s.feed.pairings ∧
      t.feed.table = s.feed.table ∧ Counted s t pgSHEET SHEET_HELLO_REFUSED ∧ Beside s t [pgFEED p, pgSHEET]) ∧
    (open_ = true → ¬ full → f.sec = none ∨ (s.port p).txPn + 1 < pnLimit → ∃ t, exec (.helloPairRequest p f n) s = .next t ∧
      (t.port p).ceremony = some { serial := h.serial, x := x, code := confirmCode x } ∧
      t.on (pgFEED p) FEED_STATUS_PAIRING_ACTIVE = true ∧
      t.out = s.out ++ [.pairingCode p ([100000, 10000, 1000, 100, 10, 1].map fun k => confirmCode x / k % 10),
        .frame p f.sec.isSome (answerTo s p (s.free + 1) f
          (helloAnswer 8 0 0 s.deviceSerial (publicKey (freeScalar s.free))))] ∧
      t.feed.pairings = s.feed.pairings ∧ t.feed.table = s.feed.table ∧ Beside s t [pgFEED p])) ∧
  (∀ (s : State) (m p code : Nat), p < 16 →
    let ended := fun (t : State) => (t.port p).ceremony = none ∧ t.on (pgFEED p) FEED_CTRL_PAIRING = false ∧
      t.on (pgFEED p) FEED_STATUS_PAIRING_ACTIVE = false ∧ Pending t (pgFEED p) 4 ∧ t.feed.table = s.feed.table
    (s.accepts m pgCOLOPHON 0x044 = true →
      (∀ c, (s.port p).ceremony = some c → code ≤ 999999 →
        ∃ t, exec (.pairConfirmWrite m p code) s = .next t ∧ ended t ∧ Beside s t [pgFEED p, pgCOLOPHON] ∧
          let others := s.feed.pairings.filter (·.serial != c.serial)
          (c.code = code → others.length < 256 → t.feed.pairings = others ++
            [{ serial := c.serial,
               cak := (sha384 (ascii "EVS-PAIR" ++ c.x ++ bytesLE 8 s.deviceSerial ++ bytesLE 8 c.serial)).take 32,
               ckn := (sha384 (ascii "EVS-CKN" ++ bytesLE 8 c.serial ++ bytesLE 8 s.deviceSerial)).take 16 }]) ∧
          (c.code ≠ code ∨ 256 ≤ others.length → t.feed.pairings = s.feed.pairings)) ∧
      (999999 < code → ∃ t, exec (.pairConfirmWrite m p code) s = .next t ∧ t.feed = s.feed ∧ IgnoredBy s t pgCOLOPHON 0x044 7) ∧
      (code ≤ 999999 → (s.port p).ceremony = none → ∃ t, exec (.pairConfirmWrite m p code) s = .next t ∧ t.feed = s.feed ∧
        IgnoredBy s t pgCOLOPHON 0x044 10)) ∧
    ((s.port p).ceremony ≠ none → ∃ t, exec (.pairingTimeout p) s = .next t ∧ ended t ∧ t.feed.pairings = s.feed.pairings ∧
      Beside s t [pgFEED p]) ∧
    ((s.port p).ceremony = none → exec (.pairingTimeout p) s = .next s)) ∧
  (∀ (s : State) (p n serial : Nat) (authentic live : Bool), p < 16 →
    let paired : Prop := authentic = true ∧ ∃ q ∈ s.feed.pairings, q.serial = serial
    let known : Prop := ∃ x ∈ (s.port p).peers, x.1 = serial
    let secured := s.on (pgFEED p) FEED_STATUS_SECURED
    let others := (s.port p).peers.filter (·.1 != serial)
    let rekeyed := fun (t : State) => (t.port p).sak = (s.port p).sak + 1 ∧ (t.port p).sakKey = Config.freshSak s.free ∧
      (t.port p).rxHigh = 0 ∧ (t.port p).txPn = 0 ∧
      Sends s t p false (ethBytes macPae (s.portMac p) [] [] etEapol (Config.freshSak s.free))
    (¬ paired → exec (.eapolReceive p serial authentic live n) s = .next (s.advance n)) ∧
    (paired → live = true → ∃ t, exec (.eapolReceive p serial authentic live n) s = .next t ∧
      (t.port p).peers = others ++ [(serial, timeAt s n)] ∧ t.on (pgFEED p) FEED_STATUS_SECURED = true ∧
      (¬ known ∨ secured = false → rekeyed t) ∧ (known → secured = true → (t.port p).sak = (s.port p).sak ∧ t.out = s.out) ∧
      (secured = false → Pending t (pgFEED p) 1) ∧ Beside s t [pgFEED p]) ∧
    (paired → live = false → ∃ t, exec (.eapolReceive p serial authentic live n) s = .next t ∧ (t.port p).peers = others ∧
      t.on (pgFEED p) FEED_STATUS_SECURED = secured ∧ (known → secured = true → rekeyed t) ∧
      (¬ known ∨ secured = false → (t.port p).sak = (s.port p).sak ∧ t.out = s.out) ∧ Beside s t [pgFEED p]) ∧
    (let stay := (s.port p).peers.filter fun x => decide (timeAt s n < x.2 + 6000000000)
     ∃ t, exec (.mkaLifeExpiry p n) s = .next t ∧ (t.port p).peers = stay ∧ Beside s t [pgFEED p] ∧
      (secured = true → stay = [] → t.on (pgFEED p) FEED_STATUS_SECURED = false ∧ Pending t (pgFEED p) 1 ∧
        WentStale s t p (timeAt s n)) ∧
      (secured = true → stay ≠ [] → stay.length < (s.port p).peers.length → rekeyed t ∧ t.feed.table = s.feed.table) ∧
      (secured = false ∨ stay = (s.port p).peers ∧ stay ≠ [] → t.feed.table = s.feed.table ∧ t.out = s.out)))

/-- R79, R86, R124 to R130, R132 to R135, R924: device time and its frequency offset, steps, captures, frame stamps, the servo
of a sync, the PPS edge and its timeout, the lost master, the device second.
Choices of the model: notes/assumptions/51.md. -/
def Obligations.PtpClock : Prop :=
  (∀ (s : State) (n : Nat), ∃ t, exec (.deviceSecond n) s = .next t ∧ t.mono = timeAt s n ∧ t.regs = s.regs ∧ Beside s t [] ∧
      (let x : Int := (timeAt s n - s.mono : Nat) * (1024 * 10 ^ 9 + signed 32 (s.get pgPTP PTP_ADJ_FREQ)) + s.clock.frac
       t.dev = ((s.dev : Int) + x / (1024 * 10 ^ 9)).toNat ∧ (t.clock.frac : Int) = x % (1024 * 10 ^ 9)) ∧
      t.evt.incoming = s.evt.incoming ++ [449] ∧
      t.out = s.out ++ (if s.on pgPTP PTP_CTRL_PPS_OUT_EN then [Output.ppsOut] else [])) ∧
  (∀ (s : State) (p n : Nat) (f : EthFrame) (sync : Option Int), p < 16 →
    let base := (s.advance n).takePassed p f
    let stamped := if ptpType f.body < 4 then base.setPort p { s.port p with rxStamp := base.dev } else base
    let open_ := s.on (pgFEED p) FEED_CTRL_PTP_UNCONTROLLED
    let role := s.get pgPTP PTP_CTRL_ROLE
    (f.sec = none → open_ = false → ∃ t, exec (.ptpFrameReceive p f sync n) s = .next t ∧
      Counted s t (pgFEED p) FEED_RX_UNSECURED ∧ Taken s t p f ∧ Beside s t [pgFEED p]) ∧
    (f.sec ≠ none ∨ open_ = true →
      (sync = none ∨ role = 0 ∨ role = 3 ∨ ptpDomain f.body ≠ s.get pgPTP PTP_CTRL_DOMAIN →
        exec (.ptpFrameReceive p f sync n) s = .next stamped) ∧
      (∀ off, sync = some off → role = 1 ∨ role = 2 → ptpDomain f.body = s.get pgPTP PTP_CTRL_DOMAIN →
        ∃ t, exec (.ptpFrameReceive p f sync n) s = .next t ∧ t.on pgPTP PTP_STATUS_HOLDOVER = false ∧
          t.get pgPTP PTP_STATUS_SLAVE_PORT = p ∧ t.feed = stamped.feed ∧
          t.ptp = { s.ptp with good := if off.natAbs ≤ 50 then min (s.ptp.good + 1) 16 else 0 } ∧
          t.on pgPTP PTP_STATUS_LOCKED = decide (off.natAbs ≤ 50 ∧ 15 ≤ s.ptp.good) ∧ Beside s t [pgPTP]))) ∧
  (∀ (s : State) (p n : Nat) (body : List Byte), p < 16 →
    let dev := (s.advance n).dev
    let kind := ptpType body
    let open_ := s.on (pgFEED p) FEED_CTRL_PTP_UNCONTROLLED
    let peer := s.on (pgFEED p) FEED_CTRL_PTP_PDELAY
    let own := body.take 4 ++ bytesLE 1 (s.get pgPTP PTP_CTRL_DOMAIN) ++ body.drop 5
    let msg := if kind < 4 ∧ s.on (pgFEED p) FEED_CTRL_PTP_ONE_STEP = true then
        slice own 0 34 ++ bytesBE 6 (dev / 1000000000) ++ bytesBE 4 (dev % 1000000000) ++ own.drop 44 else own
    let frame := ethBytes (if kind ∈ [2, 3, 10] then macLldp else macPtp) (s.portMac p) []
      (if open_ then [] else s.secTag p (msg.length + 2)) etPtp msg
    let after : PortSt := if kind < 4 then { s.port p with txStamp := dev } else s.port p
    let chosen : Prop := if peer then kind ≠ 1 ∧ kind ≠ 9 else kind ∉ [2, 3, 10]
    (¬ chosen ∨ (open_ = false ∧ s.on (pgFEED p) FEED_STATUS_SECURED = false) →
      exec (.ptpMessageSend p body n) s = .next (s.advance n)) ∧
    (chosen → open_ = true → ∃ t, exec (.ptpMessageSend p body n) s = .next t ∧ Sends s t p false frame ∧ t.port p = after ∧
      Beside s t [pgFEED p]) ∧
    (chosen → open_ = false → s.on (pgFEED p) FEED_STATUS_SECURED = true →
      ((s.port p).txPn + 1 < pnLimit → ∃ t, exec (.ptpMessageSend p body n) s = .next t ∧ Sends s t p true frame ∧
        t.port p = { after with txPn := after.txPn + 1 } ∧ Beside s t [pgFEED p]) ∧
      (pnLimit ≤ (s.port p).txPn + 1 → ∃ t, exec (.ptpMessageSend p body n) s = .next t ∧ Output.frame p true frame ∈ t.out ∧
        (t.port p).txPn = 0 ∧ (t.port p).sak = (s.port p).sak + 1 ∧ Beside s t [pgFEED p]))) ∧
  (∀ (s : State) (m n : Nat) (v : W32),
    let x := signed 32 v.toNat
    (s.accepts m pgPTP 0x050 = true →
      (x.natAbs ≤ 1024000000 → ∃ t, exec (.ptpAdjFreqWrite m v n) s = .next t ∧ t.get pgPTP PTP_ADJ_FREQ = v.toNat ∧
        t.dev = (s.advance n).dev ∧ Beside s t [pgPTP]) ∧
      (1024000000 < x.natAbs → ∃ t, exec (.ptpAdjFreqWrite m v n) s = .next t ∧ IgnoredBy s t pgPTP 0x050 7)) ∧
    (s.accepts m pgPTP 0x054 = true →
      (x.natAbs ≤ 999999999 → ∃ t, exec (.ptpAdjStep m v n) s = .next t ∧
        (t.dev : Int) = max 0 (((s.advance n).dev : Int) + x) ∧ t.on pgPTP PTP_STATUS_TIME_SET = true ∧ t.mono = timeAt s n ∧
        Beside s t [pgPTP]) ∧
      (999999999 < x.natAbs → ∃ t, exec (.ptpAdjStep m v n) s = .next t ∧ t.dev = (s.advance n).dev ∧
        IgnoredBy s t pgPTP 0x054 7)) ∧
    (s.pageAllows m pgPTP 0x044 false = true →
      let dev := (s.advance n).dev
      ∃ t, exec (.ptpTimeCaptureRead m n) s = .next t ∧ t.out = s.out ++ [.readData m (dev % 1000000000)] ∧
        t.capture pgPTP 0x048 m = some (BitVec.ofNat 32 (dev / 1000000000)) ∧
        t.capture pgPTP 0x04C m = some (BitVec.ofNat 32 (dev / 1000000000 / 2 ^ 32 % 2 ^ 16)) ∧ Beside s t [pgPTP])) ∧
  (∀ (s : State) (n : Nat),
    let dev := (s.advance n).dev
    let role := s.get pgPTP PTP_CTRL_ROLE
    let off := min (dev % 1000000000) (1000000000 - dev % 1000000000)
    (role ≠ 3 → exec (.ppsInEdge n) s = .next (s.advance n) ∧ exec (.ppsTimeout n) s = .next (s.advance n)) ∧
    (role = 3 → ∃ t, exec (.ppsInEdge n) s = .next t ∧ t.on pgPTP PTP_STATUS_TIME_SET = true ∧
      t.dev = 1000000000 * (if s.ptp.todWritten then s.pair pgPTP PTP_TOD_NEXT_SEC_LO PTP_TOD_NEXT_SEC_HI
        else (dev + 500000000) / 1000000000) ∧
      t.ptp = { s.ptp with ppsSeen := true, todWritten := false } ∧ t.clock.frac = 0 ∧
      t.on pgPTP PTP_STATUS_PPS_FAULT = (s.ptp.ppsSeen && decide (1000 < off)) ∧
      (s.ptp.ppsSeen = true → 1000 < off → s.on pgPTP PTP_STATUS_PPS_FAULT = false → Pending t pgPTP 0) ∧
      Beside s t [pgPTP]) ∧
    (role = 3 → ∃ t, exec (.ppsTimeout n) s = .next t ∧ t.on pgPTP PTP_STATUS_PPS_FAULT = true ∧
      (s.on pgPTP PTP_STATUS_PPS_FAULT = false → Pending t pgPTP 0) ∧ t.dev = dev ∧ Beside s t [pgPTP]) ∧
    (role = 1 ∨ role = 2 → ∃ t, exec (.ptpMasterLost n) s = .next t ∧ t.on pgPTP PTP_STATUS_HOLDOVER = true ∧
      t.on pgPTP PTP_STATUS_LOCKED = false ∧ t.ptp = { s.ptp with good := 0 } ∧ t.get pgPTP PTP_ADJ_FREQ = s.get pgPTP PTP_ADJ_FREQ ∧
      Beside s t [pgPTP]) ∧
    (role = 0 ∨ role = 3 → exec (.ptpMasterLost n) s = .next (s.advance n)))

/-- R520, R526, R538, R542 to R551, R558, R567, R578, R590, R598, R599, R602, R603: commands of memory and of the network
have their own effect where nothing stands in their way; what else they do, and what turns them away, the statements of
their families say. -/
def Obligations.MemoryAndNetworkTakeEffect : Prop :=
  (∀ (s : State) (b n : Nat) (q : ReelReq), Grants s q →
    (q.addr / 2 ^ 21 = b → q.master ≤ 1 → s.forme.io = none → ∃ t, exec (.stoneAccess b [q] n) s = .next t ∧ Served s t q) ∧
    (s.stackBusy q.addr = false → ∃ t, exec (.reelAccess [q] n) s = .next t ∧ Served s t q)) ∧
  (∀ (s : State) (w : Nat),
    (w ∈ s.mem.stoneRewrites → w < reelBase → ∃ t, exec (.stoneCorrectionRewrite w) s = .next t ∧ t.isWeak w = false) ∧
    (w ∈ s.mem.reelRewrites → reelBase ≤ w → ∃ t, exec (.reelCorrectionRewrite w) s = .next t ∧ t.isWeak w = false)) ∧
  (∀ (s : State) (b n : Nat), b < 32 →
    let due := SMap.get 0 s.mem.scrubDue b
    (s.asleep 2 = false → s.bankOwner b ≠ 31 → SMap.get 0 s.mem.scrubRead b + due < 32768 →
      ∃ t, exec (.stoneScrubDue n) s = .next t ∧ SMap.get 0 t.mem.scrubDue b = due + 1) ∧
    (SMap.get 0 s.mem.scrubOver b < due → ∃ t, exec (.stoneScrubOverdue b) s = .next t ∧
      t.on pgSTONE STONE_SCRUB_STATUS_LATE = true)) ∧
  (∀ (s : State) (k n : Nat) (temp : BitVec 8), k < 4 →
    (∃ t, exec (.reelTempReading k temp) s = .next t ∧ t.get (pgREEL k) REEL_STATUS_TEMP_C = temp.toNat) ∧
    (∀ b, b < 4 → SMap.get 0 s.mem.nextBand k = b + 1 → ∃ t, exec (.reelRefresh k) s = .next t ∧
      t.get (pgREEL k) REEL_STATUS_BAND = b) ∧
    (s.on (pgREEL k) REEL_STATUS_IN_SERVICE = true →
      (∃ t, exec (.reelStackLost k) s = .next t ∧ t.on (pgREEL k) REEL_STATUS_IN_SERVICE = false) ∧
      (s.running = true → SMap.get false s.mem.retrainDue k = true → SMap.get 0 s.mem.calTaken k ≠ s.sp.tickAt + 1 →
        s.get (pgREEL k) REEL_CAL_OFFSET_OFFSET_NS = 0 → s.sp.tickAt ≤ timeAt s n →
        (∀ j, j < 4 → s.on (pgREEL j) REEL_STATUS_RETRAINING = false) →
        (∀ j, j < k → s.on (pgREEL j) REEL_STATUS_IN_SERVICE = false) →
        ∃ t, exec (.reelCalSlot n) s = .next t ∧ t.on (pgREEL k) REEL_STATUS_RETRAINING = true) ∧
      (s.on (pgREEL k) REEL_STATUS_RETRAINING = false →
        (s.running = false → SMap.get 0 s.mem.lastRetrain k + s.get (pgREEL k) REEL_CFG_RETRAIN_MS * 1000000 ≤ timeAt s n →
          ∃ t, exec (.reelRetrainDue k n) s = .next t ∧ t.on (pgREEL k) REEL_STATUS_RETRAINING = true) ∧
        (∀ a, s.on (pgREEL k) REEL_STATUS_SELF_REFRESH = false → s.isBad (a / 64 * 64) = false → s.isWeak (a / 64 * 64) = false →
          s.get (pgREEL k) REEL_SCRUB_POS_POS + 1 < 2 ^ 28 → ∃ t, exec (.reelPatrolScrub k a n) s = .next t ∧
          t.get (pgREEL k) REEL_SCRUB_POS_POS = s.get (pgREEL k) REEL_SCRUB_POS_POS + 1))) ∧
    (s.on (pgREEL k) REEL_STATUS_RETRAINING = true → s.mem.calSlot = false → s.mem.reelWait = [] →
      ∃ t, exec (.reelRetrainEnd k n) s = .next t ∧ t.on (pgREEL k) REEL_STATUS_RETRAINING = false)) ∧
  (∀ (s : State) (v : W32),
    (s.accepts 1 pgSTONE 0x084 = true → bits v.toNat 12 8 < 18 → ∃ t, exec (.regionSelect 1 v) s = .next t ∧
      t.get pgSTONE STONE_REGION_SEL_MASTER = bits v.toNat 12 8) ∧
    (s.accepts 1 pgSTONE 0x094 = true → s.quoined pgSTONE = false → v.getLsbD 2 = true →
      ∃ t, exec (.regionRightsWrite 1 v) s = .next t ∧ t.on pgSTONE STONE_REGION_RIGHTS_WHOLE = true) ∧
    (s.accepts 1 pgSTONE 0x0A4 = true → s.on pgSTONE STONE_LEDGER_STATUS_CHECKING = false →
      ∃ t, exec (.ledgerCommit 1) s = .next t ∧ t.on pgSTONE STONE_LEDGER_STATUS_CHECKING = true) ∧
    (s.on pgSTONE STONE_LEDGER_STATUS_CHECKING = true → s.stacks ≠ [] → s.mem.checking = [] →
      max s.mem.entry0 (s.mem.entry0New.getD 0) ≤ s.get pgSTONE STONE_LEDGER_CAPACITY →
      ∃ t, exec .ledgerCheckDone s = .next t ∧ t.mem.ledger = [])) ∧
  (∀ (s : State) (r p vn vc nc : Nat), r < 64 → p < 4 → vn < 4 → vc < 2 →
    let k := ((r * 8 + p) * 4 + vn) * 2 + vc
    (∀ u, s.noc.onLink (r * 8 + p) = [u] → u.data < 2 ^ 256 → u.vn = vn → u.vc = vc → s.noc.buffer k = [] →
      bit (s.get (pgROUTER r) ROUTER_STATUS_LINK_DOWN) p = false → SMap.get false s.noc.dropping k = false →
      ∃ t, exec (.linkUnitReceive r p [] nc) s = .next t ∧ t.noc.buffer k = [u] ∧ t.noc.onLink (r * 8 + p) = []) ∧
    (s.noc.credit k < 24 → ∃ t, exec (.creditReturn r p vn vc) s = .next t ∧ t.noc.credit k = s.noc.credit k + 1) ∧
    (∀ out u v, out < 4 → s.broken r out = false → s.noc.buffer k = [u] → u.tail = true → u.vn = vn →
      s.frontRoute k = some (out, v) → v < 2 → s.chooseInput r out (nc % 128) = some k →
      ∃ t, exec (.packetHop r out nc none) s = .next t ∧ t.noc.buffer k = [] ∧
        { u with vc := v } ∈ t.noc.onLink (neighbour r out * 8 + opposite out)) ∧
    (∀ h, AtEndpoint s r k h → malformed h = false → hVn h ≠ 1 →
      hSeq h = (SMap.get 0 s.noc.seqRx (r * 1024 + hSource h * 4 + hVn h) + 1) % 65536 →
      ∃ t, exec (.packetEject r p vn vc nc) s = .next t ∧ t.out = s.out ++ [.packet h])) ∧
  (∀ (s : State) (ep tag n : Nat), ep < 256 → tag < 1024 → SMap.get 0 s.noc.outstanding (ep * 1024 + tag) ≠ 0 →
    SMap.get 0 s.noc.sentAt (ep * 1024 + tag) + s.get pgNOC NOC_CTRL_RESP_TIMEOUT_US * 1000 ≤ timeAt s n →
    ∃ t, exec (.respTimeout ep tag n) s = .next t ∧ SMap.get 0 t.noc.outstanding (ep * 1024 + tag) = 0) ∧
  (∀ s : State,
    (s.accepts 1 pgNOC 0x054 = true → s.on pgNOC NOC_FLOW_STATUS_CHECKING = false →
      ∃ t, exec (.flowCommit 1) s = .next t ∧ t.on pgNOC NOC_FLOW_STATUS_CHECKING = true) ∧
    (s.on pgNOC NOC_FLOW_STATUS_CHECKING = true → s.noc.checking = [] →
      ∃ t, exec .flowCheckDone s = .next t ∧ t.noc.next = some { flows := [], placed := [] }) ∧
    (∀ p, s.noc.next = some p → ∃ t, exec .flowPlacementApply s = .next t ∧ t.noc.inForce = p))

/-- R154, R160, R164, R171, R183, R196 to R202, R494 to R512: commands of the imposition table, of the drive and of the webs
have their own effect where nothing stands in their way; the statements of their families say the rest. -/
def Obligations.TablesAndWebsTakeEffect : Prop :=
  (∀ (s : State) (p n i : Nat) (f : EthFrame) (st : StreamEntry), p < 16 → DataFrame s p i f st →
    let h := sheetHdrOf f.body
    h.format = st.format → h.samples ≠ 0 → h.channels ≠ 0 → h.chOff + h.channels ≤ st.channels →
    h.len = h.samples * h.channels * formatSize h.format → h.len = f.body.length - 32 →
    ∃ t, exec (.sheetDataFrame p f n) s = .next t ∧ SMap.get none (t.ft i).rxSeq h.stream = some h.seq) ∧
  (∀ (s : State) (m : Nat), s.impose.openBlock = some (m + 1) →
    ∃ t, exec .stoneDataReady s = .next t ∧ t.impose.ready = some m) ∧
  (∀ (s : State) (m k : Nat), k < 65536 →
    (s.accepts m pgIMPOSE 0x04C = true → s.on pgIMPOSE IMPOSE_STATUS_VALIDATING = false →
      s.on pgIMPOSE IMPOSE_STATUS_WAITING = false → ∃ t, exec (.imposeCommit m) s = .next t ∧
        t.on pgIMPOSE IMPOSE_STATUS_VALIDATING = true) ∧
    (s.accepts m pgIMPOSE 0x060 = true → ∃ t, exec (.slotIndexCapture m k) s = .next t ∧
      t.get pgIMPOSE IMPOSE_SLOT_INDEX_INDEX = k ∧ t.get pgIMPOSE IMPOSE_SLOT_STATE_STATE = s.slotState k) ∧
    (s.accepts m pgDRIVE 0x068 = true → s.drive.validating = false → s.drive.waiting = none →
      ∃ t, exec (.driveCommit m) s = .next t ∧ t.drive.validating = true)) ∧
  (∀ (s : State) (a : SlotImage), s.impose.copyA = [(0, { image := a, crc := crc32 (imageBytes a) })] →
    s.impose.copyB = s.impose.copyA → a.valid = true → ∃ t, exec (.imposeTableScrub [(0, true, true)]) s = .next t ∧
      t.slotState 0 = 4) ∧
  (∀ (s : State) (e : DriveEntry),
    (s.on pgIMPOSE IMPOSE_STATUS_VALIDATING = true → s.impose.image.2 = 1 → Readable s 17 s.impose.image.1 64 →
      (∀ w, s.isWeak w = false) → s.running = false → s.on pgSTONE STONE_LEDGER_STATUS_CHECKING = false →
      let x := imageOf (s.bytes s.impose.image.1 64)
      x.valid = true → s.imposeFault [(0, x)] = none →
      ceilDiv (x.rate * 4) 1000000 + ledgerSum s.mem.ledger ≤ s.get pgSTONE STONE_LEDGER_CAPACITY →
      ∃ t, exec .imposeValidationDone s = .next t ∧ t.slot 0 = x ∧ t.on pgIMPOSE IMPOSE_STATUS_VALIDATING = false) ∧
    (s.drive.validating = true → s.drive.image.2 = 1 → Readable s 17 s.drive.image.1 16 → (∀ w, s.isWeak w = false) →
      driveEntryOf (s.bytes s.drive.image.1 16) = e → e.valid = true → s.driveFault [(0, e)] = none → s.running = false →
      ∃ t, exec .driveValidationDone s = .next t ∧ t.drive.table = [(0, e)])) ∧
  (∀ (s : State) (m n : Nat),
    let state := s.get pgDRIVE DRIVE_FADE_STATUS_STATE
    (s.accepts m pgDRIVE 0x040 = true → state = 0 → ∃ t, exec (.fadeReqWrite m 3 n) s = .next t ∧
      t.get pgDRIVE DRIVE_FADE_STATUS_STATE = 1 ∧ t.drive.t0 = (s.advance n).dev) ∧
    (s.accepts m pgDRIVE 0x040 = true → state = 2 → s.drive.abortPlane = false → s.frisket.fadeReq = false →
      s.get pgDRIVE DRIVE_FADE_STATUS_CAUSES = 8 → ∃ t, exec (.fadeClear m 5 n) s = .next t ∧
        t.get pgDRIVE DRIVE_FADE_STATUS_STATE = 0) ∧
    (state = 1 → s.drive.t0 + s.drive.fadeT ≤ (s.advance n).dev → ∃ t, exec (.fadeDone n) s = .next t ∧
      t.get pgDRIVE DRIVE_FADE_STATUS_STATE = 2) ∧
    (∀ k, state = 2 → s.drive.afterRamp = k + 1 → ∃ t, exec (.fadeFrameRepeat n) s = .next t ∧ t.drive.afterRamp = k)) ∧
  (∀ (s : State) (w n : Nat) (v : W32), w < 8 →
    (s.accepts 0 (pgWEB w) 0x050 = true → s.asleep (4 + w) = false → s.webDepth w 0 < 64 - s.get (pgWEB w) WEB_QCFG_JOB_SLOTS →
      ∃ t, exec (.webSubmit w 0 v) s = .next t ∧ (t.web w).standing.length = (s.web w).standing.length + 1) ∧
    (∀ r rest, (s.web w).incoming = r :: rest → r.src ≠ 0 → s.asleep (4 + w) = false →
      s.webDepth w 1 < s.get (pgWEB w) WEB_QCFG_JOB_SLOTS → ∃ t, exec (.jobChainSubmit w) s = .next t ∧
        (t.web w).incoming = rest ∧ (t.web w).job.length = (s.web w).job.length + 1) ∧
    (∀ ref rest d, (s.web w).standing = ref :: rest → ref.src = 0 → SMap.get [] (s.web w).checked ref.seq = d → d ≠ [] →
      s.webUp w = true → s.on (pgWEB w) WEB_CTRL_ENABLE = true → (s.web w).flushing = [] → s.domState (4 + w) < 2 →
      s.sleepingStacks ref (chainOf d) = [] → (s.web w).running = [] →
      ∃ t, exec (.chainStart w) s = .next t ∧ (t.web w).running = [{ ref := ref, desc := d, discard := none, done := false }]) ∧
    (∀ r, (s.web w).running = [r] → r.done = false → r.discard = none → ∃ t, exec (.chainDiscard w 0 4 0) s = .next t ∧
      (t.web w).running = [{ r with discard := some (4, 0) }]) ∧
    (∀ r, RunsAlone s w r → r.discard = some (4, 0) → ∃ t, exec (.chainEnd w 0 n) s = .next t ∧ (t.web w).running = [] ∧
      t.get (pgWEB w) WEB_LAST_ERROR_STATUS = 2 ∧ t.get (pgWEB w) WEB_LAST_ERROR_CAUSE = 4) ∧
    (s.accepts 1 (pgWEB w) 0x040 = true →
      (∃ t, exec (.webEnableWrite w 1 1) s = .next t ∧ t.on (pgWEB w) WEB_CTRL_ENABLE = true) ∧
      (∃ t, exec (.webFlush w 1 5) s = .next t ∧ (t.web w).standing = [] ∧ (t.web w).job = [])))

/-- R356 to R361, R397 to R402, R737, R747, R775 to R777, R783, R842 to R850: commands of programs, tickets, make-ready,
power and events have their own effect where nothing stands in their way; the statements of their families say the rest. -/
def Obligations.ProgramsAndDeviceTakeEffect : Prop :=
  (∀ (k : Nat) (s : State) (c : CoreSt), s.drainCores (k % 2) ≠ [] → (∀ n ∈ s.drainCores (k % 2), s.core n = c) →
    ∀ a bs rest, c.wbuf = [(a, bs)] :: rest → Writable s 0 a bs.length → s.forme.io = none → Awake s →
      ∃ t, exec (.storeDrain k) s = .next t ∧ Stored s t a bs) ∧
  (∀ (k : Nat) (s : State) (c : CoreSt) (l : Load) (bs : List Byte), s.complexCores (k % 2) ≠ [] →
    (∀ n ∈ s.complexCores (k % 2), s.core n = c) → c.load = some l → s.loadAll (k % 2) l.size 0 l.addrs = (.ok bs, s) →
    ∀ q z, l.dst = .g q z false → ∃ t, exec (.quireLoadData k) s = .next t ∧ ∀ n ∈ s.complexCores (k % 2), t.core n =
      { c with load := none, instret := c.instret + 1, pc := c.pc + 4 }.setG q (BitVec.ofNat 32 (ofLE bs))) ∧
  (∀ (s : State) (i : Nat) (is : List Nat), s.seq.cur = none → s.pllUp 68 = true → PortsQuiet s → s.forme.eClear = false →
    s.cstore.complete = false → s.cstore.ready = [] → s.cstore.entries = [] → s.seq.flush = false → s.seq.stop = false →
    s.seq.queue = i :: is → s.refusal i = none → s.on pgCOMPOSITOR COMP_SEQ_CTRL_ENABLE = true → s.seq.discard = false →
    s.seq.stopped = false → ∃ t c, exec .routineBoundary s = .next t ∧ t.seq.cur = some c ∧ c.instr = i ∧ t.seq.queue = is) ∧
  (∀ (n : Nat) (s : State) (c : Routine), s.seq.cur = some c → c.micro = true → 0x8000 ≤ c.uaddr → c.wait = none →
    c.cycles + 1 < c.budget → s.seq.sticksOpen = false → SequencerSound s → c.uaddr ∉ s.cstore.bad → RowMapInjective s →
    SMap.get 0 s.cstore.words c.uaddr = 5 * 2 ^ 159 → ∃ t, exec (.customerRoutine n) s = .next t ∧ t.seq.cur = none ∧
      t.seq.fc = s.seq.fc + 1 ∧ t.seq.discard = s.seq.discard) ∧
  (∀ x ∈ ([(.fmLdg, 0x038, true), (.fmStg, 0x039, false)] : List (Instr × Nat × Bool)), ∀ (s : State) (c : Routine),
    let tr := transferOf c.instr x.2.2
    s.seq.cur = some c → fmOp c.instr = x.2.1 → c.micro = false → SequencerSound s → tr.mode = 0 → s.rows ≠ 0 →
    s.outsideStone tr.base (s.transferLen tr) = none → s.regionOk 10 tr.base (s.transferLen tr) (!x.2.2) = true →
    ∃ t, exec x.1 s = .next t ∧ t.forme.io = some tr ∧ t.seq.cur = none) ∧
  (∀ (s : State) (tr : Transfer), s.forme.io = some tr → tr.inbound = true → tr.mode = 0 →
    SMap.wf (fun _ => SortSt.reset) s.forme.sorts = true → ∃ t, exec .galleyIoDone s = .next t ∧ t.forme.io = none) ∧
  (∀ s : State, s.migrating = true → s.inExecution = false → s.comp.phase ≠ 3 → s.comp.after = 0 →
    ∃ t, exec .migrationDone s = .next t ∧ t.migrating = false ∧ Pending t pgFORME 1) ∧
  (∀ (s : State) (m : Nat), s.accepts m pgCOMPOSITOR 0x064 = true → s.comp.phase = 1 →
    ∃ t, exec (.impEndWrite m 1) s = .next t ∧ t.comp.phase = 2) ∧
  (∀ (s : State) (n : Nat), s.comp.phase = 2 → Quiet s → s.seq.queue = [] → s.on pgCOMPOSITOR COMP_PAIR_TRIO = false →
    s.jobs.held = [] → s.sp.told = true → s.eAny = false → s.get pgCOMPOSITOR COMP_IMP_STATUS_VOID = 0 →
    ∃ t, exec (.executionEnd n) s = .next t ∧ t.comp.phase = 0 ∧ t.comp.ended = true) ∧
  (∀ (s : State) (n m : Nat) (v : W32), n < 16 → s.ringEnabled n = true → s.accepts m pgJOBS (0x110 + 32 * n) = true →
    s.accepts m pgJOBS (0x114 + 32 * n) = true → s.accepts m pgJOBS (0x118 + 32 * n) = true →
    (∃ t, exec (.ringEnableWrite n m 0) s = .next t ∧ t.ringEnabled n = false) ∧
    (v = s.reg pgJOBS (0x114 + 32 * n) + 1 → (v - BitVec.ofNat 32 (s.ring n).done).toNat ≤ 2 ^ s.get pgJOBS (JOBS_RING_CFG_LOG2.at n) →
      ∃ t, exec (.jobsTailDoorbell n m v) s = .next t ∧ t.reg pgJOBS (0x114 + 32 * n) = v) ∧
    (v = s.reg pgJOBS (0x118 + 32 * n) + 1 → ¬ Before (BitVec.ofNat 32 (s.ring n).done) v →
      ∃ t, exec (.jobsHeadWrite n m v) s = .next t ∧ t.reg pgJOBS (0x118 + 32 * n) = v)) ∧
  (∀ (s : State) (n : Nat), s.on pgJOBS JOBS_SP_STATUS_LOADED = true → s.accepts 0 pgJOBS 0x048 = true →
    (s.running = false → s.on pgPTP PTP_STATUS_TIME_SET = true → s.get pgJOBS JOBS_SP_STATUS_TRIGGER = 2 →
      ∃ t, exec (.spStart 0 1 n) s = .next t ∧ t.running = true ∧ t.sp.next = (s.advance n).dev / s.period + 2) ∧
    (s.running = true → s.on pgDRIVE DRIVE_CTRL_ENABLE = false → ∃ t, exec (.spStop 0 2) s = .next t ∧ t.sp.stopping = true) ∧
    (s.running = true → s.forme.io = none → s.feed.passed = [] → s.get pgJOBS JOBS_SP_STATUS_TRIGGER = 2 →
      ((s.advance n).dev - s.get pgJOBS JOBS_SP_LAG_NS_LAG) / s.period = s.sp.next + 1 → s.on pgFAULT FAULT_STATUS_FATAL = false →
      s.sp.stopping = false → s.sp.stage = false → s.migrating = false → s.comp.phase ≠ 3 →
      ∃ t, exec (.impressionTick n) s = .next t ∧ t.sp.next = s.sp.next + 1 ∧ t.sp.stage = true ∧ 448 ∈ t.evt.incoming)) ∧
  (∀ (s : State) (n k : Nat), n < 16 →
    (∀ x xs b e, (s.ring n).tickets = x :: xs → x.data = some b → x.fin = some e → (s.cqBase n).1 = true →
      ∃ t, exec (.ticketComplete n) s = .next t ∧ (t.ring n).tickets = xs ∧
        (t.ring n).done = ((s.ring n).done + 1) % 2 ^ 32) ∧
    (s.accepts 0 pgJOBS 0x084 = true → s.jobs.calls = [(n, k)] → s.jobs.held = [] → s.inExecution = false →
      ∃ t, exec (.callDoneWrite 0 0) s = .next t ∧
        EndedAs s t n k ⟨0, 0, 4, s.get pgJOBS JOBS_CALL_RESULT, 0, 0⟩)) ∧
  (∀ (s : State) (n : Nat), n < 16 → s.jobs.last = n → s.canFetch n = true →
    let a := (s.sqBase n).2 + 64 * ((s.ring n).fetched % s.ringDepth n)
    (s.sqBase n).1 = false → Readable s 14 a 64 → Awake s → s.forme.io = none → ∃ t x, exec (.ticketFetch none) s = .next t ∧
      (t.ring n).tickets = (s.ring n).tickets ++ [x] ∧ x.data = some (s.bytes a 64)) ∧
  (∀ (s : State) (n k : Nat) (b bs : List Byte), n < 16 → s.copyTicket n = some (k, b, 0) → 0 < tkLen b → tkLen b ≤ 512 →
    bit (tkSrc b) 63 = true →
    (bit (tkDst b) 63 = true → tkSrc b + tkLen b ≤ tkDst b → ∃ t, exec (.ticketCopy n 512 (some bs)) s = .next t ∧
      t.out = s.out ++ [.hostRead (tkSrc b % 2 ^ 63) (tkLen b), .hostWrite (tkDst b % 2 ^ 63) (slice bs 0 (tkLen b))]) ∧
    (∃ t, exec (.hostRequestError n) s = .next t ∧ EndedAs s t n k ⟨1, 5, 2, 0, 0, 0⟩)) ∧
  (∀ (s : State), s.making = true →
    ((8, 0) ∉ s.device.failed → ∃ t, exec (.unitProofDone 8 0 true) s = .next t ∧
      t.on (unitPage 8 0) PAGE_STATUS_IN_SERVICE = true) ∧
    (∀ a b, s.quoined pgCSTORE = false → patchIn a = none → patchIn b = none → ∃ t, exec (.patchLoad a b) s = .next t ∧
      t.on pgCSTORE CSTORE_STATUS_PATCH_OK = true) ∧
    (s.quoined pgCSTORE = true → (∀ k, SMap.get [] s.colo.flash.owner k = []) → ∃ t, exec (.makeReadyDone [] [] []) s = .next t ∧
      t.device.stage = 2 ∧ t.on pgCOLOPHON COLOPHON_STATUS_READY = true)) ∧
  (∀ (s : State) (k : Nat), k < 2 → s.device.stage ≠ 0 → s.on (pgLOGPORT k) PAGE_STATUS_IN_SERVICE = true →
    (s.logPort k).perstHigh = false → ∃ t, exec (.logPerstRelease k true) s = .next t ∧
      t.on (pgLOGPORT k) LOG_STATUS_DRIVE_READY = true) ∧
  (∀ (s : State) (box : Nat), MbReady s box 0x22 (mbLen (s.mbHeader box)) → mbLen (s.mbHeader box) ≤ 1044480 →
    let b := s.bytes (mbBase box + 4096) (mbLen (s.mbHeader box))
    imgKind b = 3 → imgFormed b = true → s.imgAccepted b = true → s.spFault (imgBody b) = none →
    ∃ t, exec (.mbLoadImage box [] [] []) s = .next t ∧ t.on pgJOBS JOBS_SP_STATUS_LOADED = true ∧
      t.period = spPeriod (imgBody b)) ∧
  (∀ (s : State) (n : Nat), let d := s.get pgPOWER POWER_SEL_DOMAIN
    s.accepts 1 pgPOWER 0x044 = true → d < 52 → s.domUp d = true → Resting s d →
    (s.domState d = 1 → ∃ t, exec (.powerRunRequest 1 n) s = .next t ∧ t.domState d = 0) ∧
    (s.domState d = 0 → s.powerCause d 2 false = 0 → ∃ t, exec (.powerNapRequest 1 none n) s = .next t ∧
      (t.domain d).entering = some (2, 1)) ∧
    (s.domState d = 0 → s.powerCause d 3 false = 0 → ∃ t, exec (.powerHoldRequest 1 none n) s = .next t ∧
      (t.domain d).entering = some (3, 1))) ∧
  (∀ (s : State) (d n nc : Nat), d < 52 →
    (s.domain d = { DomainSt.reset with entering := some (2, 2) } → ∃ t, exec (.powerEntryStep d n) s = .next t ∧
      (t.domain d).entering = some (2, 3) ∧ t.domState d = 1) ∧
    (Resting s d → s.domState d = 1 → ∃ t, exec (.domainWakeComplete d n) s = .next t ∧ t.domState d = 0) ∧
    (d ≠ 0 → d ≠ 35 → s.domUp d = true → s.domState d = 0 → Resting s d → s.on pgPOWER POWER_IDLE_CFG_AUTO (d + 1) = true →
      s.workPending d = false → s.get pgPOWER POWER_IDLE_CFG_IDLE_DELAY_NC (d + 1) ≤ nc →
      ∃ t, exec (.idleEntry d nc) s = .next t ∧ t.domState d = 1)) ∧
  (∀ (s : State) (proc : Nat), proc < 2 →
    (∀ l fast, s.presented proc fast = some l → ∃ t, exec (.evtAcceptance proc fast) s = .next t ∧
      t.stack proc = l :: s.stack proc) ∧
    (∀ l rest, s.stack proc = l :: rest → l < 16 → s.accepts proc pgEVT (0x0AC + proc * 0x20) = true →
      ∃ t, exec (.eoiWrite proc proc l) s = .next t ∧ t.stack proc = rest) ∧
    (s.accepts 1 pgEVT (0x0B4 + proc * 0x20) = true → ∃ t, exec (.stackReset 1 proc) s = .next t ∧ t.stack proc = []) ∧
    (∃ t, exec (.evtStackUpset proc) s = .next t ∧ t.on pgEVT (EVT_PX_STATUS_STACK_ERROR.at proc) = true) ∧
    (s.asleep 1 = false → (∀ j, j < 512 → s.srcCopy j 0 = s.srcCopy j 1) → ∃ t, exec (.evtConfigScrub [⟨0, 0x200, 0⟩]) s = .next t ∧
      t.srcCopy 0 0 = s.srcCopy 0 1 ∧ t.srcCopy 0 1 = s.srcCopy 0 1)) ∧
  (∀ (s : State) (k n m : Nat), s.asleep 3 = false →
    (k < 450 → ∃ t, exec (.eventRaise k n) s = .next t ∧
      t.get pgEVTCNT (EVT_SRC_CNT.at k) = min 255 (s.get pgEVTCNT (EVT_SRC_CNT.at k) + 1)) ∧
    (k < 64 → k ≠ 0 → k ≠ 2 → s.accepts m pgEVT 0x084 = true → ∃ t, exec (.softRaise m k n) s = .next t ∧
      t.get pgEVTCNT (EVT_SRC_CNT.at (64 + k)) = min 255 (s.get pgEVTCNT (EVT_SRC_CNT.at (64 + k)) + 1)) ∧
    (k < 512 → SMap.get 0 s.evt.acc k ≠ 0 → s.get pgEVTTIME (EVT_SRC_COAL_TIME_AC.at k) ≠ 0 →
      s.get pgEVTTIME (EVT_SRC_COAL_TIME_AC.at k) ≤ timeAt s n / 40 - SMap.get 0 s.evt.age k / 40 →
      ∃ t, exec (.coalesceTimeout k n) s = .next t ∧ t.srcPending k = true) ∧
    (k < 256 → s.msixFmask = false → s.msixPending k = true → ∃ t, exec (.msixUnmask (some k)) s = .next t ∧
      t.msixPending k = false ∧ t.out.length = s.out.length + 1) ∧
    (∀ level, k < 16 → (s.line k).settled = true → (s.line k).timing = false → level ≠ (s.line k).sync →
      ∃ t, exec (.evtLineChange k level n) s = .next t ∧ (t.line k).sync = level ∧ (t.line k).timing = true) ∧
    (k < 16 → (s.line k).settled = false → (s.line k).since + 40 * s.get pgEVT (EVT_FILT_STABLE_AC.at k) ≤ timeAt s n →
      ∃ t, exec (.evtFilterSettle k n) s = .next t ∧ (t.line k).filtered = (s.line k).sync ∧ (t.line k).settled = true))

/-- R494, R781, R782, R785, R788: what the next ticket of a ring does: NOP ends, CHAIN goes to its web, CALL enters the call
queue, and a reserved or malformed ticket is ignored. -/
def Obligations.TicketKinds : Prop :=
  ∀ (s : State) (n k : Nat) (b : List Byte), n < 16 → s.nextTicket n = some (k, b) → b.length = 64 →
    (tkKind b = 1 → ∃ t, exec (.ticketNop n) s = .next t ∧ EndedAs s t n k ⟨0, 0, 1, 0, 0, 0⟩ ∧ Beside s t []) ∧
    (tkKind b ≠ 1 → exec (.ticketNop n) s = .next s) ∧
    (tkKind b = 0 ∨ 4 < tkKind b →
      ∃ t, exec (.ticketBadKind n) s = .next t ∧ EndedAs s t n k ⟨3, 1, tkKind b, 0, 0, 0⟩ ∧ Beside s t []) ∧
    ((tkKind b = 2 ∧ tkLen b = 0) ∨ (tkKind b = 3 ∧ (8 ≤ tkWeb b ∧ tkWeb b ≤ 254 ∨ tkDescWhole b % 128 ≠ 0)) →
      ∃ t, exec (.ticketBadKind n) s = .next t ∧ EndedAs s t n k ⟨3, 2, tkKind b, 0, 0, 0⟩ ∧ Beside s t []) ∧
    (tkKind b = 3 → tkDescWhole b % 128 = 0 → ∀ w, w < 8 → s.webUp w = true →
      (tkWeb b = w ∨ (tkWeb b = 255 ∧ ∀ w', w' < 8 → s.webUp w' = true →
        s.webDepth w 1 < s.webDepth w' 1 ∨ (s.webDepth w 1 = s.webDepth w' 1 ∧ w ≤ w'))) →
      ∃ t, exec (.ticketChain n) s = .next t ∧
        t.web w = { s.web w with
          incoming := (s.web w).incoming ++ [{ desc := tkDesc b, seq := 0, src := 1 + n, ticket := k }] } ∧
        (∀ w', w' ≠ w → t.web w' = s.web w') ∧
        t.ring n = { s.ring n with tickets := (s.ring n).tickets.map fun x => if x.k = k then { x with started := true } else x } ∧
        MemoryKept s t ∧ RegsKept s t []) ∧
    (tkKind b = 3 → tkDescWhole b % 128 = 0 → (tkWeb b < 8 ∧ s.webUp (tkWeb b) = false) ∨
        (tkWeb b = 255 ∧ ∀ w, w < 8 → s.webUp w = false) →
      ∃ t, exec (.ticketChain n) s = .next t ∧ EndedAs s t n k ⟨1, 6, 3, 0, 0, 0⟩ ∧ Beside s t []) ∧
    (tkKind b = 4 → s.running = false ∨ 16 ≤ s.jobs.calls.length →
      ∃ t, exec (.ticketCall n) s = .next t ∧ EndedAs s t n k ⟨1, 8, 4, 0, 0, 0⟩ ∧ t.jobs.calls = s.jobs.calls ∧ Beside s t []) ∧
    (tkKind b = 4 → s.running = true → s.jobs.calls.length < 16 →
      Writable s 14 (s.callArea + 64 * (s.jobs.accepted % 16)) 64 →
      ∃ t, exec (.ticketCall n) s = .next t ∧ Stored s t (s.callArea + 64 * (s.jobs.accepted % 16)) b ∧
        t.jobs.calls = s.jobs.calls ++ [(n, k)] ∧ t.jobs.accepted = s.jobs.accepted + 1 ∧ Pending t pgJOBS 0 ∧
        SortsKept s t ∧ t.cores = s.cores)

/-- R52, R56 to R62, R871, R648, R770 to R773, R806, R861, R911: a BAR request of the host: BAR2 maps Stone and BAR4 the
movable window; a read completes with the bytes or with Completer Abort, a posted write is performed or dropped;
HOST_BAR4_BASE moves the window within populated Reel memory; the host link and the endpoint's resets. PERST_N and Function
Level Reset clear every ring's ENABLE and counts and leave the standing program; configuration requests meet Request Retry
Status until the endpoint is ready. -/
def Obligations.HostInterface : Prop :=
  (∀ (s : State) (q : BarReq) (n : Nat), q.bar = 2 ∨ q.bar = 4 → s.device.stage ≠ 0 → Awake s →
      s.forme.io = none →
    let a := if q.bar = 2 then q.off % 2 ^ 26
      else 0x010000000000 + s.get pgHOST HOST_BAR4_BASE_WINDOW_GIB * 2 ^ 30 + q.off % 2 ^ 32
    (q.data = none → Readable s 13 a q.len →
      ∃ t, exec (.hostBarRequest q n) s = .next t ∧ t.out = s.out ++ [.completion true (s.bytes a q.len)] ∧ MemoryKept s t ∧
        SortsKept s t) ∧
    (q.data = none → s.memOk a q.len = true → s.regionOk 13 a q.len false = false →
      ∃ t, exec (.hostBarRequest q n) s = .next t ∧ t.out = s.out ++ [.completion false []] ∧
        Counted s t pgHOST HOST_CA_COUNT ∧ Reported s t 0x031 18 (a % 2 ^ 48) 13 ∧ MemoryKept s t ∧ SortsKept s t) ∧
    (∀ bs, q.data = some bs → Writable s 13 a bs.length →
      ∃ t, exec (.hostBarRequest q n) s = .next t ∧ Stored s t a bs ∧ t.out = s.out ∧ SortsKept s t) ∧
    (∀ bs, q.data = some bs → s.memOk a bs.length = true → s.regionOk 13 a bs.length true = false →
      ∃ t, exec (.hostBarRequest q n) s = .next t ∧ MemoryKept s t ∧ t.out = s.out ∧
        Counted s t pgHOST HOST_POSTED_DROPS ∧ Reported s t 0x031 18 (a % 2 ^ 48) (13 + 2 ^ 6) ∧ SortsKept s t)) ∧
  (∀ (s : State) (q : BarReq) (n : Nat), s.device.stage = 0 → exec (.hostBarRequest q n) s = .next (s.advance n)) ∧
  (∀ (s : State) (m : Nat) (v : W32), Awake s → s.accepts m pgHOST 0x040 = true →
    ((v.toNat % 64 + 4) * 2 ^ 30 ≤ s.reelBytes → ∃ t, exec (.hostBar4BaseWrite m v) s = .next t ∧
      t.get pgHOST HOST_BAR4_BASE_WINDOW_GIB = v.toNat % 64 ∧ Beside s t [pgHOST]) ∧
    (s.reelBytes < (v.toNat % 64 + 4) * 2 ^ 30 → ∃ t, exec (.hostBar4BaseWrite m v) s = .next t ∧
      IgnoredBy s t pgHOST 0x040 8)) ∧
  (∀ (s : State) (n : Nat), 1 ≤ s.device.stage → s.on pgHOST HOST_LINK_PERST = false →
      s.on pgHOST PAGE_STATUS_IN_SERVICE = true →
    (∀ speed width, 1 ≤ speed → speed ≤ 5 → width ∈ [1, 2, 4, 8, 16] →
      ∃ t, exec (.hostLinkChange true speed width n) s = .next t ∧ t.on pgHOST HOST_LINK_LINK_UP = true ∧
        t.get pgHOST HOST_LINK_SPEED = speed ∧ t.get pgHOST HOST_LINK_WIDTH = width ∧
        (s.on pgHOST HOST_LINK_LINK_UP = false → Pending t pgHOST 0) ∧ Beside s t [pgHOST]) ∧
    (∀ speed width, ∃ t, exec (.hostLinkChange false speed width n) s = .next t ∧
        t.on pgHOST HOST_LINK_LINK_UP = false ∧ t.get pgHOST HOST_LINK_SPEED = 0 ∧ t.get pgHOST HOST_LINK_WIDTH = 0 ∧
        (s.on pgHOST HOST_LINK_LINK_UP = true → Pending t pgHOST 0) ∧ Beside s t [pgHOST])) ∧
  (∀ (s : State) (n : Nat),
    (s.on pgHOST HOST_LINK_LINK_UP = true → s.power.phase ≠ 2 →
      ∃ t, exec (.hostLinkL1Entry n) s = .next t ∧ t.on pgHOST HOST_LINK_L1 = true ∧ t.power = s.power ∧
        Beside s t [pgHOST]) ∧
    (s.on pgHOST HOST_LINK_L1 = true →
      ∃ t, exec (.hostLinkL1Exit n) s = .next t ∧ t.on pgHOST HOST_LINK_L1 = false ∧ Beside s t [pgHOST, pgPOWER]) ∧
    (s.on pgHOST HOST_LINK_L1 = false → exec (.hostLinkL1Exit n) s = .next (s.advance n))) ∧
  (∀ s : State,
    let afterReset := fun (t : State) => t.host.retry = true ∧ t.msixFmask = false ∧ t.sp = s.sp ∧ t.drive = s.drive ∧
      t.log = s.log ∧ t.cores = s.cores ∧ SortsKept s t ∧ t.running = s.running ∧ t.jobs.calls = [] ∧ t.jobs.held = [] ∧
      (∀ v, v < 256 → t.reg 0x3FFE (16 * v + 12) = 1) ∧
      ∀ n, n < 16 → t.ringEnabled n = false ∧ t.ring n = RingSt.reset ∧ t.ringTail n = 0 ∧ t.ringHead n = 0
    (∃ t, exec .functionLevelReset s = .next t ∧ afterReset t ∧ Counted s t pgHOST HOST_RESETS ∧
      t.reg pgHOST HOST_LINK_LINK_UP.off = s.reg pgHOST HOST_LINK_LINK_UP.off) ∧
    (s.on pgHOST HOST_LINK_PERST = false → ∃ t, exec .perstAssert s = .next t ∧ afterReset t ∧
      t.on pgHOST HOST_LINK_PERST = true ∧ t.on pgHOST HOST_LINK_LINK_UP = false) ∧
    (s.on pgHOST HOST_LINK_PERST = true → exec .perstAssert s = .next s) ∧
    (∃ t, exec .perstRelease s = .next t ∧ t.on pgHOST HOST_LINK_PERST = false ∧ t.host = s.host ∧ t.jobs = s.jobs ∧
      Beside s t [pgHOST]) ∧
    (s.device.stage = 2 → s.on pgHOST HOST_LINK_PERST = false →
      exec .flrComplete s = .next { s with host := { retry := false } } ∧
      exec .hostConfigRequest s = .next { s with out := s.out ++ [.config s.host.retry] }) ∧
    (s.device.stage = 1 → s.on pgHOST HOST_LINK_PERST = false →
      exec .flrComplete s = .next s ∧ exec .hostConfigRequest s = .next { s with out := s.out ++ [.config true] }))

/-- R33, R674, R905 to R910, R730, R734, R735 steps 1 to 5, R893, R909, R910: each device reset puts every register at its
reset value, PERST_N's level apart, and clears every QUOIN; the fault latch and log outlast SYS_RST_N alone; fuses, flash and
pairings outlast each. That memory reads as zero afterwards is the model's choice (notes/assumptions/5.md, 23.md); the end of
the last reset cause starts make-ready from the slot that verifies under a key of index 0 to 3 that is not revoked, the active
one first unless the trial flag is set; where none does, recovery or reset. -/
def Obligations.ResetsAndMakeReady : Prop :=
  (∀ s : State, ∀ x ∈ ([(.porNAssert, { s.device with por := true }, true), (.sysRstNAssert, { s.device with sys := true }, false),
       (.brownoutTrip, { s.device with brown := true }, true), (.thermalReset, { s.device with thermal := true }, true)] :
       List (Instr × DevSt × Bool)),
     ∃ t, exec x.1 s = .next t ∧ t.device = { x.2.1 with stage := 0, coloStopped := false, failed := [] } ∧
       (∀ p off i, p < 0x4000 → off < 0x1000 → ¬ (p = pgHOST ∧ off = 0x044) → (p = pgFAULT → x.2.2 = true) →
         t.reg p off i = resetWord p off) ∧
       (x.2.2 = false → (∀ off ∈ [0x048, 0x04C, 0x050, 0x054, 0x058, 0x05C, 0x060, 0x070, 0x074],
           t.reg pgFAULT off = s.reg pgFAULT off) ∧ t.fault.log = s.fault.log ∧
         t.get pgFAULT FAULT_STATUS_FIRST_VALID = s.get pgFAULT FAULT_STATUS_FIRST_VALID ∧
         t.get pgFAULT FAULT_STATUS_FATAL = 0) ∧
       (x.2.2 = true → t.fault = FaultSt.reset) ∧ t.on pgHOST HOST_LINK_PERST = s.on pgHOST HOST_LINK_PERST ∧
       (∀ p, p < 0x4000 → t.quoined p = false) ∧ t.colo.fuses = s.colo.fuses ∧ t.colo.flash = s.colo.flash ∧
       t.feed.pairings = s.feed.pairings ∧ t.feed.table = [] ∧ t.seq = SeqSt.reset ∧ t.cores = [] ∧ (∀ a, t.byte a = 0#8) ∧
       t.mono = s.mono ∧ t.pending = s.pending) ∧
  (∀ (s : State) (mode : Nat) (test : Bool) (b : BootSlots),
     ∀ x ∈ ([(.porNRelease mode test b, s.device.por, { s.device with por := false, bootMode := mode % 4, test := test }),
         (.sysRstNRelease b, s.device.sys, { s.device with sys := false }),
         (.brownoutRelease mode b, s.device.brown, { s.device with brown := false, bootMode := mode % 4 }),
         (.thermalResetRelease mode b, s.device.thermal, { s.device with thermal := false, bootMode := mode % 4 })] :
         List (Instr × Bool × DevSt)),
       let d := x.2.2
       let held : Prop := (d.por || d.sys || d.brown || d.thermal || d.test) = true
       let head := fun (k : Nat) => if k = 0 then b.a else b.b
       let ok := fun (k : Nat) => (head k).verifies = true ∧ (head k).rev = 0xB0 ∧ s.colo.fuses.fw ≤ (head k).rollback ∧
         ∃ j, j < 4 ∧ bit s.colo.fuses.revoke j = false ∧ s.device.adkKeys[j]? = some (sha384 (head k).key)
       let first := if s.colo.flash.trial then 1 - s.colo.flash.active else s.colo.flash.active
       let recovers := ∃ t, exec x.1 s = .next t ∧ t.device.stage = 1 ∧ t.on pgCOLOPHON COLOPHON_STATUS_RECOVERY = true ∧
         t.get pgCOLOPHON COLOPHON_STATUS_BOOT_MODE = d.bootMode % 4 ∧ MemoryKept s t
       let boots := fun (k : Nat) => ∃ t, exec x.1 s = .next t ∧ t.device.stage = 1 ∧
         t.get pgCOLOPHON COLOPHON_STATUS_SLOT = k ∧
         t.get pgCOLOPHON COLOPHON_STATUS_FW_VERSION = (head k).version % 2 ^ 16 ∧
         t.on pgCRYPTO CRYPTO_STATUS_IDENTITY_READY = true ∧ t.colo.flash.active = k ∧ t.colo.flash.trial = false ∧
         SMap.get [] t.colo.meas 0 = sha384 (s.fwImage k) ∧
         (∀ p ∈ [pgSTONE, pgFAULT, pgJOBS, pgPOWER, pgEVT, pgNOC], t.on p PAGE_STATUS_IN_SERVICE = true) ∧ MemoryKept s t
       (x.2.1 = false → exec x.1 s = .next s) ∧
       (x.2.1 = true → held → exec x.1 s = .next { s with device := d }) ∧
       (x.2.1 = true → ¬ held → s.colo.flash.active < 2 →
         (d.bootMode = 2 → recovers) ∧
         (d.bootMode ≠ 2 → ok first → boots first) ∧
         (d.bootMode ≠ 2 → ¬ ok first → ok (1 - first) → boots (1 - first)) ∧
         (d.bootMode = 1 → ¬ ok 0 → ¬ ok 1 → recovers) ∧
         (d.bootMode ≠ 1 → d.bootMode ≠ 2 → ¬ ok 0 → ¬ ok 1 → exec x.1 s = .next { s with device := d })))

/-- R813 to R815, R818 to R824, R828, R832 to R834: the fabric. A flip-flop takes RESET_VALUE under its reset, else its
lookup table's output where its enable is 1, else keeps its value; the end of a load, the event lines and the fade request
that the cells drive, FRISKET_RESET1, the scrub of the configuration, the release after a wake, and GPIO inputs.
Choices of the model: notes/assumptions/39.md, 52.md. -/
def Obligations.FrisketFabric : Prop :=
  (∀ (s : State) (on : Nat → Bool) (n : Nat), n < 16384 →
    let f := s.frisket
    let c := f.cfg n
    let next := (s.fabricEdge on).frisket.flops.getD n false
    let reset : Prop := (c.reset = 1 ∧ f.gr0At c.tree = true) ∨ (c.reset = 2 ∧ f.gr1At c.tree = true)
    (on c.tree = false → next = f.flops.getD n false) ∧
    (on c.tree = true → reset → next = c.resetValue) ∧
    (on c.tree = true → ¬ reset → Config.pathBroken f.cells (s.get pgFRISKET FRISKET_TREE_SRC) n = false →
      next = if s.cellIn true n 6 then s.lutOut n else f.flops.getD n false)) ∧
  (∀ (s : State) (body : List Byte), s.frisket.loading = some body → s.frisket.loadFor = none →
    (∃ t, exec (.frisketLoadDone true) s = .next t ∧ t.fabric = 3 ∧ t.frisket.gr0 = false ∧
      (s.fabric = 1 → ∀ k, k < 4 → t.frisket.gr0At k = true) ∧
      t.frisket.loading = none ∧ t.frisket.cells = body.take 2621440 ∧ t.frisket.boundary = true ∧
      t.quoined pgFRISKET = true ∧ SMap.get [] t.colo.meas 3 = sha384 (body.take 2621440) ∧
      (∀ k, k < 256 → (t.reg pgFRISKET (0x080 + 4 * k)).toNat = fieldLE (body.drop 2621440) (4 * k) 4) ∧
      Beside s t [pgFRISKET]) ∧
    (∃ t, exec (.frisketLoadDone false) s = .next t ∧ t.fabric = 0 ∧ t.frisket.loading = none ∧
      Reported s t 0x000 34 0 14 ∧ Beside s t [pgFRISKET])) ∧
  (∀ (s : State) (ok : Bool), s.frisket.loading = none → exec (.frisketLoadDone ok) s = .next s) ∧
  (∀ (s : State) (i n : Nat), i < 32 → 2 ≤ s.fabric →
    let now := (s.advance n).fabricRun
    (let level := now.fabricOut (.line i)
     ∃ t, exec (.frisketEventLine i n) s = .next t ∧ SMap.get false t.frisket.lines i = level ∧
      (∀ j, j ≠ i → SMap.get false t.frisket.lines j = SMap.get false s.frisket.lines j) ∧
      (level = true → SMap.get false s.frisket.lines i = false → s.asleep 3 = false →
        t.get pgEVTCNT (EVT_SRC_CNT.at (16 + i)) = min 255 (s.get pgEVTCNT (EVT_SRC_CNT.at (16 + i)) + 1)) ∧
      (level = false ∨ SMap.get false s.frisket.lines i = true → t.regs = s.regs ∧ t.evt = s.evt) ∧
      MemoryKept s t ∧ SortsKept s t ∧ t.cores = s.cores) ∧
    (let level := now.fabricOut .fade
     ∃ t, exec (.frisketFadeRequest n) s = .next t ∧ t.frisket.fadeReq = level ∧
      (level = true → s.frisket.fadeReq = false → Counted s t pgFRISKET FRISKET_FADE_REQUESTS ∧
        bit (t.get pgDRIVE DRIVE_FADE_STATUS_CAUSES) 2 = true ∧ t.get pgDRIVE DRIVE_FADE_STATUS_STATE ≠ 0) ∧
      (level = false ∨ s.frisket.fadeReq = true → t.regs = s.regs ∧ t.drive = s.drive) ∧
      MemoryKept s t ∧ SortsKept s t ∧ t.cores = s.cores)) ∧
  (∀ (s : State) (m : Nat), s.accepts m pgFRISKET 0x044 = true →
    ∃ t, exec (.frisketReset1 m) s = .next t ∧ t.out = s.out ++ [.gr1] ∧ Beside s t [pgFRISKET] ∧
      (∀ k, k < 4 → s.treeSrc k ≠ 0 → SMap.get 0 t.frisket.gr1Left k = 4) ∧
      t.frisket.gr0 = s.frisket.gr0 ∧ t.frisket.cells = s.frisket.cells) ∧
  (∀ (s : State) (n k : Nat), 2 ≤ s.fabric →
    (n ≠ 0 → ∃ t, exec (.frisketConfigScrub n false k) s = .next t ∧
      t.get pgFRISKET FRISKET_CFG_CORRECTED = min (s.get pgFRISKET FRISKET_CFG_CORRECTED + n)
        (2 ^ FRISKET_CFG_CORRECTED.width - 1) ∧ Pending t pgFRISKET 1 ∧ t.fabric = s.fabric ∧ Beside s t [pgFRISKET]) ∧
    (s.fabric ≠ 4 → ∃ t, exec (.frisketConfigScrub 0 true k) s = .next t ∧ t.fabric = 4 ∧ t.frisket.gr0 = true ∧
      ⟨0x03F, 39, 0, 0⟩ ∈ t.fault.net ∧ bit (t.get pgDRIVE DRIVE_FADE_STATUS_CAUSES) 2 = true ∧ MemoryKept s t ∧
      SortsKept s t ∧ t.cores = s.cores)) ∧
  (∀ s : State, s.frisket.wakeScrub = true → s.fabric = 3 →
    ∃ t, exec .frisketWakeRelease s = .next t ∧ t.frisket.wakeScrub = false ∧ t.frisket.gr0 = false ∧
      (∀ k, k < 4 → t.frisket.gr0At k = true) ∧ t.frisket.flops = s.frisket.flops ∧ t.regs = s.regs ∧ Beside s t []) ∧
  (∀ (s : State) (n k : Nat) (level : Bool), n < 64 → ∃ t, exec (.gpioInputChange n level k) s = .next t ∧
    SMap.get false t.frisket.gpioIn n = level ∧ (∀ j, j ≠ n → SMap.get false t.frisket.gpioIn j = SMap.get false s.frisket.gpioIn j) ∧
    t.regs = s.regs ∧ Beside s t [])

/-- R702, R723 to R725, R728, R767: a sensor sample outside its limits sends one SENSOR_LIMIT until 16 samples have lain
within; the Colophon's cross-check is fatal; DRBG_FAULT stops signing; DEBUG_LOCK leaves mandatory TAP instructions alone in
use. That the TAP is left in BYPASS is the model's choice (notes/assumptions/22.md). -/
def Obligations.ColophonMonitors : Prop :=
  (∀ (s : State) (k n : Nat) (value : W32), k < 76 → s.firmware = true → s.clockStopped k = false →
    let x := s.sensor k
    let low : Prop := sensorValue k value < sensorValue k x.lower
    let high : Prop := sensorValue k x.upper < sensorValue k value
    (¬ low → ¬ high → ∃ t, exec (.sensorSample k value n) s = .next t ∧ (t.sensor k).value = value ∧
        (t.sensor k).lower = x.lower ∧ (t.sensor k).upper = x.upper ∧ (t.sensor k).sent = (x.sent && decide (x.good + 1 < 16)) ∧
        (t.sensor k).good = (if x.sent ∧ x.good + 1 < 16 then x.good + 1 else 0) ∧
      t.fault = s.fault ∧ t.regs = s.regs ∧ Beside s t []) ∧
    (high → x.sent = false → ∃ t, exec (.sensorSample k value n) s = .next t ∧ (t.sensor k).value = value ∧
      (t.sensor k).sent = true ∧ (t.sensor k).good = 0 ∧ Reported s t (sensorSource k) 37 0 (k + 2 ^ 8) ∧
      Pending t pgCOLOPHON 1 ∧ Beside s t [pgCOLOPHON]) ∧
    (low → ¬ high → x.sent = false → ∃ t, exec (.sensorSample k value n) s = .next t ∧ (t.sensor k).sent = true ∧
      Reported s t (sensorSource k) 37 0 k ∧ Pending t pgCOLOPHON 1 ∧ Beside s t [pgCOLOPHON]) ∧
    (low ∨ high → x.sent = true → ∃ t, exec (.sensorSample k value n) s = .next t ∧ (t.sensor k).sent = true ∧
      (t.sensor k).good = 0 ∧ t.fault = s.fault ∧ t.regs = s.regs ∧ Beside s t [])) ∧
  (∀ (s : State) (n : Nat) (words : List W32), s.firmware = true →
    ∃ t, exec (.pmbusPoll words n) s = .next t ∧ t.out = s.out ++ (List.range words.length).map Output.pmbus ∧
      Beside s t [pgCOLOPHON]) ∧
  (∀ s : State, ∃ t, exec .drbgHealthFail s = .next t ∧ t.on pgCRYPTO CRYPTO_STATUS_DRBG_FAULT = true ∧ t.canSign = false ∧
    Beside s t [pgCRYPTO]) ∧
  (∀ s : State, s.firmware = true →
    (s.core 3 = s.core 4 → exec .colophonCrossCheck s = .next s) ∧
    (∀ r v, 1 ≤ r → r < 32 → s.core 4 = { s.core 3 with g := SMap.set 0 (s.core 3).g r v } → v ≠ SMap.get 0 (s.core 3).g r →
      ∃ t, exec .colophonCrossCheck s = .next t ∧ Reported s t 0x001 35 0 0 ∧ Beside s t [pgCOLOPHON])) ∧
  (∀ (s : State) (data : List Byte), exec (.uartReceive data) s =
    .next { s with colo := { s.colo with uart := s.colo.uart ++ data } }) ∧
  (∀ (s : State) (code : Nat) (mandatory : Bool), ∃ t, exec (.jtagTapInstruction code mandatory) s = .next t ∧
    t.colo.tap = (if s.colo.fuses.debugLock = true ∧ mandatory = false then 0 else code) ∧ t.regs = s.regs ∧ Beside s t [])

/-- R738 to R742, R567, R598, R730, R743 to R745, R762, R763: mailbox commands that answer at once: GET_CERT, ATTEST,
REGION_SET, FLOW_SET, an unknown opcode; a mailbox without a taken command of the opcode does nothing. REGION_SET refuses a
region that R740 guards; owners and firmware. ENROL fuses the hash of a key that signs the nonce into a blank slot, with the
current owner's signature while owned; RELEASE needs the owner's; UPDATE_SWITCH runs the other slot on trial where its image
verifies under a valid key, and UPDATE_CONFIRM ends the trial and raises FW_ROLLBACK. -/
def Obligations.MailboxAndOwners : Prop :=
  (∀ (s : State) (box : Nat), ∀ x ∈ ([(.mbGetCert box, 0x01), (.mbAttest box, 0x02),
      (.mbRegionSet box 0 0 Region.none, 0x10), (.mbFlowSet box 1 Flow.none, 0x11), (.mbUpdateBegin box, 0x30),
      (.mbUpdateData box, 0x31), (.mbReadJournal box 0 1, 0x43)] : List (Instr × Nat)),
    s.mbTaken box x.2 = false → exec x.1 s = .next s) ∧
  (∀ (s : State) (box : Nat), MbReady s box 0x01 65536 →
    ∃ t, exec (.mbGetCert box) s = .next t ∧ MbAnswered s t box 0 (Config.identityCert.take 65536)) ∧
  (∀ (s : State) (box : Nat), MbReady s box 0x02 4096 →
    let nonce := slice (s.mbHeader box) 9 48
    (s.on pgCRYPTO CRYPTO_STATUS_DRBG_FAULT = false →
      let head := s.attestHead nonce
      let sig := ecSign identityKey (freeScalar s.free) head
      (head ++ sig).length ≤ 4096 →
      ∃ t, exec (.mbAttest box) s = .next t ∧ MbAnswered s t box 0 (head ++ sig) ∧ t.colo.nonce = nonce) ∧
    (s.on pgCRYPTO CRYPTO_STATUS_DRBG_FAULT = true →
      ∃ t, exec (.mbAttest box) s = .next t ∧ MbAnswered s t box 1 [] ∧ t.colo.nonce = s.colo.nonce)) ∧
  (∀ (s : State) (box m r : Nat) (g : Region), MbReady s box 0x10 0 →
    let guarded : Prop := m ≠ 1 ∧ g.w = true ∧ (g.whole = true ∨ 0 < g.size ∧ ∃ x ∈ guardedExtents,
      g.base < x.1 + x.2 ∧ x.1 < g.base + 256 * g.size)
    (m < 18 → r < 16 → g.tooHigh = false → ¬ guarded → s.quoined pgSTONE = false →
      ∃ t, exec (.mbRegionSet box m r g) s = .next t ∧ MbAnswered s t box 0 [] ∧
        t.region m r = { g with base := g.base / 256 * 256 } ∧
        ∀ m' r', r' < 16 → (m', r') ≠ (m, r) → t.region m' r' = s.region m' r') ∧
    (m < 18 → r < 16 → g.tooHigh = false → guarded ∨ s.quoined pgSTONE = true →
      ∃ t, exec (.mbRegionSet box m r g) s = .next t ∧ MbAnswered s t box 1 [] ∧ t.mem.regions = s.mem.regions) ∧
    (18 ≤ m ∨ 16 ≤ r ∨ g.tooHigh = true →
      ∃ t, exec (.mbRegionSet box m r g) s = .next t ∧ MbAnswered s t box 4 [] ∧ t.mem.regions = s.mem.regions)) ∧
  (∀ (s : State) (box k : Nat) (f : Flow), MbReady s box 0x11 0 →
    (k = 0 ∨ 63 < k ∨ 127 < f.slots →
      ∃ t, exec (.mbFlowSet box k f) s = .next t ∧ MbAnswered s t box 4 [] ∧ t.noc.inForce = s.noc.inForce) ∧
    (1 ≤ k → k ≤ 63 → f.slots ≤ 127 → s.on pgNOC NOC_FLOW_STATUS_CHECKING = true →
      ∃ t, exec (.mbFlowSet box k f) s = .next t ∧ MbAnswered s t box 1 [] ∧ t.noc.inForce = s.noc.inForce) ∧
    (1 ≤ k → k ≤ 63 → f.slots ≤ 127 → s.on pgNOC NOC_FLOW_STATUS_CHECKING = false →
      ∃ t st, exec (.mbFlowSet box k f) s = .next t ∧ MbAnswered s t box st [] ∧ (st = 0 ∨ st = 1) ∧
        t.on pgNOC NOC_FLOW_STATUS_CHECKING = false ∧ t.get pgNOC NOC_FLOW_CFG_SLOTS (k + 1) = f.slots ∧
        t.on pgNOC NOC_FLOW_CFG_VALID (k + 1) = f.valid)) ∧
  (∀ (s : State) (box : Nat), MbReady s box (mbOpcode (s.mbHeader box)) 0 →
    (mbOpcode (s.mbHeader box) ∉ [0x01, 0x02, 0x10, 0x11, 0x20, 0x21, 0x22, 0x30, 0x31, 0x32, 0x33, 0x40, 0x41, 0x42, 0x43] →
      ∃ t, exec (.mbBadOpcode box) s = .next t ∧ MbAnswered s t box 4 []) ∧
    (mbOpcode (s.mbHeader box) ∈ [0x01, 0x02, 0x10, 0x11, 0x20, 0x21, 0x22, 0x30, 0x31, 0x32, 0x33, 0x40, 0x41, 0x42, 0x43] →
      exec (.mbBadOpcode box) s = .next s)) ∧
  (∀ (s : State) (box k : Nat) (key sig owner ownerSig : List Byte), MbReady s box 0x20 0 →
    let msg := ascii "EVS-ENROL" ++ bytesLE 8 s.deviceSerial ++ s.colo.nonce
    let blank := fun (k : Nat) => SMap.get 0 s.colo.fuses.states k = 0
    (k < 4 → blank k → (∀ j, j < k → ¬ blank j) → s.colo.nonce ≠ [] → ecVerify key msg sig = true →
      (s.ownerSlot = none ∨ (∃ o, s.ownerSlot = some o ∧ sha384 owner = SMap.get [] s.colo.fuses.keys o ∧
        ecVerify owner (msg ++ sha384 key) ownerSig = true)) →
      ∃ t, exec (.mbEnrol box key sig owner ownerSig) s = .next t ∧ MbAnswered s t box 0 [] ∧
        SMap.get 0 t.colo.fuses.states k = 3 ∧ SMap.get [] t.colo.fuses.keys k = sha384 key ∧
        t.on pgCRYPTO CRYPTO_STATUS_OWNED = true ∧ t.on pgCSTORE CSTORE_STATUS_OWNER_ONLY = true ∧
        (∀ o, s.ownerSlot = some o → bits (SMap.get 0 t.colo.fuses.states o) 3 2 = 3)) ∧
    ((∀ j, j < 4 → ¬ blank j) ∨ s.colo.nonce = [] →
      ∃ t, exec (.mbEnrol box key sig owner ownerSig) s = .next t ∧ MbAnswered s t box 1 [] ∧ t.colo.fuses = s.colo.fuses) ∧
    (k < 4 → blank k → s.colo.nonce ≠ [] → ecVerify key msg sig = false ∨ (∃ o, s.ownerSlot = some o ∧
        (sha384 owner ≠ SMap.get [] s.colo.fuses.keys o ∨ ecVerify owner (msg ++ sha384 key) ownerSig = false)) →
      ∃ t, exec (.mbEnrol box key sig owner ownerSig) s = .next t ∧ MbAnswered s t box 2 [] ∧ t.colo.fuses = s.colo.fuses)) ∧
  (∀ (s : State) (box : Nat) (owner sig : List Byte), MbReady s box 0x21 0 →
    (∀ o, s.ownerSlot = some o → s.colo.nonce ≠ [] →
      let good : Prop := sha384 owner = SMap.get [] s.colo.fuses.keys o ∧
        ecVerify owner (ascii "EVS-RELEASE" ++ bytesLE 8 s.deviceSerial ++ s.colo.nonce) sig = true
      (good → ∃ t, exec (.mbRelease box owner sig) s = .next t ∧ MbAnswered s t box 0 [] ∧
        bits (SMap.get 0 t.colo.fuses.states o) 3 2 = 3) ∧
      (¬ good → ∃ t, exec (.mbRelease box owner sig) s = .next t ∧ MbAnswered s t box 2 [] ∧ t.colo.fuses = s.colo.fuses)) ∧
    (s.ownerSlot = none ∨ s.colo.nonce = [] →
      ∃ t, exec (.mbRelease box owner sig) s = .next t ∧ MbAnswered s t box 1 [] ∧ t.colo.fuses = s.colo.fuses)) ∧
  (∀ (s : State) (box : Nat), MbReady s box 0x30 0 →
    ∃ t, exec (.mbUpdateBegin box) s = .next t ∧ MbAnswered s t box 0 [] ∧ t.colo.update = some [] ∧
      t.colo.flash = { s.colo.flash with fw := SMap.set none s.colo.flash.fw (1 - s.colo.flash.active) (some []) }) ∧
  (∀ (s : State) (box : Nat), MbReady s box 0x31 (mbLen (s.mbHeader box)) →
    (s.colo.update = none → ∃ t, exec (.mbUpdateData box) s = .next t ∧ MbAnswered s t box 1 []) ∧
    (∀ u, s.colo.update = some u → mbLen (s.mbHeader box) ≤ 1044480 → u.length + mbLen (s.mbHeader box) ≤ 2 ^ 23 →
      ∃ t, exec (.mbUpdateData box) s = .next t ∧ MbAnswered s t box 0 [] ∧
        t.colo.update = some (u ++ s.bytes (mbBase box + 4096) (mbLen (s.mbHeader box))))) ∧
  (∀ (s : State) (box n : Nat) (h : FwHead) (u : List Byte), MbReady s box 0x32 0 → s.colo.update = some u →
    s.colo.flash.active < 2 → 10 ≤ s.get pgFAULT FAULT_HB_CFG_TIMEOUT_MS →
    let good := h.verifies = true ∧ h.rev = 0xB0 ∧ s.colo.fuses.fw ≤ h.rollback ∧
      ∃ j, j < 4 ∧ bit s.colo.fuses.revoke j = false ∧ s.device.adkKeys[j]? = some (sha384 h.key)
    (good →
      ∃ t, exec (.mbUpdateSwitch box h n) s = .next t ∧ MbAnswered s t box 0 [] ∧
        t.colo.flash.active = 1 - s.colo.flash.active ∧ t.colo.flash.trial = true ∧ t.colo.trialRollback = h.rollback ∧
        t.get pgCOLOPHON COLOPHON_STATUS_SLOT = 1 - s.colo.flash.active ∧ t.on pgCOLOPHON COLOPHON_STATUS_TRIAL = true ∧
        t.get pgCOLOPHON COLOPHON_STATUS_FW_VERSION = h.version % 2 ^ 16 ∧ SMap.get [] t.colo.meas 0 = sha384 u ∧
        t.running = s.running) ∧
    (¬ good →
      ∃ t, exec (.mbUpdateSwitch box h n) s = .next t ∧ MbAnswered s t box 2 [] ∧ t.colo.flash = s.colo.flash)) ∧
  (∀ (s : State) (box : Nat), MbReady s box 0x33 0 →
    (s.colo.flash.trial = true → ∃ t, exec (.mbUpdateConfirm box) s = .next t ∧ MbAnswered s t box 0 [] ∧
      t.colo.flash.trial = false ∧ t.colo.fuses.fw = max s.colo.fuses.fw (min s.colo.trialRollback 256) ∧
      t.on pgCOLOPHON COLOPHON_STATUS_TRIAL = false) ∧
    (s.colo.flash.trial = false → ∃ t, exec (.mbUpdateConfirm box) s = .next t ∧ MbAnswered s t box 1 [] ∧
      t.colo.fuses = s.colo.fuses))

/-- R749 to R752, R758, R759, R756, R757, R759, R760, R768: a run of the record opens with the chain value over its RUN and
closes FINAL; a full block closes at once, and 60 s after a signature record another follows; READ_LOG and READ_JOURNAL return
what drive and flash hold; an NVMe completion ends its command, retries it up to three times, or fails the drive; a timeout
fails it; LOG_RELEASE takes effect with its upper half; a journal entry is programmed under the next SEQ, and the oldest
sector erased. -/
def Obligations.RecordAndLogPorts : Prop :=
  (∀ (s : State) (box n : Nat), MbReady s box 0x40 0 →
    (s.log.open_ = false → ∃ t, exec (.mbRecordOpen box n) s = .next t ∧ MbAnswered s t box 0 [] ∧ t.log.open_ = true ∧
      t.log.run = s.sigCounter ∧ t.log.num = 0 ∧ t.log.first = 0 ∧ t.log.stream = [] ∧ t.log.lost = 0 ∧
      t.log.prev = sha384 (ascii "EVS-RECORD" ++ bytesLE 8 s.deviceSerial ++ bytesLE 8 s.sigCounter) ∧
      t.on (pgLOGPORT 0) LOG_STATUS_RUN_OPEN = true ∧ t.on (pgLOGPORT 1) LOG_STATUS_RUN_OPEN = true) ∧
    (s.log.open_ = true → ∃ t, exec (.mbRecordOpen box n) s = .next t ∧ MbAnswered s t box 1 [] ∧ t.log = s.log)) ∧
  (∀ (s : State) (box n : Nat), MbReady s box 0x41 0 →
    (s.log.open_ = true → ∃ t, exec (.mbRecordClose box n) s = .next t ∧ MbAnswered s t box 0 [] ∧ t.log.open_ = false ∧
      t.log.stream = [] ∧ t.log.num = s.log.num + 1 ∧ t.on (pgLOGPORT 0) LOG_STATUS_RUN_OPEN = false ∧
      t.on (pgLOGPORT 1) LOG_STATUS_RUN_OPEN = false) ∧
    (s.log.open_ = false → ∃ t, exec (.mbRecordClose box n) s = .next t ∧ MbAnswered s t box 1 [] ∧ t.log = s.log)) ∧
  (∀ (s : State) (n : Nat),
    (s.log.open_ = true → blockPayload ≤ s.log.stream.length → s.log.num + 1 - s.log.first < 64 →
      ∃ t, exec (.recordBlockClose n) s = .next t ∧ t.log.num = s.log.num + 1 ∧
        t.log.stream = s.log.stream.drop blockPayload ∧
        t.log.prev = sha384 ((s.advance n).blockBytes 0 (s.log.stream.take blockPayload)) ∧
        t.log.first = s.log.first ∧ MemoryKept s t ∧ SortsKept s t ∧ t.cores = s.cores) ∧
    (s.log.open_ = false ∨ s.log.stream.length < blockPayload → exec (.recordBlockClose n) s = .next (s.advance n)) ∧
    (s.log.open_ = true → s.log.lastAt + 60000000000 ≤ timeAt s n → s.log.stream = [] →
      s.on pgCRYPTO CRYPTO_STATUS_DRBG_FAULT = false →
      ∃ t, exec (.signatureTimer n) s = .next t ∧ t.log.first = s.log.num ∧ t.log.num = s.log.num ∧
        t.log.lastAt = timeAt s n ∧ t.log.sigs = s.log.sigs + 1 ∧ t.log.prevCounter = s.sigCounter + 1 ∧
        t.sigCounter = (s.sigCounter + 1) % 2 ^ 64 ∧ MemoryKept s t ∧ SortsKept s t ∧ t.cores = s.cores) ∧
    (s.log.open_ = false ∨ timeAt s n < s.log.lastAt + 60000000000 → exec (.signatureTimer n) s = .next (s.advance n))) ∧
  (∀ (s : State) (box k what first count dst : Nat) (data : List Byte), MbReady s box 0x42 0 → k < 2 → what < 2 → 0 < count →
    let unit := if what = 0 then 1048576 else 4096
    (s.on (pgLOGPORT k) LOG_STATUS_DRIVE_READY = true → s.on (pgLOGPORT k) LOG_STATUS_DRIVE_FAILED = false →
      Writable s 13 dst (count * unit) → dst + count * unit ≤ mbBase 0 →
      ∃ t, exec (.mbReadLog box k what first count dst data) s = .next t ∧ Output.mailbox box 0 [] ∈ t.out ∧
        (∀ i, i < count → Output.nvmeRead k (s.logLba k what (first + i)) (unit / 4096) ∈ t.out) ∧
        (∀ i, i < count * unit → t.byte (dst + i) = (slice data 0 (count * unit)).getD i 0)) ∧
    (s.on (pgLOGPORT k) LOG_STATUS_DRIVE_READY = false ∨ s.regionOk 13 dst (count * unit) true = false →
      ∃ t, exec (.mbReadLog box k what first count dst data) s = .next t ∧ MbAnswered s t box 1 [])) ∧
  (∀ (s : State) (box first count : Nat), count ≤ 2040 → MbReady s box 0x43 1044480 →
    let rs := (List.range count).flatMap fun i =>
      let r := SMap.get [] s.colo.journal.recs ((first + i) % 32768)
      if fieldLE r 0 8 = first + i then r else []
    rs.length ≤ 1044480 →
    ∃ t, exec (.mbReadJournal box first count) s = .next t ∧ MbAnswered s t box 0 rs) ∧
  (∀ (s : State) (k id status n : Nat), k < 2 →
    (s.nvme k id = none → exec (.nvmeCompletion k id status n) s = .next (s.advance n) ∧
      exec (.nvmeTimeout k id n) s = .next (s.advance n)) ∧
    (∀ c, s.nvme k id = some c →
      (status % 2 ^ 11 = 0 → ∃ t, exec (.nvmeCompletion k id status n) s = .next t ∧
        (c.what = 0 → t.pair (pgLOGPORT k) LOG_WRITTEN_LO LOG_WRITTEN_HI = (c.num + 1) % 2 ^ 64) ∧
        ((s.logPort k).waiting = [] → (t.logPort k).cmds = (s.logPort k).cmds.filter fun x => x.id != id) ∧
        MemoryKept s t ∧ SortsKept s t ∧ t.cores = s.cores) ∧
      (status % 2 ^ 11 ≠ 0 → bit status 14 = false → c.tries < 3 →
        ∃ t, exec (.nvmeCompletion k id status n) s = .next t ∧ Counted s t (pgLOGPORT k) LOG_WRITE_ERRORS ∧
          t.out = s.out ++ [.nvmeWrite k (s.logLba k c.what c.num) c.data] ∧
          (t.logPort k).cmds = (s.logPort k).cmds.map fun x =>
            if x.id = id then { x with id := (s.logPort k).nextId, tries := x.tries + 1, issued := timeAt s n } else x) ∧
      (status % 2 ^ 11 ≠ 0 → bit status 14 = true ∨ 3 ≤ c.tries → id < 2 ^ 16 →
        ∃ t, exec (.nvmeCompletion k id status n) s = .next t ∧ t.on (pgLOGPORT k) LOG_STATUS_DRIVE_FAILED = true ∧
          (t.logPort k).cmds = [] ∧ (t.logPort k).waiting = [] ∧
          Reported s t (0x040 + k) 38 0 (status % 2 ^ 15 + id * 2 ^ 16) ∧ Beside s t [pgLOGPORT k]) ∧
      (timeAt s n < c.issued + 5000000000 → exec (.nvmeTimeout k id n) s = .next (s.advance n)) ∧
      (id < 2 ^ 16 → c.issued + 5000000000 ≤ timeAt s n → ∃ t, exec (.nvmeTimeout k id n) s = .next t ∧
        t.on (pgLOGPORT k) LOG_STATUS_DRIVE_FAILED = true ∧
          (t.logPort k).cmds = [] ∧ Reported s t (0x040 + k) 38 0 (2 ^ 15 + id * 2 ^ 16) ∧ Beside s t [pgLOGPORT k]))) ∧
  (∀ (s : State) (k m : Nat) (v : W32), k < 2 → s.accepts m (pgLOGPORT k) 0x06C = true →
    let r := s.get (pgLOGPORT k) LOG_RELEASE_LO + v.toNat * 2 ^ 32
    (r ≤ s.pair (pgLOGPORT k) LOG_WRITTEN_LO LOG_WRITTEN_HI →
      ∃ t, exec (.logReleaseWrite k m v) s = .next t ∧ t.logRelease k = r ∧ MemoryKept s t ∧ SortsKept s t ∧ t.cores = s.cores) ∧
    (s.pair (pgLOGPORT k) LOG_WRITTEN_LO LOG_WRITTEN_HI < r →
      ∃ t, exec (.logReleaseWrite k m v) s = .next t ∧ t.logRelease k = s.logRelease k ∧
        IgnoredBy s t (pgLOGPORT k) 0x06C 7)) ∧
  (∀ s : State, let j := s.colo.journal
    (∀ type time body rest, j.buffer = (type, time, body) :: rest → j.programming = true →
      ∃ t, exec .journalProgramDone s = .next t ∧ t.colo.journal.next = j.next + 1 ∧ t.colo.journal.buffer = rest ∧
        SMap.get [] t.colo.journal.recs (j.next % 32768) = journalRecord j.next time type j.dropped body ∧
        t.colo.journal.dropped = 0 ∧
        t.pair pgCOLOPHON COLOPHON_JOURNAL_SEQ_LO COLOPHON_JOURNAL_SEQ_HI = (j.next + 1) % 2 ^ 64 ∧ Beside s t [pgCOLOPHON]) ∧
    (j.buffer = [] ∨ j.programming = false → exec .journalProgramDone s = .next s) ∧
    (j.erasing = true → ∃ t, exec .journalEraseDone s = .next t ∧ t.colo.journal.erasing = false ∧
      (∀ k, k / 128 = j.next % 32768 / 128 → SMap.get [] t.colo.journal.recs k = []) ∧
      (∀ k, k / 128 ≠ j.next % 32768 / 128 → SMap.get [] t.colo.journal.recs k = SMap.get [] j.recs k) ∧
      t.colo.journal.buffer = j.buffer ∧ t.regs = s.regs ∧ Beside s t []) ∧
    (j.erasing = false → exec .journalEraseDone s = .next s))

/-- R840, R841, R854, R858 to R862, R866, R867: device Hold, its two time limits, the wake sources, and the clocks. -/
def Obligations.DeviceHoldAndWakes : Prop :=
  (∀ (s : State) (m n : Nat) (v : W32), s.accepts m pgPOWER 0x050 = true → m = 1 ∨ m = 13 → v.getLsbD 0 = false →
      v.getLsbD 1 = false → v.getLsbD 2 = false →
    (s.holdAllCause = none → s.on pgDRIVE DRIVE_CTRL_ENABLE = false → s.power.phase = 0 →
      ∃ t, exec (.holdAll m v n) s = .next t ∧ t.power = { s.power with phase := 1, since := timeAt s n } ∧
        t.get pgPOWER POWER_DEVICE_STATUS_STATE = 1 ∧ Pending t pgPOWER 3 ∧ Beside s t [pgPOWER]) ∧
    (∀ d c, s.holdAllCause = some (d, c) → d < 52 → c ≤ 6 → ∃ t, exec (.holdAll m v n) s = .next t ∧ t.power = s.power ∧
      t.get pgPOWER POWER_SLEEP_STATUS_OUTCOME (d + 1) = 2 ∧ t.get pgPOWER POWER_SLEEP_STATUS_REASON (d + 1) = c ∧
      Counted s t pgPOWER POWER_REFUSED ∧ Beside s t [pgPOWER]) ∧
    (m = 1 → s.power.phase = 1 → (∀ x ∈ s.colo.journal.buffer, x.1 ∈ [1, 2, 8]) → ∃ t, exec (.coloReady m v n) s = .next t ∧
      (t.power.phase = 2 ∨ t.power.phase = 3) ∧
      t.power.since = timeAt s n ∧ Beside s t [pgPOWER]) ∧
    (m = 1 → (∃ x ∈ s.colo.journal.buffer, x.1 ∉ [1, 2, 8]) → ∃ t, exec (.coloReady m v n) s = .next t ∧
      t.power = s.power ∧ Beside s t [pgPOWER]) ∧
    (m = 13 → ∃ t, exec (.coloReady m v n) s = .next t ∧ t.power = s.power ∧ IgnoredBy s t pgPOWER 0x050 2) ∧
    (∃ t, exec (.wakeAll m v n) s = .next t ∧ Beside s t [pgPOWER] ∧
      ∀ d, d < 52 → s.domState d = 2 ∨ s.domState d = 3 → Resting s d → (t.domain d).waking = some (8, 0))) ∧
  (∀ (s : State) (n : Nat),
    (s.power.phase = 1 → s.power.since + 10000000 ≤ timeAt s n → ∃ t, exec (.coloReadyTimeout n) s = .next t ∧
      t.power = { s.power with phase := 0 } ∧ t.get pgPOWER POWER_DEVICE_STATUS_STATE = 0 ∧
      (∀ d, d < 52 → t.get pgPOWER POWER_SLEEP_STATUS_OUTCOME (d + 1) = 3 ∧
        t.get pgPOWER POWER_SLEEP_STATUS_WAKE_SRC (d + 1) = 15) ∧
      Counted s t pgPOWER POWER_ABANDONED ∧ Pending t pgPOWER 2 ∧ Beside s t [pgPOWER]) ∧
    (s.power.phase ≠ 1 ∨ timeAt s n < s.power.since + 10000000 → exec (.coloReadyTimeout n) s = .next (s.advance n)) ∧
    (s.power.phase = 2 → s.power.since + 100000000 ≤ timeAt s n → s.on pgHOST HOST_LINK_LINK_UP = true →
      s.on pgHOST HOST_LINK_L1 = false → ∃ t, exec (.holdL1Timeout n) s = .next t ∧ t.power.phase = 0 ∧
        t.get pgPOWER POWER_SLEEP_STATUS_OUTCOME 33 = 2 ∧ t.get pgPOWER POWER_SLEEP_STATUS_REASON 33 = 8 ∧
        (∀ d, d < 52 → s.domState d = 2 ∨ s.domState d = 3 → Resting s d →
          (t.domain d).waking = some (16, 0)) ∧ Counted s t pgPOWER POWER_REFUSED ∧ Beside s t [pgPOWER]) ∧
    (s.power.phase ≠ 2 ∨ timeAt s n < s.power.since + 100000000 ∨ s.on pgHOST HOST_LINK_L1 = true →
      exec (.holdL1Timeout n) s = .next (s.advance n)) ∧
    (let wakes := fun (t : State) (src : Nat) => ∀ d, d < 52 →
        bit (s.pair pgPOWER POWER_WAKE_MAP_LO POWER_WAKE_MAP_HI (src + 1)) d = true →
        s.domState d = 2 ∨ s.domState d = 3 → Resting s d → (t.domain d).waking = some (src, 0)
     (∃ t, exec (.wakeNAssert n) s = .next t ∧ wakes t 0 ∧ Beside s t [pgPOWER]) ∧
     (s.on pgPOWER POWER_ALARM_CFG_ARMED = true → s.pair pgPOWER POWER_ALARM_LO POWER_ALARM_HI ≤ (s.advance n).dev →
       ∃ t, exec (.powerAlarmFire n) s = .next t ∧ t.on pgPOWER POWER_ALARM_CFG_ARMED = false ∧ Pending t pgPOWER 5 ∧
         wakes t 2 ∧ Beside s t [pgPOWER]) ∧
     (s.on pgPOWER POWER_ALARM_CFG_ARMED = false ∨ (s.advance n).dev < s.pair pgPOWER POWER_ALARM_LO POWER_ALARM_HI →
       exec (.powerAlarmFire n) s = .next (s.advance n)) ∧
     (∀ p, p < 16 → s.domState (16 + p) = 3 → Resting s (16 + p) → ∃ t, exec (.signalDetect p n) s = .next t ∧
       (t.domain (16 + p)).waking = some (4, 0) ∧ Beside s t [pgPOWER]) ∧
     (∀ p, p < 16 → s.domState (16 + p) ≠ 3 → exec (.signalDetect p n) s = .next (s.advance n)))) ∧
  (∀ (s : State) (k : Nat),
    let locked := fun (s : State) (j : Nat) => bit (s.get pgCLOCK CLOCK_PLL_STATUS_LOCKED) j = true
    (67 ≤ k → k ≤ 75 → locked s (k - 64) → ∃ t, exec (.pllLockLoss k) s = .next t ∧ ¬ locked t (k - 64) ∧ t.pllUp k = false ∧
      (∀ j, j ≠ k - 64 → (locked t j ↔ locked s j)) ∧ Counted s t pgCLOCK CLOCK_LOCK_LOSSES ∧ Pending t pgCLOCK 0 ∧
      Reported s t 0x005 37 0 k ∧ Beside s t [pgCLOCK, pgCOLOPHON]) ∧
    (k < 67 ∨ 75 < k ∨ ¬ locked s (k - 64) → exec (.pllLockLoss k) s = .next s) ∧
    (k < 3 → locked s k → ∃ t, exec (.refClockLoss k) s = .next t ∧ ¬ locked t k ∧ Pending t pgCLOCK 1 ∧
      (k = 0 → t.clock.refLost = true ∧ ∀ n, (t.advance n).mono = t.mono ∧ (t.advance n).dev = t.dev) ∧ Beside s t [pgCLOCK]) ∧
    (k < 3 → ∃ t, exec (.referenceClockReturn k) s = .next t ∧ locked t k ∧ (k = 0 → t.clock.refLost = false) ∧ (∀ j, j ≠ k →
      (locked t j ↔ locked s j)) ∧
      Beside s t [pgCLOCK]))

/-- R659 to R689, R690 to R693: a message is counted by its source, latched, retired for, logged, and starts the fatal
reaction by its severity; the log, the latch and the tallies; ALIVE toggles every HALF_AC Ac cycles while it may; the
heartbeat is kicked by the Colophon alone, and a missed one raises HEARTBEAT_MISSED and stops ALIVE. -/
def Obligations.FaultsAndLiveness : Prop :=
  (∀ (s : State) (n k : Nat) (m : FaultMsg), s.fault.loc = [] → s.fault.net[n]? = some m → m.badCodes = false →
    m.src < 2 ^ 10 → m.kind < 2 ^ 6 → m.detail < 2 ^ 32 → m.addr < 2 ^ 48 →
    let sev := s.severity m.src
    let seq := s.pair pgFAULT FAULT_LOG_HEAD_LO FAULT_LOG_HEAD_HI
    let latched := !decide (sev < s.get pgFAULT FAULT_CTRL_LATCH_MIN) && !s.on pgFAULT FAULT_STATUS_FIRST_VALID
    let counted := fun (t : State) =>
      t.pair pgFAULT FAULT_MESSAGES_LO FAULT_MESSAGES_HI = (s.pair pgFAULT FAULT_MESSAGES_LO FAULT_MESSAGES_HI + 1) % 2 ^ 64 ∧
      t.get pgFAULT FAULT_SRC_COUNT (m.src + 1) = min (s.get pgFAULT FAULT_SRC_COUNT (m.src + 1) + 1) 65535
    (∃ t, exec (.faultMessage n k) s = .next t ∧ counted t ∧ (sev ≠ 3 → MemoryKept s t ∧ SortsKept s t)) ∧
    (latched = true → ∃ t, exec (.faultMessage n k) s = .next t ∧ t.on pgFAULT FAULT_STATUS_FIRST_VALID = true ∧
      t.get pgFAULT FAULT_FIRST_SRC_SOURCE = m.src ∧ t.get pgFAULT FAULT_FIRST_SRC_SEVERITY = sev ∧
      t.get pgFAULT FAULT_FIRST_KIND = m.kind ∧ t.get pgFAULT FAULT_FIRST_DETAIL = m.detail ∧
      t.pair pgFAULT FAULT_FIRST_ADDR_LO FAULT_FIRST_ADDR_HI = m.addr) ∧
    (s.fault.writing = false → sev = 0 → ∃ t, exec (.faultMessage n k) s = .next t ∧
      t.fault.net = s.fault.net.eraseIdx n ∧ t.fault.writing = true ∧
      SMap.get [] t.fault.log (seq % 4096) = faultRecord seq (s.advance k).dev (s.get pgJOBS JOBS_IMP_COUNT) m
        (b2n latched * 4) s.fault.dropped (min (s.get pgFAULT FAULT_SRC_COUNT (m.src + 1) + 1) 65535) ∧
      t.pair pgFAULT FAULT_LOG_HEAD_LO FAULT_LOG_HEAD_HI = (seq + 1) % 2 ^ 64 ∧ Beside s t [pgFAULT, pgCOLOPHON]) ∧
    (s.fault.writing = true → sev = 0 → ∃ t, exec (.faultMessage n k) s = .next t ∧ t.fault.log = s.fault.log ∧
      t.on pgFAULT FAULT_STATUS_LOG_OVERFLOW = true ∧ t.fault.dropped = min (s.fault.dropped + 1) 65535 ∧
      Beside s t [pgFAULT]) ∧
    (sev = 1 → 0 < s.get pgFAULT FAULT_SRC_COUNT (m.src + 1) → ∃ t, exec (.faultMessage n k) s = .next t ∧
      t.fault.log = s.fault.log ∧ t.fault.writing = s.fault.writing ∧ Beside s t [pgFAULT]) ∧
    (sev = 3 → s.on pgFAULT FAULT_STATUS_FATAL = false → ∃ t, exec (.faultMessage n k) s = .next t ∧
      t.on pgFAULT FAULT_STATUS_FATAL = true ∧ t.get pgFAULT FAULT_FATAL_SRC = m.src ∧ t.get pgFAULT FAULT_FATAL_KIND = m.kind ∧
      bit (t.get pgDRIVE DRIVE_FADE_STATUS_CAUSES) 0 = true ∧ t.get pgDRIVE DRIVE_FADE_STATUS_STATE ≠ 0 ∧
      t.on pgJOBS JOBS_STATUS_STOPPED = true ∧ t.jobs.calls = [] ∧ t.on pgFAULT FAULT_STATUS_ALIVE_RUNNING = false ∧
      t.log.open_ = false ∧ SortsKept s t) ∧
    (sev = 2 → s.on pgFAULT FAULT_STATUS_FATAL = false → 0x100 ≤ m.src → m.kind = 1 →
      let r := m.addr / 2 ^ 16 % 16
      let p := m.addr / 2 ^ 11 % 32
      let q := m.addr / 2 ^ 5 % 64
      p < 17 → q < 32 → s.get pgFAULT FAULT_RETIRE_CFG_COL_LIMIT = 1 →
        SMap.get Tally.zero s.fault.colTally (33 * (17 * r + p) + q) = Tally.zero →
      s.get (pgGALLEY r) (GALLEY_COL_RETIRED_COLUMN.at p) = 63 →
      ∃ t, exec (.faultMessage n k) s = .next t ∧ t.get (pgGALLEY r) (GALLEY_COL_RETIRED_COLUMN.at p) = q ∧
        t.on (pgGALLEY r) (GALLEY_COL_RETIRED_PENDING.at p) = true ∧ ⟨0x008, 41, r * 2 ^ 16 + p * 2 ^ 11 + q * 2 ^ 5, 1⟩ ∈ t.fault.loc ∧
        t.migrating = true ∧ MemoryKept s t ∧ SortsKept s t)) ∧
  (∀ (s : State) (n k : Nat), (s.fault.loc ≠ [] ∧ s.fault.writing = false) ∨ s.fault.net.length ≤ n →
    exec (.faultMessage n k) s = .next (s.advance k)) ∧
  (∀ (s : State) (k : Nat),
    (s.fault.writing = true ∨ s.fault.loc = [] → exec (.localFaultMessage k) s = .next (s.advance k)) ∧
    (∀ m rest, s.fault.writing = false → s.fault.loc = m :: rest → m.badCodes = false → s.severity m.src = 0 → m.src < 2 ^ 10 →
      ∃ t, exec (.localFaultMessage k) s = .next t ∧ t.fault.loc = rest ∧ t.fault.writing = true ∧
        t.get pgFAULT FAULT_SRC_COUNT (m.src + 1) = min (s.get pgFAULT FAULT_SRC_COUNT (m.src + 1) + 1) 65535 ∧
        Beside s t [pgFAULT, pgCOLOPHON]) ∧
    exec .faultLogWriteDone s = .next { s with fault := { s.fault with writing := false } }) ∧
  (∀ (s : State) (hits : List (Nat × W32 × W32)), ∃ t, exec (.faultSevScrub hits) s = .next t ∧ Beside s t [pgFAULT] ∧
    ∀ i, i < 64 →
      let a := (hits.foldl State.strikeSev s).reg pgFAULT (0x100 + 4 * i)
      let b := (hits.foldl State.strikeSev s).reg pgFAULT (0x100 + 4 * i) 1
      t.reg pgFAULT (0x100 + 4 * i) = t.reg pgFAULT (0x100 + 4 * i) 1 ∧
      (∀ k, k < 16 → bits (t.reg pgFAULT (0x100 + 4 * i)).toNat (2 * k + 1) (2 * k) =
        max (bits a.toNat (2 * k + 1) (2 * k)) (bits b.toNat (2 * k + 1) (2 * k))) ∧
      (a ≠ b → ⟨0x007, 21, 0, i⟩ ∈ t.fault.loc)) ∧
  (∀ (s : State) (m : Nat) (v : W32), s.accepts m pgFAULT 0x040 = true → v.getLsbD 1 = true →
    (s.on pgFAULT FAULT_STATUS_FATAL = true → ∃ t, exec (.firstClear m v) s = .next t ∧ IgnoredBy s t pgFAULT 0x040 10) ∧
    (s.on pgFAULT FAULT_STATUS_FATAL = false → ∃ t, exec (.firstClear m v) s = .next t ∧
      t.on pgFAULT FAULT_STATUS_FIRST_VALID = false ∧ t.on pgFAULT FAULT_STATUS_OVERFLOW = false ∧
      t.on pgFAULT FAULT_STATUS_LOG_OVERFLOW = false ∧
      (∀ off ∈ [0x048, 0x04C, 0x050, 0x054, 0x058, 0x05C, 0x060], t.reg pgFAULT off = 0) ∧ t.fault = s.fault ∧
      Beside s t [pgFAULT])) ∧
  (∀ (s : State) (m : Nat) (v : W32), s.accepts m pgFAULT 0x078 = true →
    let r := SMap.get [] s.fault.log (v.toNat % 4096)
    ∃ t, exec (.faultLogCapture m v) s = .next t ∧ t.get pgFAULT FAULT_LOG_INDEX_POSITION = v.toNat % 4096 ∧
      (∀ i, i < 16 → t.get pgFAULT (FAULT_LOG_DATA.at i) = fieldLE r (4 * i) 4) ∧ t.fault = s.fault ∧ Beside s t [pgFAULT]) ∧
  (∀ (s : State) (k n : Nat),
    let expired := fun (x : Tally) =>
      if x.first + s.get pgFAULT FAULT_RETIRE_CFG_WINDOW_H * 3600000000000 ≤ timeAt s n then Tally.zero else x
    (∃ t, exec (.tallyWindowExpiry 1 k n) s = .next t ∧
      SMap.get Tally.zero t.fault.colTally k = expired (SMap.get Tally.zero s.fault.colTally k) ∧ t.regs = s.regs ∧ Beside s t []) ∧
    (∃ t, exec (.tallyWindowExpiry 2 k n) s = .next t ∧
      SMap.get Tally.zero t.fault.galTally k = expired (SMap.get Tally.zero s.fault.galTally k) ∧ t.regs = s.regs ∧ Beside s t []) ∧
    (∃ t, exec (.tallyWindowExpiry 3 k n) s = .next t ∧
      SMap.get Tally.zero t.fault.coreTally k = expired (SMap.get Tally.zero s.fault.coreTally k) ∧ t.regs = s.regs ∧ Beside s t [])) ∧
  (∀ (s : State) (n : Nat),
    let may : Prop := s.on pgFAULT FAULT_ALIVE_ENABLE = true ∧ s.fault.hbCurrent = true ∧
      s.on pgFAULT FAULT_STATUS_FATAL = false ∧ s.on pgFAULT FAULT_STATUS_HB_MISSED = false
    let due : Prop := s.fault.aliveAt + 40 * s.fault.aliveHalf ≤ timeAt s n
    (may → due → ∃ t, exec (.aliveToggle n) s = .next t ∧
      t.get pgFAULT FAULT_STATUS_ALIVE_LEVEL = 1 - s.get pgFAULT FAULT_STATUS_ALIVE_LEVEL ∧
      t.on pgFAULT FAULT_STATUS_ALIVE_RUNNING = true ∧ 
      t.fault = { s.fault with aliveAt := timeAt s n, aliveHalf := s.get pgFAULT FAULT_ALIVE_HALF_AC } ∧
      Beside s t [pgFAULT]) ∧
    (¬ (may ∧ due) → exec (.aliveToggle n) s = .next (s.advance n)) ∧
    (let late : Prop := s.fault.hbCurrent = true ∧
      s.fault.lastKick + s.get pgFAULT FAULT_HB_CFG_TIMEOUT_MS * 1000000 ≤ timeAt s n
     (late → ∃ t, exec (.heartbeatDeadline n) s = .next t ∧ t.on pgFAULT FAULT_STATUS_HB_MISSED = true ∧
       t.fault.hbCurrent = false ∧ t.on pgFAULT FAULT_STATUS_ALIVE_RUNNING = false ∧
       t.fault.loc = s.fault.loc ++ [⟨0x002, 36, 0, 0⟩] ∧ Beside s t [pgFAULT]) ∧
     (¬ late → exec (.heartbeatDeadline n) s = .next (s.advance n)))) ∧
  (∀ (s : State) (m n : Nat) (v : W32),
    (s.accepts m pgFAULT 0x0C4 = true →
      let half := v.toNat % 2 ^ 17
      (1250 ≤ half → half ≤ 125000 → s.quoined pgFAULT = false → ∃ t, exec (.aliveEnableWrite m v n) s = .next t ∧
        t.on pgFAULT FAULT_ALIVE_ENABLE = v.getLsbD 17 ∧ t.get pgFAULT FAULT_ALIVE_HALF_AC = half ∧ Beside s t [pgFAULT]) ∧
      (half < 1250 ∨ 125000 < half → ∃ t, exec (.aliveEnableWrite m v n) s = .next t ∧ t.fault = s.fault ∧
        IgnoredBy s t pgFAULT 0x0C4 7)) ∧
    (s.accepts m pgFAULT 0x0C8 = true → v.getLsbD 0 = true →
      let late : Prop := s.fault.hbCurrent = true ∧
        (s.fault.lastKick + s.get pgFAULT FAULT_HB_CFG_TIMEOUT_MS * 1000000) / 40 < timeAt s n / 40
      (m = 1 → ¬ late → s.coloHalted = false → s.on pgFAULT FAULT_STATUS_HB_MISSED = false →
        ∃ t, exec (.heartbeatKick m v n) s = .next t ∧ t.fault.hbCurrent = true ∧ t.fault.lastKick = timeAt s n ∧
          Beside s t [pgFAULT]) ∧
      (m = 1 → ¬ late → s.coloHalted = true → ∃ t, exec (.heartbeatKick m v n) s = .next t ∧ t.fault = s.fault ∧
        Beside s t [pgFAULT]) ∧
      (m = 1 → late → ∃ t, exec (.heartbeatKick m v n) s = .next t ∧ t.on pgFAULT FAULT_STATUS_HB_MISSED = true ∧
        t.fault.hbCurrent = false ∧ ⟨0x002, 36, 0, 0⟩ ∈ t.fault.loc ∧ Beside s t [pgFAULT]) ∧
      (m ≠ 1 → ¬ late → ∃ t, exec (.heartbeatKick m v n) s = .next t ∧ t.fault = s.fault ∧ IgnoredBy s t pgFAULT 0x0C8 2)) ∧
    (s.accepts m pgFAULT 0x0CC = true →
      let ms := v.toNat % 2 ^ 10
      (1 ≤ ms → ms ≤ 1000 → s.quoined pgFAULT = false → ∃ t, exec (.hbTimeoutWrite m v n) s = .next t ∧
        t.get pgFAULT FAULT_HB_CFG_TIMEOUT_MS = ms ∧
        (s.fault.hbCurrent = true → s.fault.lastKick + ms * 1000000 ≤ timeAt s n →
          t.on pgFAULT FAULT_STATUS_HB_MISSED = true) ∧ Beside s t [pgFAULT]) ∧
      (ms = 0 ∨ 1000 < ms → ∃ t, exec (.hbTimeoutWrite m v n) s = .next t ∧ t.fault = s.fault ∧
        IgnoredBy s t pgFAULT 0x0CC 7)))

/-! ## The rest of what the families do -/

/-- A step runs the command at the front of the queue with the queue's rest, whatever that command answers; on an empty
queue the block idles, where firmware drains its exception queue (the model's own queue, notes/assumptions/1.md). -/
def Obligations.StepRunsFrontCommand : Prop :=
  (∀ (c : Instr) (cs : List Instr) (s : State), step { s with pending := c :: cs } = exec c { s with pending := cs }) ∧
  (∀ s : State, s.pending = [] → s.firmware = false ∨ s.feed.excq = [] → step s = .next s) ∧
  ∀ s : State, s.pending = [] → s.firmware = true → s.feed.excq ≠ [] → ∃ t, step s = .next t ∧
    t.feed = { s.feed with excq := [] } ∧ t.get pgSHEET SHEET_EXCQ_STATUS_DEPTH = 0 ∧ Beside s t [pgSHEET]

/-- What reset leaves. The reset values of R876 to R878, R623, R657 and R590: the headers, the sources, the links. The empty
queue, the zero bytes of memory and the cores' registers are the model's choice (notes/assumptions/1.md, 5.md, 16.md). -/
def Obligations.ResetState : Prop :=
  let s := State.reset
  (∀ p b i, pageBlock p = some (b, i) →
    s.get p PAGE_ID_VERSION = 0xB0 ∧ s.on p PAGE_CTRL_ENABLE = true ∧ s.quoined p = false ∧
    s.on p PAGE_STATUS_IN_SERVICE = false ∧ s.on p PAGE_STATUS_RESETTING = false ∧ s.get p EVT_PEND = 0 ∧
    s.get p EVT_ENABLE = 0 ∧ s.get p FAULT_SUMMARY_COUNT = 0 ∧ s.get p IGNORED_CAUSE_COUNT = 0) ∧
  (∀ k, k < 512 → s.get pgEVTCFG (EVT_SRC_CFG_COUNT.at k) = 1 ∧ s.get pgEVTCFG (EVT_SRC_CFG_PRIO.at k) = 0 ∧
    s.get pgEVTCFG (EVT_SRC_CFG_CLASS.at k) = 0 ∧ s.get pgEVTCNT (EVT_SRC_CNT.at k) = 0) ∧
  (∀ k, s.noc.credit k = 24 ∧ s.noc.buffer k = [] ∧ s.noc.creditSum k = 24) ∧
  (s.pending = [] ∧ s.out = [] ∧ (∀ a, s.byte a = 0#8) ∧ s.memWf = true) ∧
  ∀ n, (s.core n).pc = alignPc (s.core n).pc

/-- R29: a saturating counter stops at its maximum and ignores further increments; no other block register of its page
changes. -/
def Obligations.SaturatingCounters : Prop :=
  ∀ (s : State) (p n i : Nat) (f : Fld), 0x040 ≤ f.off → f.off < 0x1000 → f.lo ≤ f.hi → f.hi < 32 → p < 0x4000 →
    (s.count p f n i).get p f i = min (s.get p f i + n) (2 ^ f.width - 1) ∧
    (s.get p f i = 2 ^ f.width - 1 → (s.count p f n i).reg p f.off i = s.reg p f.off i) ∧
    ∀ o j, 0x040 ≤ o → o < 0x1000 → (o, j) ≠ (f.off, i) → (s.count p f n i).reg p o j = s.reg p o j

/-- Memory keeps its canonical form whatever command runs: addresses rising, no byte listed that an unlisted address reads
as. -/
def Obligations.MemoryStaysCanonical : Prop :=
  ∀ s t : State, s.memWf = true → Steps s t → t.memWf = true

/-- R726: no step adds or drops a waiting command beside the front one, makes monotone time run back, takes back what the
outside has seen, lowers a rollback counter, or returns a fuse bit to 0. -/
def Obligations.NothingIsTakenBack : Prop := ∀ s t : State, Steps s t → Claims.Kept s t

/-- R419: bits [1:0] of the pc of every core are 0, and every step keeps them so. -/
def Obligations.PcStaysAligned : Prop :=
  ∀ s t : State, (∀ n, (s.core n).pc = alignPc (s.core n).pc) → Steps s t → ∀ n, (t.core n).pc = alignPc (t.core n).pc

/-- R348, R419, R420, R423: g0 reads zero and takes no write; every other register reads what was last written to it, g16 to
g31 from the bank that FAST selects, and a write changes no other; lane k of vn is f(8n + k); a register written has sound
parity. -/
def Obligations.QuireRegisterFile : Prop :=
  ∀ (c : CoreSt) (r q : Nat) (v : W32),
    c.getG 0 = 0 ∧ c.setG 0 v = c ∧
    (r ≠ 0 → (c.setG r v).getG r = v) ∧ (r ≠ q → (c.setG r v).getG q = c.getG q) ∧
    (c.setG r v).f = c.f ∧ (c.setG r v).seg = c.seg ∧ (c.setG r v).qstatus = c.qstatus ∧
    (r ≠ 0 → (if 16 ≤ r ∧ c.fast = true then 80 + r else r) ∉ (c.setG r v).parBad) ∧
    (16 ≤ r → c.fast = true → (c.setG r v).g = c.g) ∧ (r < 16 ∨ c.fast = false → (c.setG r v).shadow = c.shadow) ∧
    (c.setF r v).getF r = v ∧ (r ≠ q → (c.setF r v).getF q = c.getF q) ∧ (c.setF r v).g = c.g ∧
    (∀ (n k : Nat) (ls : List W32), k < 8 → (c.setV n ls).getF (8 * n + k) = ls.getD k 0) ∧
    (∀ (n : Nat) (ls : List W32), ¬ (8 * n ≤ q ∧ q < 8 * n + 8) → (c.setV n ls).getF q = c.getF q)

/-- R427, R430, R432, R465: the data of a load arrives: its destination is written and the next instruction follows; a load
that fails raises its exception and leaves the destination as it was. -/
def Obligations.QuireLoadsComplete : Prop :=
  ∀ (k : Nat) (s s1 : State) (c : CoreSt) (l : Load) (r : Except (Nat × Nat × Nat) (List Byte)),
    s.complexCores (k % 2) ≠ [] → (∀ n ∈ s.complexCores (k % 2), s.core n = c) → c.load = some l →
    s.loadAll (k % 2) l.size 0 l.addrs = (r, s1) →
    let j := k % 2
    let done := { c with load := none, instret := c.instret + 1, pc := c.pc + 4 }
    let ends := fun (c' : CoreSt) => Host.Outcome.next (φ := Fault) (ρ := Refusal)
      ((s.complexCores j).foldl (fun t n => t.setCore n c') s1)
    (∀ bs, r = .ok bs →
      (∀ q n, l.dst = .g q n false → exec (.quireLoadData k) s = ends (done.setG q (BitVec.ofNat 32 (ofLE bs)))) ∧
      (∀ q, l.dst = .g q 1 true →
        exec (.quireLoadData k) s = ends (done.setG q ((BitVec.ofNat 8 (ofLE bs)).signExtend 32))) ∧
      (∀ q, l.dst = .g q 2 true →
        exec (.quireLoadData k) s = ends (done.setG q ((BitVec.ofNat 16 (ofLE bs)).signExtend 32))) ∧
      (∀ q, l.dst = .f q → exec (.quireLoadData k) s = ends (done.setF q (BitVec.ofNat 32 (ofLE bs)))) ∧
      (∀ q, l.dst = .v q → exec (.quireLoadData k) s = ends (done.setV q
        ((List.range 8).map fun i => BitVec.ofNat 32 (fieldLE bs (4 * i) 4)))) ∧
      (∀ q pc off, l.dst = .seg q pc off →
        let g : Seg := { base := fieldLE bs 0 6, limit := fieldLE bs 8 4, rights := fieldLE bs 12 1 % 8 }
        let d := CoreSt.fresh { done with seg := SMap.set Seg.none c.seg q g } [112 + q]
        (g.base + g.limit ≤ 2 ^ 48 → q ≠ 8 → exec (.quireLoadData k) s = ends d) ∧
        (g.base + g.limit ≤ 2 ^ 48 → q = 8 → bit g.rights 2 = true → pc % 4 = 0 →
          exec (.quireLoadData k) s = ends { d with pc := BitVec.ofNat 32 pc }) ∧
        (g.base + g.limit ≤ 2 ^ 48 → q = 8 → bit g.rights 2 = true → pc < 2 ^ 32 → pc % 4 ≠ 0 → c.exl = false → c.fast = false →
          let t : W32 := BitVec.ofNat 32 pc
          exec (.quireLoadData k) s = ends (entered (s.periodFc j) { d with pc := alignPc t }
            (if g.limit < pc + 4 then 2 else 4) t t)) ∧
        (2 ^ 48 < g.base + g.limit ∨ (q = 8 ∧ bit g.rights 2 = false) → c.exl = false → c.fast = false →
          exec (.quireLoadData k) s = ends (entered (s.periodFc j) { c with load := none } 8 c.pc (BitVec.ofNat 32 off))))) ∧
    (∀ lane a cause, r = .error (lane, a, cause) → c.exl = false → c.fast = false →
      exec (.quireLoadData k) s = ends (entered (s.periodFc j) { c with load := none }
        (cause + match l.dst with
          | .v _ => lane * 2 ^ 8 + 2 ^ 11
          | _ => 0) c.pc (BitVec.ofNat 32 a)))

/-- R431, R433, R465: the oldest store of the write buffers reaches memory: exactly its bytes change, and the entry leaves the
buffer. -/
def Obligations.StoreDrainWritesMemory : Prop :=
  ∀ (k : Nat) (s : State) (c : CoreSt) (a : Nat) (bs : List Byte) (rest : List (List (Nat × List Byte))),
    s.drainCores (k % 2) ≠ [] → (∀ n ∈ s.drainCores (k % 2), s.core n = c) → c.wbuf = [(a, bs)] :: rest →
    s.memOk a bs.length = true → (∀ w ∈ wordsMerged a bs.length, s.isBad w = false) → s.forme.io = none →
    (∀ d, d < 52 → s.asleep d = false) →
    ∃ t, exec (.storeDrain k) s = .next t ∧
      (∀ i, i < bs.length → t.byte (a + i) = bs.getD i 0) ∧
      (∀ x, x < a ∨ a + bs.length ≤ x → t.byte x = s.byte x) ∧
      (∀ n ∈ s.drainCores (k % 2), t.core n = { c with wbuf := rest }) ∧
      (∀ n, n ∉ s.drainCores (k % 2) → t.core n = s.core n) ∧
      t.out = s.out ∧ t.pending = s.pending ∧ t.seq = s.seq ∧ t.forme = s.forme ∧ t.noc = s.noc ∧ t.colo = s.colo ∧
      t.device = s.device ∧ t.drive = s.drive ∧ t.impose = s.impose ∧ t.feed = s.feed

/-- R368 to R370, R373, R384, R387 to R391, R793: at a routine boundary the word at the head of the queue is dispatched, or refused with its
cause, or nothing starts. A customer routine whose microword cannot run is abandoned: an uncorrectable word with cause 6, a reserved code
with cause 3; one whose word is an unconditional DISPATCH without ports, NEWS, Platen or galley action ends with it, in one Fc cycle, and
every enabled sort has taken its carry from TT_C. -/
def Obligations.RoutinesDispatchedAndRun : Prop :=
  (∀ (s : State), s.seq.cur = none → s.pllUp 68 = true → PortsQuiet s → s.forme.eClear = false → s.cstore.complete = false →
     s.cstore.ready = [] → s.cstore.entries = [] → s.seq.flush = false → s.seq.stop = false →
     (∀ i is, s.seq.queue = i :: is → s.refusal i = none → s.on pgCOMPOSITOR COMP_SEQ_CTRL_ENABLE = true →
       s.seq.discard = false → s.seq.stopped = false →
       ∃ t c, exec .routineBoundary s = .next t ∧ t.seq.cur = some c ∧ t.seq.queue = is ∧ c.instr = i ∧ c.cycles = 0 ∧
         c.wait = none ∧ c.stack = [] ∧ c.budget = s.get pgCOMPOSITOR COMP_ROUTINE_BUDGET ∧
         (768 ≤ fmOp i → c.micro = true ∧ c.uaddr = s.get pgCSTORE CSTORE_DISPATCH_ENTRY_UADDR (fmOp i + 1)) ∧
         c.pa = bits (fmFaAddr i) 13 5 ∧ c.pb = bits (fmFbAddr i) 13 5 ∧ c.pw = bits (fmFdAddr i) 13 5 ∧
         SortsKept s t ∧ MemoryKept s t ∧ RegsKept s t [pgCSTORE]) ∧
     (∀ i k, s.seq.queue = [i] → s.refusal i = some k → s.on pgCOMPOSITOR COMP_SEQ_CTRL_ENABLE = true →
       s.seq.discard = false → s.seq.stopped = false → s.comp.phase = 1 →
       ∃ t, exec .routineBoundary s = .next t ∧ t.seq.cur = none ∧ t.seq.queue = [] ∧
         ⟨0x010, 2, 0, k * 2 ^ 24 + fmOp i⟩ ∈ t.fault.net ∧
         t.get pgCOMPOSITOR COMP_REFUSED = min (s.get pgCOMPOSITOR COMP_REFUSED + 1) (2 ^ COMP_REFUSED.width - 1) ∧
         bit (t.get pgCOMPOSITOR COMP_IMP_STATUS_VOID) 1 = true ∧ SortsKept s t ∧ MemoryKept s t) ∧
     (s.seq.discard = true ∨ s.on pgCOMPOSITOR COMP_SEQ_CTRL_ENABLE = false →
       ∃ t, exec .routineBoundary s = .next t ∧ t.seq = { s.seq with news := [], ridle := 0, widle := 0 } ∧ SortsKept s t ∧
         MemoryKept s t)) ∧
  (∀ (n : Nat) (s : State) (c : Routine), s.seq.cur = some c → c.micro = true → 0x8000 ≤ c.uaddr → c.wait = none →
     c.cycles + 1 < c.budget → s.seq.sticksOpen = false → SequencerSound s →
     let w := SMap.get 0 s.cstore.words c.uaddr
     let abandoned := fun (t : State) (cause : Nat) => t.seq.cur = none ∧ t.seq.discard = true ∧ t.seq.queue = [] ∧
       t.get pgCOMPOSITOR COMP_ABANDON_CAUSE = cause ∧ t.get pgCOMPOSITOR COMP_ABANDON_OPCODE = fmOp c.instr ∧
       t.get pgCOMPOSITOR COMP_ABANDON_UADDR = c.uaddr % 2 ^ 16 ∧ MemoryKept s t
     (c.uaddr ∈ s.cstore.bad → ∃ t, exec (.customerRoutine n) s = .next t ∧ abandoned t 6) ∧
     (c.uaddr ∉ s.cstore.bad → mwReserved w = true → ∃ t, exec (.customerRoutine n) s = .next t ∧ abandoned t 3) ∧
     (c.uaddr ∉ s.cstore.bad → mwReserved w = false → bits w 161 159 = 5 → bits w 142 137 = 0 →
       bits w 103 102 = 0 → bits w 92 91 = 0 → bits w 81 80 = 0 → bits w 11 9 = 0 → bits w 8 7 = 0 → bits w 26 23 ≠ 1 →
       bits w 22 19 ≠ 1 → bits w 18 17 = 0 → RowMapInjective s →
       ∃ t, exec (.customerRoutine n) s = .next t ∧ t.seq.cur = none ∧ t.seq.fc = s.seq.fc + 1 ∧
         t.seq.queue = s.seq.queue ∧ t.seq.discard = s.seq.discard ∧ MemoryKept s t ∧
         ∀ q ∈ s.logical, let m := s.sort (s.place q.1 q.2)
           m.enabled (fmCtx c.instr) = true →
           let a := if bits w 30 27 = 0 then bit m.a s.seq.aptr else m.flag (bits w 30 27 - 1)
           let b := if bits w 26 23 = 0 then bit m.b s.seq.bptr
             else if bits w 26 23 = 2 then
               (if bits w 4 3 = 0 then bit w 2 else if c.bi < 32 then bit (fmScalar c.instr) c.bi else bit (fmScalar c.instr) 31)
             else m.flag (bits w 26 23 - 3)
           (t.sort (s.place q.1 q.2)).flag 0 = bit (bits w 38 31) (4 * b2n a + 2 * b2n b + b2n (m.flag 0))))

/-- R794, R800, R808, R37 to R40, R170, R354, R795 to R800: START and STOP of JOBS_SP_CTRL; nothing is due, and time alone
moves; one block is due under TRIGGER 2: it closes, source 448 is raised, a compute stage that has not ended is an overrun and
is cut off, and the next compute stage begins; after STOP the program ends. -/
def Obligations.StandingProgramsAndTicks : Prop :=
  (∀ (s : State) (m n : Nat) (v : W32), s.accepts m pgJOBS 0x048 = true → v.getLsbD 0 = true → v.getLsbD 1 = false →
    let m0 := (s.advance n).dev / s.period + 2
    let ready : Prop := s.on pgJOBS JOBS_SP_STATUS_LOADED = true ∧ s.running = false ∧ s.on pgPTP PTP_STATUS_TIME_SET = true ∧
      (s.get pgJOBS JOBS_SP_STATUS_TRIGGER = 1 → (s.slot (s.get pgJOBS JOBS_SP_REF_SLOT_SLOT)).valid = true)
    (ready → ∃ t, exec (.spStart m v n) s = .next t ∧ t.running = true ∧
        t.pair pgJOBS JOBS_SP_BLOCK0_LO JOBS_SP_BLOCK0_HI = m0 % 2 ^ 64 ∧ t.get pgJOBS JOBS_IMP_COUNT = 0 ∧
        t.sp.next = m0 ∧ t.sp.stage = false ∧ t.sp.stopping = false ∧ t.impose.openBlock = some m0 ∧
        (∀ k ∈ s.validSlots, (t.dynOf k).nx = max (s.dynOf k).nx (m0 * (s.slot k).block)) ∧ Beside s t [pgJOBS]) ∧
    (¬ ready → ∃ t, exec (.spStart m v n) s = .next t ∧ t.sp = s.sp ∧ IgnoredBy s t pgJOBS 0x048 10)) ∧
  (∀ (s : State) (m : Nat) (v : W32), s.accepts m pgJOBS 0x048 = true → v.getLsbD 0 = false → v.getLsbD 1 = true →
    let forbidden : Prop := s.on pgDRIVE DRIVE_CTRL_ENABLE = true ∧ s.get pgDRIVE DRIVE_FADE_STATUS_STATE ≠ 2
    (¬ forbidden → ∃ t, exec (.spStop m v) s = .next t ∧
        t.sp = (if s.running then { s.sp with stopping := true } else s.sp) ∧ Beside s t [pgJOBS] ∧
        (∀ o i, 0x040 ≤ o → o < 0x1000 → t.reg pgJOBS o i = s.reg pgJOBS o i)) ∧
    (forbidden → ∃ t, exec (.spStop m v) s = .next t ∧ t.sp = s.sp ∧ IgnoredBy s t pgJOBS 0x048 10)) ∧
  (∀ (s : State) (n : Nat),
     s.forme.io = none → s.feed.passed = [] →
     let due := ((s.advance n).dev - s.get pgJOBS JOBS_SP_LAG_NS_LAG) / s.period
     let m := s.sp.next
     let m0 := s.pair pgJOBS JOBS_SP_BLOCK0_LO JOBS_SP_BLOCK0_HI
     (s.running = false ∨ (s.get pgJOBS JOBS_SP_STATUS_TRIGGER = 2 ∧ due ≤ m) →
       exec (.impressionTick n) s = .next (s.advance n)) ∧
     (s.running = true → s.get pgJOBS JOBS_SP_STATUS_TRIGGER = 2 → due = m + 1 → s.on pgFAULT FAULT_STATUS_FATAL = false →
       (s.sp.stopping = false → s.sp.stage = false → s.migrating = false → s.comp.phase ≠ 3 →
         ∃ t, exec (.impressionTick n) s = .next t ∧ t.sp.next = m + 1 ∧ t.sp.imp = m - m0 ∧ t.sp.stage = true ∧
           t.get pgJOBS JOBS_IMP_COUNT = (m - m0) % 2 ^ 32 ∧ t.comp.block = m ∧ t.comp.ended = false ∧
           (t.comp.phase = 1 ∨ t.comp.phase = 4) ∧ t.impose.openBlock = some (m + 1) ∧ 448 ∈ t.evt.incoming ∧
           SortsKept s t) ∧
       (s.sp.stopping = false → s.sp.stage = true → s.comp.ended = false → PortsQuiet s →
         ∃ t, exec (.impressionTick n) s = .next t ∧ t.sp.next = m + 1 ∧ t.sp.imp = m - m0 ∧
           ⟨0x017, 11, 0, s.sp.imp % 2 ^ 32⟩ ∈ t.fault.net ∧ 448 ∈ t.evt.incoming ∧ SortsKept s t) ∧
       (s.sp.stopping = true → s.sp.stage = false →
         ∃ t, exec (.impressionTick n) s = .next t ∧ t.running = false ∧ t.sp.stage = false ∧ t.sp.stopping = false ∧
           t.impose.openBlock = none ∧ 448 ∈ t.evt.incoming ∧ t.cores = s.cores ∧ SortsKept s t)))

/-- R778, R779, R784, R789: a ticket's completion: the record of 32 bytes, DONE and NOTIFY, and the completion of a call by the
standing program, held while an execution is in progress. -/
def Obligations.TicketCompletion : Prop :=
  (∀ (s : State) (n : Nat), n < 16 →
    ((s.ring n).tickets = [] → exec (.ticketComplete n) s = .next s) ∧
    ∀ x xs, (s.ring n).tickets = x :: xs →
      (x.fin = none → exec (.ticketComplete n) s = .next s) ∧
      ∀ b e, x.data = some b → x.fin = some e →
        let r := s.ring n
        let a := (s.cqBase n).2 + 32 * (r.done % s.ringDepth n)
        let record := bytesLE 4 (tkId b) ++ bytesLE 1 e.status ++ bytesLE 1 e.cause ++ bytesLE 1 (r.done / s.ringDepth n % 2) ++
          bytesLE 1 e.kind ++ bytesLE 4 x.k ++ bytesLE 4 e.result ++ bytesLE 4 e.result2 ++ bytesLE 4 e.cycles ++
          bytesLE 8 s.dev
        let after := fun (t : State) => t.ring n = { r with done := (r.done + 1) % 2 ^ 32, tickets := xs } ∧
          (∀ n', n' ≠ n → t.ring n' = s.ring n') ∧ (tkNotify b = true → 48 + n ∈ t.evt.incoming) ∧
          (e.status = 3 → Counted s t pgJOBS JOBS_TICKETS_IGNORED) ∧
          (e.status = 2 → Counted s t pgJOBS JOBS_TICKETS_DISCARDED) ∧ SortsKept s t ∧ t.cores = s.cores
        ((s.cqBase n).1 = false → a + 32 ≤ 0x04000000 → Writable s 14 a 32 →
          ∃ t, exec (.ticketComplete n) s = .next t ∧ Stored s t a record ∧ after t ∧ t.out = s.out) ∧
        ((s.cqBase n).1 = true →
          ∃ t, exec (.ticketComplete n) s = .next t ∧ t.out = s.out ++ [.hostWrite (a % 2 ^ 63) record] ∧
            MemoryKept s t ∧ after t)) ∧
  (∀ (s : State) (m : Nat) (v : W32), s.accepts m pgJOBS 0x084 = true →
    let result := s.get pgJOBS JOBS_CALL_RESULT
    let fail := v.getLsbD 0
    (∀ n k cs, s.jobs.calls = (n, k) :: cs → s.jobs.held.length < s.jobs.calls.length → s.inExecution = false →
      ∃ t, exec (.callDoneWrite m v) s = .next t ∧ t.jobs.calls = cs ∧
        EndedAs s t n k (if fail then ⟨1, 10, 4, result, 0, 0⟩ else ⟨0, 0, 4, result, 0, 0⟩) ∧ Beside s t [pgJOBS]) ∧
    (s.jobs.held.length < s.jobs.calls.length → s.inExecution = true →
      ∃ t, exec (.callDoneWrite m v) s = .next t ∧ t.jobs = { s.jobs with held := s.jobs.held ++ [(result, fail)] } ∧
        Beside s t [pgJOBS]) ∧
    (s.jobs.calls.length ≤ s.jobs.held.length →
      ∃ t, exec (.callDoneWrite m v) s = .next t ∧ t.jobs = s.jobs ∧ IgnoredBy s t pgJOBS 0x084 10))

/-- R629, R635 to R645: an acceptance pushes the presented level, a completion pops the level at the top, another level and a
completion on an empty stack are faults; a stack reset; an upset; the compare of the two copies of the configuration. -/
def Obligations.EventStacks : Prop :=
  (∀ (s : State) (proc : Nat) (fast : Bool), proc < 2 →
    let accepted := fun (t : State) (l : Nat) => t.stack proc = l :: s.stack proc ∧
      t.stack (1 - proc) = s.stack (1 - proc) ∧ t.get pgEVT (EVT_PX_STACK_TOP.at proc) = l ∧
      t.on pgEVT (EVT_PX_STACK_EMPTY.at proc) = false ∧ Beside s t [pgEVT] ∧
      t.evt.accepting = s.evt.accepting.eraseP fun x => x.1 == proc && x.2.1 == fast
    (∀ l, s.presented proc fast = some l →
      (∃ k, k < 512 ∧ s.srcRequests k = true ∧ s.get pgEVTCFG (EVT_SRC_CFG_TARGET.at k) = proc + 1 ∧
        s.on pgEVTCFG (EVT_SRC_CFG_CLASS.at k) = fast ∧ s.get pgEVTCFG (EVT_SRC_CFG_PRIO.at k) = l) ∧
      s.get pgEVT (EVT_PX_THRESH.at proc) ≤ l ∧ (∀ top rest, s.stack proc = top :: rest → top < l) ∧
      ∃ t, exec (.evtAcceptance proc fast) s = .next t ∧ accepted t l) ∧
    (∀ l, s.presented proc fast = none → l < 16 →
      (s.evt.accepting.find? fun x => x.1 == proc && x.2.1 == fast) = some (proc, fast, l) →
      ∃ t, exec (.evtAcceptance proc fast) s = .next t ∧ accepted t l) ∧
    (s.presented proc fast = none → (∀ x ∈ s.evt.accepting, ¬ (x.1 = proc ∧ x.2.1 = fast)) →
      exec (.evtAcceptance proc fast) s = .next s)) ∧
  (∀ (s : State) (m proc level : Nat), proc < 2 → level < 16 → s.accepts m pgEVT (0x0AC + proc * 0x20) = true →
    (∀ rest, m = proc → s.stack proc = level :: rest → ∃ t, exec (.eoiWrite m proc level) s = .next t ∧ t.stack proc = rest ∧
      t.stack (1 - proc) = s.stack (1 - proc) ∧ Beside s t [pgEVT, pgPOWER]) ∧
    (∀ top rest, m = proc → s.stack proc = top :: rest → top < 16 → top ≠ level →
      ∃ t, exec (.eoiWrite m proc level) s = .next t ∧ t.stack proc = top :: rest ∧
        Reported s t 0x03E 22 0 (level + top * 16 + proc * 256) ∧ t.on pgEVT (EVT_PX_STATUS_EOI_ERROR.at proc) = true ∧
        t.get pgEVT (EVT_PX_STATUS_EOI_WRITTEN.at proc) = level ∧ t.get pgEVT (EVT_PX_STATUS_EOI_TOP.at proc) = top ∧
        Counted s t pgEVT EVT_EOI_ERRORS ∧ Beside s t [pgEVT]) ∧
    (m = proc → s.stack proc = [] → ∃ t, exec (.eoiWrite m proc level) s = .next t ∧ t.stack proc = [] ∧
        Reported s t 0x03E 23 0 (level + proc * 256) ∧ t.on pgEVT (EVT_PX_STATUS_EOI_EMPTY.at proc) = true ∧
        Counted s t pgEVT EVT_EOI_ERRORS ∧ Beside s t [pgEVT]) ∧
    (m ≠ proc → ∃ t, exec (.eoiWrite m proc level) s = .next t ∧ t.evt = s.evt ∧
      IgnoredBy s t pgEVT (0x0AC + proc * 0x20) 2)) ∧
  (∀ (s : State) (m proc : Nat), proc < 2 →
    (s.accepts m pgEVT (0x0B4 + proc * 0x20) = true → ∃ t, exec (.stackReset m proc) s = .next t ∧ t.stack proc = [] ∧
      t.stack (1 - proc) = s.stack (1 - proc) ∧ t.on pgEVT (EVT_PX_STATUS_STACK_ERROR.at proc) = false ∧
      t.on pgEVT (EVT_PX_STATUS_EOI_ERROR.at proc) = false ∧ Beside s t [pgEVT, pgPOWER]) ∧
    (∃ t, exec (.evtStackUpset proc) s = .next t ∧ t.on pgEVT (EVT_PX_STATUS_STACK_ERROR.at proc) = true ∧
      t.presented proc true = none ∧ t.presented proc false = none ∧ Counted s t pgEVT EVT_STACK_ERRORS ∧
      ((s.stack proc).headD 0 < 16 → Reported s t 0x03E 24 0 ((s.stack proc).headD 0 * 16 + proc * 256)) ∧
      Beside s t [pgEVT])) ∧
  (∀ (s : State) (k : Nat) (fa fb : BitVec 64), k < 512 → s.asleep 1 = false →
    (∀ j, j < 512 → s.srcCopy j 0 = s.srcCopy j 1) →
    let a := parityFails fa
    let b := parityFails fb
    let struck := fun (f : BitVec 64) => flipCopy (s.srcCopy k 0) f
    exec (.evtConfigScrub []) s = .next s ∧
    (a = true → b = false → ∃ t, exec (.evtConfigScrub [⟨k, fa, fb⟩]) s = .next t ∧ t.srcCopy k 0 = struck fb ∧
      t.srcCopy k 1 = struck fb ∧ Reported s t 0x03C 21 0 k ∧ Beside s t [pgEVT, pgEVTCFG, pgEVTTIME]) ∧
    (a = false → b = true → ∃ t, exec (.evtConfigScrub [⟨k, fa, fb⟩]) s = .next t ∧ t.srcCopy k 0 = struck fa ∧
      t.srcCopy k 1 = struck fa ∧ Reported s t 0x03C 21 0 k ∧ Beside s t [pgEVT, pgEVTCFG, pgEVTTIME]) ∧
    (a = b → a = true ∨ struck fa ≠ struck fb → ∃ t, exec (.evtConfigScrub [⟨k, fa, fb⟩]) s = .next t ∧
      t.get pgEVTCFG (EVT_SRC_CFG_TARGET.at k) = 0 ∧ t.get pgEVTCFG (EVT_SRC_CFG_TARGET.at k) 1 = 0 ∧
      Reported s t 0x03D 21 0 k ∧ Beside s t [pgEVT, pgEVTCFG, pgEVTTIME]))

/-- R332 to R337, R272, R277, R280, R927: FM.LDG and FM.STG start a galley transfer with the parameters of their word, wait
while one is under way, and are refused as in R52 or R532, with no transfer, where the Stone extent cannot be reached; galley
I/O ends with every word of every galley moved. Inbound, Stone keeps its bytes, and in WORD mode each sort's case words become
the Stone words that R272 maps to them. Outbound, the sorts keep their case memory, and every byte of memory outside the words
of the extent keeps its value.
Choices of the model: notes/assumptions/17.md. -/
def Obligations.GalleyTransfers : Prop :=
  (∀ x ∈ ([(.fmLdg, 0x038, true), (.fmStg, 0x039, false)] : List (Instr × Nat × Bool)),
     ∀ (s : State) (c : Routine), s.seq.cur = some c → fmOp c.instr = x.2.1 →
     let tr := transferOf c.instr x.2.2
     (s.forme.io.isSome = true → exec x.1 s = .next s) ∧ (c.micro = false → SequencerSound s →
     (tr.mode = 0 ∨ tr.mode = 1 → s.rows ≠ 0 →
       s.outsideStone tr.base (s.transferLen tr) = none →
       (s.regionOk 10 tr.base (s.transferLen tr) (!x.2.2) = true →
         ∃ t, exec x.1 s = .next t ∧ t.forme.io = some tr ∧ t.seq.cur = none ∧ t.seq.fc = s.seq.fc + 4 ∧ SortsKept s t ∧
           MemoryKept s t ∧ RegsKept s t [pgCOMPOSITOR] ∧ t.fault = s.fault) ∧
       (s.regionOk 10 tr.base (s.transferLen tr) (!x.2.2) = false →
         ∃ t, exec x.1 s = .next t ∧ t.forme.io = none ∧ t.seq.cur = none ∧
           t.fault.net = s.fault.net ++ [⟨0x031, 18, tr.base % 2 ^ 48, 10 + b2n (!x.2.2) * 2 ^ 6⟩] ∧
           SortsKept s t ∧ MemoryKept s t)) ∧
     (tr.mode = 0 ∨ tr.mode = 1 → s.rows ≠ 0 → ∀ a, s.outsideStone tr.base (s.transferLen tr) = some a →
       ∃ t, exec x.1 s = .next t ∧ t.forme.io = none ∧ t.seq.cur = none ∧
         t.fault.net = s.fault.net ++ [⟨0x031, 18, a % 2 ^ 48, 10 + 2 ^ 5 + b2n (!x.2.2) * 2 ^ 6⟩] ∧
         SortsKept s t ∧ MemoryKept s t) ∧
     (tr.mode = 2 →
       ∃ t, exec x.1 s = .next t ∧ t.forme.io = some tr ∧ t.seq.cur = none ∧ SortsKept s t ∧ MemoryKept s t))) ∧
  (∀ s : State, s.forme.io = none → exec .galleyIoDone s = .next s) ∧
  (∀ (s : State) (tr : Transfer), s.forme.io = some tr → tr.inbound = true → tr.mode ≠ 2 →
    SMap.wf (fun _ => SortSt.reset) s.forme.sorts = true →
    ∃ t, exec .galleyIoDone s = .next t ∧ t.forme.io = none ∧ MemoryKept s t ∧
      (tr.mode = 0 → tr.moved = 0 → RowMapInjective s → (∀ w, s.isBad w = false) → s.memOk 0 0x04000000 = true →
        tr.base + (16 * s.rows - 1) * 4 * tr.stride + 4 * tr.words ≤ 0x04000000 →
        tr.colFirst + tr.colCount ≤ 32 →
        ∀ g c d r, g < 16 * s.rows → c < tr.colCount → d < tr.depth → r < 32 →
          (t.sort (s.cellKey (g % 16) (g / 16) (tr.colFirst + c) r)).word (tr.caseBase + d) % 2 ^ 32 =
            s.numAt (tr.base + g * 4 * tr.stride + 4 * (32 * tr.depth * c + 32 * d + r)) 4)) ∧
  (∀ (s : State) (tr : Transfer), s.forme.io = some tr → tr.inbound = false → tr.mode = 0 ∨ tr.mode = 1 →
    SMap.wf (fun _ => SortSt.reset) s.forme.sorts = true → (∀ k, (s.sort k).latchFull = false) →
    ∃ t, exec .galleyIoDone s = .next t ∧ t.forme.io = none ∧ (∀ k, (t.sort k).mem = (s.sort k).mem) ∧
      ∀ a, (∀ g k, g < 16 * s.rows → k < tr.words → a < tr.base + g * 4 * tr.stride + 4 * k ∨
        tr.base + g * 4 * tr.stride + 4 * k + 4 ≤ a) → t.byte a = s.byte a)

/-- R256 to R259: a migration, of columns and of a galley in every row it waits for, keeps the case memory and the flags of
every logical place; it ends the pending marks. It waits while an execution is in progress. -/
def Obligations.MigrationKeepsContents : Prop :=
  ∀ s : State,
    (s.migrating = false ∨ s.inExecution = true ∨ s.comp.phase = 3 → exec .migrationDone s = .next s) ∧
    (s.migrating = true → s.inExecution = false → s.comp.phase ≠ 3 → s.comp.after = 0 →
      ∃ t, exec .migrationDone s = .next t ∧ t.migrating = false ∧ Pending t pgFORME 1 ∧ MemoryKept s t ∧
        t.cores = s.cores ∧ t.comp = s.comp ∧ t.seq = s.seq ∧
        ∀ row gx c r, row < 16 → gx < 16 → c < 32 → r < 32 →
          let m := t.sort (placeOn t row gx c r)
          let m0 := s.sort (placeOn s row gx c r)
          m.mem = m0.mem ∧ m.bad = m0.bad ∧ m.weak = m0.weak ∧ m.flags = m0.flags ∧
            (placeOn t row gx c r ≠ placeOn s row gx c r → m.e = false))

/-- R356 to R361, R412, R801, R353 to R355, R361, R644: END of COMP_IMP_CTRL, and the end of an execution: not void, it has
ended and is timed; void, a first execution is recomputed and a recompute fails the impression; impression entry, after the
waits of R361, ends the discard state, empties the Compositor's in-service stack and starts the pair's cores in service from
the impression context block, the timer running since the tick; where the block cannot be read ICB_ERROR is reported and no
core starts.
Choices of the model: notes/assumptions/32.md. -/
def Obligations.ExecutionsOfTheStandingProgram : Prop :=
  (∀ (s : State) (m : Nat) (v : W32), s.accepts m pgCOMPOSITOR 0x064 = true →
    (v.getLsbD 0 = true → s.comp.phase = 1 ∨ s.comp.phase = 2 →
      ∃ t, exec (.impEndWrite m v) s = .next t ∧ t.comp = { s.comp with phase := 2 } ∧ Beside s t [pgCOMPOSITOR]) ∧
    (v.getLsbD 0 = true → s.comp.phase ≠ 1 → s.comp.phase ≠ 2 →
      ∃ t, exec (.impEndWrite m v) s = .next t ∧ t.comp = s.comp ∧ IgnoredBy s t pgCOMPOSITOR 0x064 10) ∧
    (v.getLsbD 0 = false → ∃ t, exec (.impEndWrite m v) s = .next t ∧ t.comp = s.comp ∧ Beside s t [pgCOMPOSITOR])) ∧
  (∀ (s : State) (n : Nat), s.comp.phase = 2 → Quiet s → s.seq.queue = [] → s.on pgCOMPOSITOR COMP_PAIR_TRIO = false →
    s.jobs.held = [] → s.sp.told = true →
    let ns := min (timeAt s n - s.sp.entryAt) (2 ^ 32 - 1)
    (s.eAny = false → s.get pgCOMPOSITOR COMP_IMP_STATUS_VOID = 0 →
      ∃ t, exec (.executionEnd n) s = .next t ∧ t.comp = { s.comp with phase := 0, ended := true } ∧
        (s.on pgCOMPOSITOR COMP_IMP_STATUS_RECOMPUTING = false → t.get pgJOBS JOBS_IMP_LAST_NS = ns ∧
          t.get pgJOBS JOBS_IMP_MAX_NS = max ns (s.get pgJOBS JOBS_IMP_MAX_NS)) ∧
        (s.on pgCOMPOSITOR COMP_IMP_STATUS_RECOMPUTING = true →
          t.get pgJOBS JOBS_IMP_RECOMP_MAX_NS = max ns (s.get pgJOBS JOBS_IMP_RECOMP_MAX_NS)) ∧ Beside s t [pgJOBS]) ∧
    (s.eAny = true ∨ s.get pgCOMPOSITOR COMP_IMP_STATUS_VOID ≠ 0 → s.on pgCOMPOSITOR COMP_IMP_STATUS_RECOMPUTING = false →
      s.on pgFAULT FAULT_STATUS_FATAL = false → s.migrating = false →
      ∃ t, exec (.executionEnd n) s = .next t ∧ (t.comp.phase = 1 ∨ t.comp.phase = 4) ∧ t.comp.ended = false ∧
        t.on pgCOMPOSITOR COMP_IMP_STATUS_RECOMPUTING = true ∧ t.get pgCOMPOSITOR COMP_IMP_STATUS_VOID = 0 ∧
        (∀ k, (t.sort k).e = false) ∧ t.seq.discard = false ∧ Counted s t pgCOMPOSITOR COMP_VOIDS ∧
        Counted s t pgCOMPOSITOR COMP_RECOMPUTES ∧ MemoryKept s t) ∧
    (s.eAny = true ∨ s.get pgCOMPOSITOR COMP_IMP_STATUS_VOID ≠ 0 → s.on pgCOMPOSITOR COMP_IMP_STATUS_RECOMPUTING = true →
      ∃ t, exec (.executionEnd n) s = .next t ∧ t.comp = { s.comp with phase := 0 } ∧
        Reported s t 0x018 12 0 (s.get pgJOBS JOBS_IMP_COUNT) ∧ Counted s t pgCOMPOSITOR COMP_VOIDS ∧ MemoryKept s t ∧
        SortsKept s t)) ∧
  (∀ (s : State) (n : Nat), s.comp.phase = 3 → s.comp.after = 2 → Quiet s → s.migrating = false →
     s.on pgCOMPOSITOR COMP_PAIR_TRIO = false → s.fault.coreLeaves = [] →
     let a := s.icbAddr
     (placeOf a = .stone → s.memOk a 1024 = true → s.regionOk 0 a 1024 false = true → (∀ w, s.isBad w = false) →
       ∃ t, exec (.executionEnd n) s = .next t ∧ t.comp.phase = 1 ∧ t.comp.ended = false ∧
         t.comp.cores = s.pair2.filter s.coresInService.contains ∧
         (∀ k ∈ t.comp.cores, EnteredFrom s a (s.core (s.comp.cores.getD 0 0)) (t.core k)) ∧
         (∀ k, k ∉ t.comp.cores → t.core k = s.core k) ∧ t.get pgCOMPOSITOR COMP_IMP_STATUS_VOID = 0 ∧
         t.on pgCOMPOSITOR COMP_IMP_STATUS_RECOMPUTING = false ∧ t.seq = { s.seq with discard := false, marked := [] } ∧
         t.sp = s.sp ∧ t.evt.comp = [] ∧ MemoryKept s t ∧ SortsKept s t) ∧
     (placeOf a ≠ .stone →
       ∃ t, exec (.executionEnd n) s = .next t ∧ t.comp.phase = 4 ∧ t.comp.cores = [] ∧ t.cores = s.cores ∧
         ⟨0x019, 10, a % 2 ^ 48, 0⟩ ∈ t.fault.net ∧ MemoryKept s t ∧ SortsKept s t))

/-- R774, R781, R783, R785: one request of a COPY moves its bytes in rising order and ends it with the last (a
destination byte that lies in the source extent too is open); a side that a region
register refuses ends it with cause 4, a host request that fails with cause 5. -/
def Obligations.CopyTickets : Prop :=
  ∀ (s : State) (n k moved size : Nat) (b : List Byte) (host : Option (List Byte)), n < 16 →
    s.copyTicket n = some (k, b, moved) → moved < tkLen b →
    let src := tkSrc b
    let dst := tkDst b
    let c := min (max 1 (min size 512)) (tkLen b - moved)
    let goesOn := fun (t : State) =>
      (moved + c = tkLen b → EndedAs s t n k ⟨0, 0, 2, tkLen b % 2 ^ 32, 0, 0⟩) ∧
      (moved + c < tkLen b → t.ring n = { s.ring n with tickets := (s.ring n).tickets.map fun x =>
        if x.k = k then { x with started := true, moved := moved + c } else x })
    let beside := fun (t : State) => SortsKept s t ∧ t.cores = s.cores ∧ t.seq = s.seq
    let apart := src + tkLen b ≤ dst ∨ dst + tkLen b ≤ src
    let calm := Awake s ∧ s.forme.io = none
    (calm → src < 2 ^ 48 → dst < 2 ^ 48 → Readable s 14 (src + moved) c → Writable s 14 (dst + moved) c →
      ∃ t, exec (.ticketCopy n size host) s = .next t ∧ goesOn t ∧ t.out = s.out ∧ beside t ∧
        (apart → Stored s t (dst + moved) (s.bytes (src + moved) c)) ∧
        (∀ i, i < c → dst + moved + i < src ∨ src + tkLen b ≤ dst + moved + i →
          t.byte (dst + moved + i) = s.byte (src + moved + i)) ∧
        ∀ x, x < dst + moved ∨ dst + moved + c ≤ x → t.byte x = s.byte x) ∧
    (∀ bs, bit src 63 = true → bit dst 63 = true → apart → host = some bs →
      ∃ t, exec (.ticketCopy n size host) s = .next t ∧ goesOn t ∧ MemoryKept s t ∧ beside t ∧
        t.out = s.out ++ [.hostRead (src % 2 ^ 63 + moved) c, .hostWrite (dst % 2 ^ 63 + moved) (slice bs 0 c)]) ∧
    (calm → src < 2 ^ 48 → s.memOk (src + moved) c = true → s.regionOk 14 (src + moved) c false = false →
      ∃ t, exec (.ticketCopy n size host) s = .next t ∧ EndedAs s t n k ⟨1, 4, 2, moved % 2 ^ 32, 0, 0⟩ ∧ MemoryKept s t ∧
        Reported s t 0x031 18 ((src + moved) % 2 ^ 48) 14 ∧ beside t) ∧
    (calm → src < 2 ^ 48 → bit dst 63 = true → Readable s 14 (src + moved) c →
      ∃ t, exec (.ticketCopy n size host) s = .next t ∧ MemoryKept s t ∧ goesOn t ∧ beside t ∧
        t.out = s.out ++ [.hostWrite (dst % 2 ^ 63 + moved) (s.bytes (src + moved) c)]) ∧
    (∀ bs, calm → bit src 63 = true → dst < 2 ^ 48 → host = some bs → Writable s 14 (dst + moved) c →
      ∃ t, exec (.ticketCopy n size host) s = .next t ∧ Stored s t (dst + moved) (slice bs 0 c) ∧ goesOn t ∧ beside t ∧
        t.out = s.out ++ [.hostRead (src % 2 ^ 63 + moved) c]) ∧
    (bit src 63 = true → host = none →
      ∃ t, exec (.ticketCopy n size host) s = .next t ∧ EndedAs s t n k ⟨1, 5, 2, moved % 2 ^ 32, 0, 0⟩ ∧
        Counted s t pgHOST HOST_CPL_ERRORS ∧ MemoryKept s t ∧ beside t) ∧
    (bit src 63 = true ∨ bit dst 63 = true →
      ∃ t, exec (.hostRequestError n) s = .next t ∧ EndedAs s t n k ⟨1, 5, 2, moved % 2 ^ 32, 0, 0⟩ ∧
        Counted s t pgHOST HOST_CPL_ERRORS ∧ t.fault = s.fault ∧ Beside s t [pgHOST]) ∧
    (bit src 63 = false → bit dst 63 = false → exec (.hostRequestError n) s = .next s)

/-- R775 to R777, R780, R774 to R776, R785: doorbells of a ring and its ENABLE; the next ring that can fetch, in round robin,
fetches ticket FETCHED from Stone or host memory; a ticket that cannot be read ends with status 2 and cause 3. -/
def Obligations.RingsAndTicketFetch : Prop :=
  (∀ (s : State) (n m : Nat) (v : W32), n < 16 →
     let d := 2 ^ s.get pgJOBS (JOBS_RING_CFG_LOG2.at n)
     let done := BitVec.ofNat 32 (s.ring n).done
     let keeps := fun (t : State) (off : Nat) => Beside s t [pgJOBS] ∧ t.jobs = s.jobs ∧
       ∀ o i, 0x040 ≤ o → o < 0x1000 → o ≠ off → t.reg pgJOBS o i = s.reg pgJOBS o i
     let turnedAway := fun (t : State) (off : Nat) => t.get pgJOBS IGNORED_CAUSE_REASON = 7 ∧
       t.get pgJOBS IGNORED_CAUSE_OFFSET = off ∧ Counted s t pgJOBS JOBS_DOORBELL_IGNORED ∧ keeps t 0x09C
     (s.accepts m pgJOBS (0x114 + 32 * n) = true →
       let tail := s.reg pgJOBS (0x114 + 32 * n)
       (¬ Before v tail → (v - done).toNat ≤ d → ∃ t, exec (.jobsTailDoorbell n m v) s = .next t ∧
         t.reg pgJOBS (0x114 + 32 * n) = v ∧ keeps t (0x114 + 32 * n)) ∧
       (Before v tail ∨ d < (v - done).toNat → ∃ t, exec (.jobsTailDoorbell n m v) s = .next t ∧
         turnedAway t (0x114 + 32 * n))) ∧
     (s.accepts m pgJOBS (0x118 + 32 * n) = true →
       let head := s.reg pgJOBS (0x118 + 32 * n)
       (¬ Before v head → ¬ Before done v → ∃ t, exec (.jobsHeadWrite n m v) s = .next t ∧
         t.reg pgJOBS (0x118 + 32 * n) = v ∧ keeps t (0x118 + 32 * n)) ∧
       (Before v head ∨ Before done v → ∃ t, exec (.jobsHeadWrite n m v) s = .next t ∧
         turnedAway t (0x118 + 32 * n))) ∧
     (s.accepts m pgJOBS (0x110 + 32 * n) = true →
       let l := v.toNat % 32
       let others := fun (t : State) => ∀ n', n' ≠ n → t.ring n' = s.ring n'
       (l ≤ 16 → s.ringEnabled n = false → v.getLsbD 31 = true → (s.ring n).fetched = (s.ring n).done →
         ∃ t, exec (.ringEnableWrite n m v) s = .next t ∧ t.ringEnabled n = true ∧ t.ringDepth n = 2 ^ l ∧
           t.ring n = RingSt.reset ∧ t.ringTail n = 0 ∧ t.ringHead n = 0 ∧ others t ∧ Beside s t [pgJOBS]) ∧
       (l ≤ 16 → s.ringEnabled n = false → v.getLsbD 31 = true → (s.ring n).fetched ≠ (s.ring n).done →
         ∃ t, exec (.ringEnableWrite n m v) s = .next t ∧ t.jobs = s.jobs ∧ IgnoredBy s t pgJOBS (0x110 + 32 * n) 10) ∧
       (l ≤ 16 → s.ringEnabled n = false → v.getLsbD 31 = false →
         ∃ t, exec (.ringEnableWrite n m v) s = .next t ∧ t.ringDepth n = 2 ^ l ∧ t.ringEnabled n = false ∧
           keeps t (0x110 + 32 * n)) ∧
       (l ≤ 16 → s.ringEnabled n = true →
         ∃ t, exec (.ringEnableWrite n m v) s = .next t ∧ t.ringDepth n = s.ringDepth n ∧
           t.ringEnabled n = v.getLsbD 31 ∧ keeps t (0x110 + 32 * n)) ∧
       (16 < l → ∃ t, exec (.ringEnableWrite n m v) s = .next t ∧ t.jobs = s.jobs ∧
           IgnoredBy s t pgJOBS (0x110 + 32 * n) 7))) ∧
  (∀ (s : State) (host : Option (List Byte)),
     (∀ n, s.canFetch n = true ↔ s.on pgJOBS JOBS_CTRL_ENABLE = true ∧ s.ringEnabled n = true ∧
       (s.ring n).fetched ≠ s.ringTail n ∧ serialDist (s.ring n).done (s.ring n).fetched < 64 ∧
       serialDist (s.ringHead n) (s.ring n).fetched < s.ringDepth n ∧ s.on pgJOBS JOBS_STATUS_STOPPED = false) ∧
     ((∀ n, n < 16 → s.canFetch n = false) → exec (.ticketFetch host) s = .next s) ∧
     (∀ n, n < 16 → s.jobs.last < 16 → s.canFetch n = true →
       (∀ i, i < 16 → s.canFetch i = true → (n + 16 - s.jobs.last) % 16 ≤ (i + 16 - s.jobs.last) % 16) →
       let r := s.ring n
       let a := (s.sqBase n).2 + 64 * (r.fetched % s.ringDepth n)
       let fetched := fun (t : State) (x : Ticket) => t.jobs.last = (n + 1) % 16 ∧
         t.ring n = { r with fetched := (r.fetched + 1) % 2 ^ 32, tickets := r.tickets ++ [x] } ∧
         (∀ n', n' ≠ n → t.ring n' = s.ring n') ∧ t.jobs.calls = s.jobs.calls ∧ MemoryKept s t ∧ SortsKept s t ∧
         t.cores = s.cores
       let ok := fun (b : List Byte) => ({ k := r.fetched, data := some b, started := false, moved := 0, fin := none } : Ticket)
       let lost := ({ k := r.fetched, data := none, started := true, moved := 0, fin := some ⟨2, 3, 0, 0, 0, 0⟩ } : Ticket)
       ((s.sqBase n).1 = false → Readable s 14 a 64 →
         ∃ t, exec (.ticketFetch host) s = .next t ∧ fetched t (ok (s.bytes a 64)) ∧ t.out = s.out) ∧
       ((s.sqBase n).1 = false → s.memOk a 64 = true → s.regionOk 14 a 64 false = false →
         ∃ t, exec (.ticketFetch host) s = .next t ∧ fetched t lost ∧
           Reported s t 0x031 18 (a % 2 ^ 48) 14) ∧
       (∀ b, (s.sqBase n).1 = true → host = some b →
         ∃ t, exec (.ticketFetch host) s = .next t ∧ fetched t (ok (slice b 0 64)) ∧
           t.out = s.out ++ [.hostRead (a % 2 ^ 63) 64]) ∧
       ((s.sqBase n).1 = true → host = none →
         ∃ t, exec (.ticketFetch host) s = .next t ∧ fetched t lost ∧ t.out = s.out ++ [.hostRead (a % 2 ^ 63) 64] ∧
           Counted s t pgHOST HOST_CPL_ERRORS)))

/-- R63, R65, R73 to R75, R344, R397 to R402, R730, R735 to R737, R755, R911, R913: during make-ready a unit whose proof passes enters
service, one whose proof fails is reported and stays out, a failing Colophon SRAM returns the device to reset; the patch of the active
slot is loaded, or the other's, and the CSTORE page quoined. At its end the galley rows with at most one retired galley form the array,
the two lowest cores the pair, and the device is ready; a log port whose drive has the format is ready too. -/
def Obligations.MakeReadyProofsPatchAndEnd : Prop :=
  (∀ (s : State) (cls inst : Nat), s.making = true → inst < unitCount cls → (cls, inst) ∉ s.device.failed →
    (cls ∈ [3, 4, 8, 9, 11, 13, 14] → ∃ t, exec (.unitProofDone cls inst true) s = .next t ∧
      t.on (unitPage cls inst) PAGE_STATUS_IN_SERVICE = true ∧ Beside s t [unitPage cls inst]) ∧
    (cls ≠ 1 → ∃ t, exec (.unitProofDone cls inst false) s = .next t ∧
      t.device = { s.device with failed := s.device.failed ++ [(cls, inst)] } ∧ Reported s t 0x000 34 0 (cls + 256 * inst) ∧
      MemoryKept s t ∧ SortsKept s t ∧ t.cores = s.cores) ∧
    (cls = 1 → ∃ t, exec (.unitProofDone cls inst false) s = .next t ∧ t.device.stage = 0 ∧
      t.fault.net = [⟨0x000, 34, 0, 1⟩])) ∧
  (∀ (s : State) (cls inst : Nat) (pass : Bool), s.making = false ∨ unitCount cls ≤ inst ∨ (cls, inst) ∈ s.device.failed →
    exec (.unitProofDone cls inst pass) s = .next s) ∧
  (∀ (s : State) (a b : PatchSlot), s.making = true → s.quoined pgCSTORE = false →
    let first := if s.colo.flash.active = 0 then a else b
    let other := if s.colo.flash.active = 0 then b else a
    let loaded := fun (x : PatchSlot) (im : List Byte) => ∃ t, exec (.patchLoad a b) s = .next t ∧ t.quoined pgCSTORE = true ∧
      t.on pgCSTORE CSTORE_STATUS_PATCH_OK = true ∧ t.get pgCSTORE CSTORE_STATUS_PATCH_VERSION = fieldLE im 6 2 ∧
      t.get pgCSTORE CSTORE_STATUS_MATCHES = fieldLE im 14 2 ∧
      (∀ k, k < fieldLE im 14 2 → (t.reg pgCSTORE 0x050 (k + 1)).toNat =
        2 ^ 31 + fieldLE x.body (4 * k + 2) 2 * 2 ^ 16 + fieldLE x.body (4 * k) 2) ∧
      (∀ i, i < fieldLE im 12 2 → SMap.get 0 t.cstore.words (0xA000 + i) = fieldLE x.body (4 * fieldLE im 14 2 + 32 * i) 22) ∧
      Beside s t [pgCSTORE]
    (∀ x im, s.patchCause x im = 1 ↔ ¬ (ecVerify x.key (im.take (im.length - 96)) (im.drop (im.length - 96)) = true ∧
      ∃ j, 4 ≤ j ∧ j < 6 ∧ bit s.colo.fuses.revoke j = false ∧ s.device.adkKeys[j]? = some (sha384 x.key))) ∧
    (patchIn a = none → patchIn b = none → ∃ t, exec (.patchLoad a b) s = .next t ∧ t.quoined pgCSTORE = true ∧
      t.on pgCSTORE CSTORE_STATUS_PATCH_OK = true ∧ t.cstore = s.cstore ∧ t.fault = s.fault ∧ Beside s t [pgCSTORE]) ∧
    (∀ im, patchIn first = some im → s.patchCause first im = 0 → loaded first im) ∧
    (∀ im im2, patchIn first = some im → s.patchCause first im ≠ 0 → patchIn other = some im2 → s.patchCause other im2 = 0 →
      loaded other im2) ∧
    (∀ im, patchIn first = some im → s.patchCause first im ≠ 0 → patchIn other = none →
      ∃ t, exec (.patchLoad a b) s = .next t ∧ t.quoined pgCSTORE = true ∧ t.cstore = s.cstore ∧
        Reported s t 0x01B 14 0 (s.patchCause first im) ∧ Beside s t [pgCSTORE])) ∧
  (∀ (s : State) (a b : PatchSlot), s.making = false ∨ s.quoined pgCSTORE = true → exec (.patchLoad a b) s = .next s) ∧
  (∀ (s : State) (failed words entries : List (Nat × Nat)), s.making = true → s.quoined pgCSTORE = true →
    (∀ k, SMap.get [] s.colo.flash.owner k = []) →
    ∃ t, exec (.makeReadyDone failed words entries) s = .next t ∧ t.device.stage = 2 ∧
      (∀ x, x ∈ t.device.failed ↔ x ∈ s.device.failed ∨ (x ∈ failed ∧ x.2 < unitCount x.1)) ∧
      t.on pgCOLOPHON COLOPHON_STATUS_READY = true ∧ Pending t pgCOLOPHON 0 ∧
      t.on pgCOMPOSITOR COMP_SEQ_CTRL_ENABLE = true ∧ t.on pgFAULT FAULT_ALIVE_ENABLE = true ∧
      t.get pgHOST HOST_BAR4_BASE_WINDOW_GIB = 0 ∧ t.host.retry = t.on pgHOST HOST_LINK_PERST ∧
      t.rows = t.goodRows.length ∧ (∀ l, l < t.rows → t.goodRows[l]? = some (t.physRow l)) ∧
      (∀ r, r ∈ t.goodRows ↔ r < 16 ∧ ¬ ∃ p q, p < q ∧ q < 17 ∧
        t.badGalley (17 * r + p) = true ∧ t.badGalley (17 * r + q) = true) ∧
      (∀ n, n < 3 → (n ∈ t.coresInService ↔ (5, n) ∉ t.device.failed ∨ n ∈ s.coresInService)) ∧
      t.get pgDEVICE DEVICE_UNITS_GALLEY_ROWS = t.rows ∧ MemoryKept s t ∧ SortsKept s t) ∧
  (∀ (s : State) (failed words entries : List (Nat × Nat)), s.making = false ∨ s.quoined pgCSTORE = false →
    exec (.makeReadyDone failed words entries) s = .next s) ∧
  (∀ (s : State) (k : Nat), k < 2 →
    (s.device.stage ≠ 0 → s.on (pgLOGPORT k) PAGE_STATUS_IN_SERVICE = true → (s.logPort k).perstHigh = false →
      (∃ t, exec (.logPerstRelease k true) s = .next t ∧ t.on (pgLOGPORT k) LOG_STATUS_DRIVE_READY = true ∧
        (t.logPort k).perstHigh = true ∧ MemoryKept s t ∧ SortsKept s t ∧ t.cores = s.cores) ∧
      (∃ t, exec (.logPerstRelease k false) s = .next t ∧ (t.logPort k).perstHigh = true ∧
        Reported s t 0x000 34 0 (13 + 256 * k) ∧ Beside s t [pgLOGPORT k])) ∧
    (∀ f, s.device.stage = 0 ∨ s.on (pgLOGPORT k) PAGE_STATUS_IN_SERVICE = false ∨ (s.logPort k).perstHigh = true →
      exec (.logPerstRelease k f) s = .next s))

/-- R746 to R748, R792, R793, R827, R828: LOAD_IMAGE refuses a malformed image with STATUS 4 and one that R747 does not
accept with STATUS 2; an accepted Frisket image starts a load, an accepted standing program is installed unless a cause of
R792 holds. -/
def Obligations.OwnerImages : Prop :=
  ∀ (s : State) (box : Nat) (more : List Byte) (words entries : List (Nat × Nat)), MbReady s box 0x22 (mbLen (s.mbHeader box)) →
    mbLen (s.mbHeader box) ≤ 1044480 →
    let b := s.bytes (mbBase box + 4096) (mbLen (s.mbHeader box)) ++ more
    let answers := fun (t : State) (st : Nat) => exec (.mbLoadImage box more words entries) s = .next t ∧
      Output.mailbox box st [] ∈ t.out ∧ box ∉ t.colo.taken ∧ t.byte (mbBase box + 8) = BitVec.ofNat 8 st ∧ SortsKept s t
    (imgKind b ≠ 2 → imgFormed b = false → ∃ t, answers t 4 ∧ t.cstore = s.cstore ∧ t.sp = s.sp) ∧
    (imgKind b ≠ 2 → imgFormed b = true → s.imgAccepted b = false → ∃ t, answers t 2 ∧ t.cstore = s.cstore ∧ t.sp = s.sp) ∧
    (imgKind b = 1 → imgFormed b = true → s.imgAccepted b = true → s.seq.cur ≠ none →
      (∀ x ∈ words, 0x8000 ≤ x.1 ∧ x.1 ≤ 0x9FFF ∧ x.2 < 2 ^ 176) → entries = [] →
      (s.cstore.staging ≠ none → ∃ t, answers t 0 ∧ t.cstore = { s.cstore with ready := s.cstore.ready ++ words }) ∧
      (∀ w ws, s.cstore.staging = none → s.cstore.ready = [] → words = w :: ws →
        ∃ t, answers t 0 ∧ t.cstore = { s.cstore with staging := some (w.1, w.2, true), ready := ws })) ∧
    (imgKind b = 3 → imgFormed b = true → s.imgAccepted b = true →
      (∀ c, s.spFault (imgBody b) = some c → ∃ t, answers t 1 ∧ t.get pgJOBS JOBS_SP_STATUS_LOAD_ERROR = c ∧
        t.on pgJOBS JOBS_SP_STATUS_LOADED = s.on pgJOBS JOBS_SP_STATUS_LOADED ∧ t.cstore = s.cstore) ∧
      (s.spFault (imgBody b) = none → ∃ t, answers t 0 ∧ t.on pgJOBS JOBS_SP_STATUS_LOADED = true ∧
        t.period = spPeriod (imgBody b) ∧ t.icbAddr = spIcbAddr (imgBody b) ∧
        SMap.get [] t.colo.meas 4 = sha384 b)) ∧
    (b.take 4 = ascii "EVSO" → imgKind b = 2 → s.friskRefusal b = 0 →
      ∃ t, exec (.mbLoadImage box more words entries) s = .next t ∧ t.frisket.loading = some (imgBody b) ∧
        t.frisket.loadFor = some box ∧ t.fabric = 1 ∧ t.colo.taken = s.colo.taken ∧ MemoryKept s t ∧ SortsKept s t) ∧
    (∀ st, b.take 4 = ascii "EVSO" → imgKind b = 2 → s.friskRefusal b = st → st ≠ 0 →
      ∃ t, answers t st ∧ t.frisket = s.frisket)

/-- R842 to R853, R855, R863: requests for a sleep state, the steps of an entry, the end of a wake, and the automatic Idle. -/
def Obligations.PowerStates : Prop :=
  (∀ (s : State) (m n : Nat) (wake : Option Nat), s.accepts m pgPOWER 0x044 = true →
    let d := s.get pgPOWER POWER_SEL_DOMAIN
    (∀ c ∈ [Instr.powerRunRequest m n, .powerNapRequest m wake n, .powerHoldRequest m wake n], m ≠ 1 → m ≠ 13 →
      ∃ t, exec c s = .next t ∧ t.power = s.power ∧ IgnoredBy s t pgPOWER 0x044 2) ∧
    (m = 1 ∨ m = 13 → d < 52 → s.domUp d = true → Resting s d →
      (s.domState d = 2 ∨ s.domState d = 3 → ∃ t, exec (.powerRunRequest m n) s = .next t ∧
        (t.domain d).waking = some (7, 0) ∧ Beside s t [pgPOWER]) ∧
      (s.domState d = 1 → ∃ t, exec (.powerRunRequest m n) s = .next t ∧ t.domState d = 0 ∧ Beside s t [pgPOWER]) ∧
      (s.powerCause d 2 false = 0 → s.domState d ≤ 1 → ∃ t, exec (.powerNapRequest m none n) s = .next t ∧
        t.domain d = { s.domain d with entering := some (2, 1), stopWake := none } ∧ t.domState d = s.domState d ∧ Beside s t [pgPOWER]) ∧
      (s.powerCause d 3 false = 0 → s.domState d ≤ 1 → ∃ t, exec (.powerHoldRequest m none n) s = .next t ∧
        t.domain d = { s.domain d with entering := some (3, 1), stopWake := none } ∧ Beside s t [pgPOWER]) ∧
      (s.powerCause d 3 false = 0 → s.domState d = 2 → ∃ t, exec (.powerHoldRequest m none n) s = .next t ∧
        t.domain d = { s.domain d with entering := some (3, 4), stopWake := none } ∧ Beside s t [pgPOWER]) ∧
      (s.powerCause d 2 false = 0 → s.domState d = 3 → ∃ t, exec (.powerNapRequest m none n) s = .next t ∧
        t.domain d = { s.domain d with waking := some (16, 2), wakeAt := timeAt s n } ∧ Beside s t [pgPOWER]) ∧
      (∀ src, src < 16 → s.powerCause d 3 false = 0 → ∃ t, exec (.powerHoldRequest m (some src) n) s = .next t ∧
        t.domain d = s.domain d ∧ t.get pgPOWER POWER_SLEEP_STATUS_OUTCOME (d + 1) = 3 ∧
        t.get pgPOWER POWER_SLEEP_STATUS_WAKE_SRC (d + 1) = src ∧ Counted s t pgPOWER POWER_ABANDONED ∧ Pending t pgPOWER 2 ∧
        Beside s t [pgPOWER])) ∧
    (m = 1 ∨ m = 13 → ∀ x ∈ [(Instr.powerNapRequest m wake n, 2), (.powerHoldRequest m wake n, 3)],
      let c := s.powerCause d x.2 false
      (52 ≤ d ∨ d = 0 ∨ d = 35 → c = 1) ∧ (d < 52 → d ≠ 0 → d ≠ 35 → s.domUp d = false → c = 2) ∧
      (c ≠ 0 → d < 52 → ∃ t, exec x.1 s = .next t ∧ t.get pgPOWER POWER_SLEEP_STATUS_OUTCOME (d + 1) = 2 ∧
        t.get pgPOWER POWER_SLEEP_STATUS_REASON (d + 1) = c ∧ Counted s t pgPOWER POWER_REFUSED ∧ Pending t pgPOWER 1 ∧
        t.get pgPOWER IGNORED_CAUSE_REASON = 14 ∧ t.power = s.power ∧ Beside s t [pgPOWER]))) ∧
  (∀ (s : State) (d n : Nat), d < 52 →
    ((s.domain d).entering = none → exec (.powerEntryStep d n) s = .next (s.advance n)) ∧
    (∀ target step, (s.domain d).entering = some (target, step) →
      ((s.domain d).stopWake = none → step ≤ 3 → step ≠ target + 1 → ∃ t, exec (.powerEntryStep d n) s = .next t ∧
        t.domain d = { s.domain d with entering := some (target, step + 1) } ∧ t.domState d = step - 1 ∧
        Beside s t [pgPOWER]) ∧
      ((s.domain d).stopWake = none → target = 2 → step = 3 → s.power.phase ≠ 2 →
        ∃ t, exec (.powerEntryStep d n) s = .next t ∧ t.domain d = DomainSt.reset ∧ t.domState d = 2 ∧
          t.get pgPOWER POWER_SLEEP_STATUS_OUTCOME (d + 1) = 1 ∧ Pending t pgPOWER 0 ∧ Beside s t [pgPOWER]) ∧
      (∀ src, (s.domain d).stopWake = some src → src < 16 → step ≤ 3 → ∃ t, exec (.powerEntryStep d n) s = .next t ∧
        t.domain d = { DomainSt.reset with waking := some (src, 0), wakeAt := timeAt s n } ∧
        t.get pgPOWER POWER_SLEEP_STATUS_OUTCOME (d + 1) = 4 ∧
        t.get pgPOWER POWER_SLEEP_STATUS_WAKE_SRC (d + 1) = src ∧ Beside s t [pgPOWER]) ∧
      (36 ≤ d → target = 3 → step = 4 → (s.domain d).stopWake = none → s.power.phase ≠ 2 →
        SMap.wf (fun _ => SortSt.reset) s.forme.sorts = true →
        ∃ t, exec (.powerEntryStep d n) s = .next t ∧ t.domState d = 3 ∧ t.domain d = DomainSt.reset ∧
          t.get pgPOWER POWER_SLEEP_STATUS_OUTCOME (d + 1) = 1 ∧ RegsKept s t [pgPOWER] ∧ MemoryKept s t ∧
          ∀ k, t.sort k = if k / 65536 = d - 36 then { SortSt.reset with
            mem := (s.sort k).mem, bad := (s.sort k).bad, weak := (s.sort k).weak } else s.sort k))) ∧
  (∀ (s : State) (d n src target : Nat), d < 52 → (s.domain d).waking = some (src, target) → src < 16 →
    let ready := (s.domain d).wakeAt + (if s.domState d = 2 then 40000 else if s.domState d = 3 then 350000 else 20)
    (ready ≤ timeAt s n → d = 3 ∨ s.asleep 3 = false → d ≠ 35 ∨ s.domState 0 = 0 → target = 0 ∨ target = 2 →
      ∃ t, exec (.domainWakeComplete d n) s = .next t ∧ t.domState d = target ∧ (t.domain d).waking = none ∧
        t.get pgPOWER POWER_SLEEP_STATUS_WAKE_SRC (d + 1) = src ∧ Pending t pgPOWER 0 ∧
        (2 ≤ s.domState d → Counted s t pgPOWER POWER_WAKES) ∧ MemoryKept s t ∧ SortsKept s t ∧ t.cores = s.cores) ∧
    (timeAt s n < ready ∨ (d ≠ 3 ∧ s.asleep 3 = true) ∨ (d = 35 ∧ s.domState 0 ≠ 0) →
      exec (.domainWakeComplete d n) s = .next (s.advance n))) ∧
  (∀ (s : State) (d n : Nat), Resting s d → s.domState d = 1 →
    ∃ t, exec (.domainWakeComplete d n) s = .next t ∧ t.domState d = 0 ∧ t.power = s.power ∧ Beside s t [pgPOWER]) ∧
  (∀ (s : State) (d nc : Nat),
    let quiet : Prop := d < 52 ∧ d ≠ 0 ∧ d ≠ 35 ∧ s.domUp d = true ∧ s.domState d = 0 ∧ (s.domain d).entering = none ∧
      (s.domain d).waking = none ∧ s.on pgPOWER POWER_IDLE_CFG_AUTO (d + 1) = true ∧ s.workPending d = false ∧
      s.get pgPOWER POWER_IDLE_CFG_IDLE_DELAY_NC (d + 1) ≤ nc
    (quiet → ∃ t, exec (.idleEntry d nc) s = .next t ∧ t.domState d = 1 ∧ t.power = s.power ∧ Beside s t [pgPOWER]) ∧
    (¬ quiet → exec (.idleEntry d nc) s = .next s))

/-- R621 to R625, R630 to R634, R647: a raise is counted, coalesced and delivered, or held while the network sleeps; a
filtered line raises its source on a selected edge; a software source rings a mailbox; unmasking sends a pending message. -/
def Obligations.EventSources : Prop :=
  (∀ (s : State) (k n : Nat), k < 450 → s.asleep 3 = false →
    let acc := SMap.get 0 s.evt.acc k + 1
    let first := if acc = 1 then timeAt s n else SMap.get 0 s.evt.age k
    let time := s.get pgEVTTIME (EVT_SRC_COAL_TIME_AC.at k)
    let due : Prop := s.get pgEVTCFG (EVT_SRC_CFG_COUNT.at k) ≤ acc ∨ (time ≠ 0 ∧ time ≤ timeAt s n / 40 - first / 40)
    let host : Prop := s.srcEnabled k = true ∧ s.get pgEVTCFG (EVT_SRC_CFG_TARGET.at k) = 3
    let v := s.get pgEVTCFG (EVT_SRC_CFG_VECTOR.at k)
    ∃ t, exec (.eventRaise k n) s = .next t ∧ t.evt.incoming = s.evt.incoming.erase k ∧
      t.get pgEVTCNT (EVT_SRC_CNT.at k) = min 255 (s.get pgEVTCNT (EVT_SRC_CNT.at k) + 1) ∧
      (¬ due → SMap.get 0 t.evt.acc k = acc ∧ t.srcPending k = s.srcPending k ∧ t.out = s.out) ∧
      (due → SMap.get 0 t.evt.acc k = 0 ∧ t.srcPending k = true) ∧
      (∀ j, j < 512 → j ≠ k → t.srcPending j = s.srcPending j ∧ SMap.get 0 t.evt.acc j = SMap.get 0 s.evt.acc j) ∧
      (due → host → s.vectorMasked v = true → t.msixPending v = true ∧ t.out = s.out) ∧
      (due → host → s.vectorMasked v = false → t.out = s.out ++ [.msix v ((s.reg 0x3FFE (16 * v)).toNat +
        (s.reg 0x3FFE (16 * v + 4)).toNat * 2 ^ 32) (s.reg 0x3FFE (16 * v + 8)).toNat]) ∧
      Beside s t [pgEVTCFG, pgEVTCNT, pgPOWER, 0x3FFF]) ∧
  (∀ (s : State) (k n : Nat), s.asleep 3 = true → k < 450 → ∃ t, exec (.eventRaise k n) s = .next t ∧
    t.evt.held = s.evt.held ++ [k] ∧ t.evt.acc = s.evt.acc ∧ t.regs = s.regs ∧ Beside s t []) ∧
  (∀ (s : State) (k n : Nat),
    let acc := SMap.get 0 s.evt.acc k
    let time := s.get pgEVTTIME (EVT_SRC_COAL_TIME_AC.at k)
    (acc ≠ 0 → time ≠ 0 → time ≤ timeAt s n / 40 - SMap.get 0 s.evt.age k / 40 → k < 512 →
      ∃ t, exec (.coalesceTimeout k n) s = .next t ∧ t.srcPending k = true ∧ SMap.get 0 t.evt.acc k = 0 ∧
        Beside s t [pgEVTCFG, pgPOWER, 0x3FFF]) ∧
    (acc < s.get pgEVTCFG (EVT_SRC_CFG_COUNT.at k) → acc = 0 ∨ time = 0 ∨
        timeAt s n / 40 - SMap.get 0 s.evt.age k / 40 < time →
      exec (.coalesceTimeout k n) s = .next (s.advance n))) ∧
  (∀ (s : State) (n k : Nat) (level : Bool), n < 16 →
    let young : Prop := timeAt s k < (s.line n).since + 40 * s.get pgEVT (EVT_FILT_STABLE_AC.at n)
    (young → exec (.evtFilterSettle n k) s = .next (s.advance k)) ∧
    (young → level = (s.line n).sync → exec (.evtLineChange n level k) s = .next (s.advance k)) ∧
    (young → level ≠ (s.line n).sync → ∃ t, exec (.evtLineChange n level k) s = .next t ∧
      t.line n = { s.line n with sync := level, since := timeAt s k, timing := !(s.line n).timing } ∧
      ((s.line n).timing = true → Counted s t pgEVT EVT_FILTER_REJECTS) ∧ t.evt.acc = s.evt.acc ∧ Beside s t [pgEVT]) ∧
    ((s.line n).settled = true → (s.line n).timing = false → level ≠ (s.line n).sync →
      ∃ t, exec (.evtLineChange n level k) s = .next t ∧
        t.line n = { s.line n with sync := level, since := timeAt s k, timing := true } ∧ t.evt.acc = s.evt.acc ∧
        Beside s t [pgEVT]) ∧
    (¬ young → (s.line n).settled = false → ∃ t, exec (.evtFilterSettle n k) s = .next t ∧
      t.line n = { s.line n with filtered := (s.line n).sync, timing := false, settled := true } ∧ t.evt.acc = s.evt.acc ∧
      Beside s t [pgEVT]) ∧
    (¬ young → (s.line n).settled = true → (s.line n).timing = true → (s.line n).filtered ≠ (s.line n).sync → s.asleep 3 = false →
      bit (s.get pgPOWER POWER_EVT_WAKE_LINES) n = false →
      let e := s.get pgEVT (EVT_FILT_EDGE.at n)
      let selected : Prop := e = 2 ∨ (e = 0 ∧ (s.line n).sync = true) ∨ (e = 1 ∧ (s.line n).sync = false)
      ∃ t, exec (.evtFilterSettle n k) s = .next t ∧ t.line n = { s.line n with filtered := (s.line n).sync, timing := false } ∧
        (selected → t.get pgEVTCNT (EVT_SRC_CNT.at n) = min 255 (s.get pgEVTCNT (EVT_SRC_CNT.at n) + 1)) ∧
        (¬ selected → t.evt.acc = s.evt.acc) ∧ Beside s t [pgEVT, pgEVTCFG, pgEVTCNT, pgPOWER, 0x3FFF])) ∧
  (∀ (s : State) (m idx n : Nat), s.accepts m pgEVT 0x084 = true → idx < 64 → s.asleep 3 = false →
    (idx ≠ 0 → idx ≠ 2 → ∃ t, exec (.softRaise m idx n) s = .next t ∧
      t.get pgEVTCNT (EVT_SRC_CNT.at (64 + idx)) = min 255 (s.get pgEVTCNT (EVT_SRC_CNT.at (64 + idx)) + 1) ∧
      t.colo = s.colo ∧ Beside s t [pgEVT, pgEVTCFG, pgEVTCNT, pgPOWER, 0x3FFF]) ∧
    (∀ box, box < 2 → idx = 2 * box → s.firmware = true → s.memOk (mbBase box) 64 = true → (∀ w, s.isBad w = false) →
      (s.byte (mbBase box + 8) ≠ 255#8 → box ∉ s.colo.taken → ∃ t, exec (.softRaise m idx n) s = .next t ∧
        t.colo.taken = s.colo.taken ++ [box] ∧ t.byte (mbBase box + 8) = 255#8 ∧
        ∀ a, a ≠ mbBase box + 8 → t.byte a = s.byte a) ∧
      (s.byte (mbBase box + 8) = 255#8 ∨ box ∈ s.colo.taken → ∃ t, exec (.softRaise m idx n) s = .next t ∧
        t.colo.taken = s.colo.taken ∧ Counted s t pgCOLOPHON COLOPHON_MB_BUSY_RINGS ∧ MemoryKept s t))) ∧
  (∀ (s : State) (v : Nat), v < 256 →
    let sent := Output.msix v ((s.reg 0x3FFE (16 * v)).toNat + (s.reg 0x3FFE (16 * v + 4)).toNat * 2 ^ 32)
      (s.reg 0x3FFE (16 * v + 8)).toNat
    (∃ t, exec (.msixUnmask (some v)) s = .next t ∧ (t.reg 0x3FFE (16 * v + 12)).getLsbD 0 = false ∧
      (s.msixFmask = false → s.msixPending v = true → t.out = s.out ++ [sent] ∧ t.msixPending v = false) ∧
      (s.msixFmask = true ∨ s.msixPending v = false → t.out = s.out ∧ t.msixPending v = s.msixPending v) ∧
      Beside s t [0x3FFE, 0x3FFF]) ∧
    (∃ t, exec (.msixUnmask none) s = .next t ∧ t.msixFmask = false ∧
      (s.msixPending v = true → (s.reg 0x3FFE (16 * v + 12)).getLsbD 0 = false → sent ∈ t.out ∧ t.msixPending v = false) ∧
      Beside s t [0x3FFF]))

/-- R183, R196 to R203, R205: a drive commit and its validation; a fade requested, shown, ended and cleared.
Choices of the model: notes/assumptions/51.md. -/
def Obligations.DriveTableAndFade : Prop :=
  (∀ (s : State) (m : Nat), s.accepts m pgDRIVE 0x068 = true →
    (s.drive.validating = false → s.drive.waiting = none → ∃ t, exec (.driveCommit m) s = .next t ∧
      t.drive = { s.drive with validating := true, image :=
        (s.pair pgDRIVE DRIVE_IMAGE_LO DRIVE_IMAGE_HI, s.get pgDRIVE DRIVE_IMAGE_ENTRIES) } ∧ Beside s t [pgDRIVE]) ∧
    (s.drive.validating = true ∨ s.drive.waiting ≠ none → ∃ t, exec (.driveCommit m) s = .next t ∧ t.drive = s.drive ∧
      t.get pgDRIVE DRIVE_COMMIT_STATUS_ERROR = 4 ∧ t.get pgDRIVE IGNORED_CAUSE_REASON = 9 ∧ Pending t pgDRIVE 4 ∧
      Beside s t [pgDRIVE])) ∧
  (∀ s : State, s.drive.validating = false → exec .driveValidationDone s = .next s) ∧
  (∀ s : State, s.drive.validating = true →
    let n := s.drive.image.2
    let base := s.drive.image.1
    let es := ((List.range n).map fun k => (k, driveEntryOf (s.bytes (base + 16 * k) 16))).filter (·.2.valid)
    let refused := fun (code entry : Nat) => ∃ t, exec .driveValidationDone s = .next t ∧
      t.get pgDRIVE DRIVE_COMMIT_STATUS_ERROR = code ∧ t.get pgDRIVE DRIVE_COMMIT_STATUS_ERR_ENTRY = entry ∧
      t.get pgDRIVE IGNORED_CAUSE_REASON = 12 ∧ Pending t pgDRIVE 4 ∧ t.drive = { s.drive with validating := false } ∧
      MemoryKept s t ∧ SortsKept s t
    (n = 0 ∨ 1024 < n → refused 1 0) ∧
    (1 ≤ n → n ≤ 1024 → (∀ k, k < n → Readable s 17 (base + 16 * k) 16) → (∀ w, s.isWeak w = false) →
      (∀ c k, s.driveFault es = some (c, k) → refused c k) ∧
      (s.driveFault es = none → s.running = true → ∃ t, exec .driveValidationDone s = .next t ∧
        t.drive = { s.drive with validating := false, waiting := some es } ∧ t.regs = s.regs ∧ Beside s t []) ∧
      (s.driveFault es = none → s.running = false → ∃ t, exec .driveValidationDone s = .next t ∧
        t.drive = { s.drive with validating := false, table := es, waiting := none } ∧ Pending t pgDRIVE 3 ∧
        Beside s t [pgDRIVE]))) ∧
  (∀ (s : State) (m n : Nat) (v : W32), s.accepts m pgDRIVE 0x040 = true →
    let state := s.get pgDRIVE DRIVE_FADE_STATUS_STATE
    let dev := (s.advance n).dev
    (v.getLsbD 2 = false → ∃ t, exec (.fadeReqWrite m v n) s = .next t ∧
      bit (t.get pgDRIVE DRIVE_FADE_STATUS_CAUSES) 3 = true ∧ t.on pgDRIVE DRIVE_CTRL_ENABLE = v.getLsbD 0 ∧
      (state = 0 → t.get pgDRIVE DRIVE_FADE_STATUS_STATE = 1 ∧ t.drive.t0 = dev ∧ (s.pending = [] → t.drive.fadeCause = 4) ∧
        t.drive.fadeT = s.get pgDRIVE DRIVE_FADE_MS_RAMP_MS * 1000000 ∧ t.drive.afterRamp = 3 ∧ Pending t pgDRIVE 0) ∧
      (state ≠ 0 → t.get pgDRIVE DRIVE_FADE_STATUS_STATE = state ∧ t.drive = s.drive ∧ t.out = s.out) ∧
      Beside s t drivePages) ∧
    (v.getLsbD 1 = false → s.frisket.fadeReq = false →
      let bad : Prop := state ≠ 2 ∨ s.drive.abortPlane = true ∨ bit (s.get pgDRIVE DRIVE_FADE_STATUS_CAUSES) 0 = true
      (bad → ∃ t, exec (.fadeClear m v n) s = .next t ∧ t.get pgDRIVE DRIVE_FADE_STATUS_STATE = state ∧
        t.get pgDRIVE DRIVE_FADE_STATUS_CAUSES = s.get pgDRIVE DRIVE_FADE_STATUS_CAUSES ∧
        t.get pgDRIVE IGNORED_CAUSE_REASON = 10 ∧ t.drive = s.drive ∧ Beside s t [pgDRIVE]) ∧
      (¬ bad → ∃ t, exec (.fadeClear m v n) s = .next t ∧ t.get pgDRIVE DRIVE_FADE_STATUS_STATE = 0 ∧
        t.get pgDRIVE DRIVE_FADE_STATUS_CAUSES = 0 ∧ t.drive = { s.drive with cleared := true, afterRamp := 0 } ∧
        Beside s t [pgDRIVE]))) ∧
  (∀ (s : State) (n : Nat),
    let state := s.get pgDRIVE DRIVE_FADE_STATUS_STATE
    let dev := (s.advance n).dev
    (state = 1 → s.drive.t0 + s.drive.fadeT ≤ dev → ∃ t, exec (.fadeDone n) s = .next t ∧
      t.get pgDRIVE DRIVE_FADE_STATUS_STATE = 2 ∧ Pending t pgDRIVE 1 ∧ t.drive = s.drive ∧ Beside s t [pgDRIVE]) ∧
    (state ≠ 1 ∨ dev < s.drive.t0 + s.drive.fadeT → exec (.fadeDone n) s = .next (s.advance n)) ∧
    (state = 1 → ∃ t, exec (.fadeFrameRepeat n) s = .next t ∧ t.drive.afterRamp = s.drive.afterRamp ∧
      t.get pgDRIVE DRIVE_FADE_STATUS_STATE = 1 ∧ Beside s t drivePages) ∧
    (∀ k, state = 2 → s.drive.afterRamp = k + 1 → ∃ t, exec (.fadeFrameRepeat n) s = .next t ∧ t.drive.afterRamp = k ∧
      Beside s t drivePages) ∧
    (state = 0 ∨ state = 3 ∨ (state = 2 ∧ s.drive.afterRamp = 0) → exec (.fadeFrameRepeat n) s = .next (s.advance n)) ∧
    (∀ g p, g < 64 → p < 16 → state = 1 →
      (∀ x, x < 64 → (s.on pgDRIVE DRIVE_GRP_CFG_VALID (x + 1) && s.on pgDRIVE DRIVE_GRP_CFG_FADE (x + 1)) = decide (x = g)) →
      s.get pgDRIVE DRIVE_GRP_CFG_PORTS (g + 1) = 2 ^ p →
      let seq := SMap.get 0 s.drive.grpSeq g
      let body := bytesLE 1 s.drive.fadeCause ++ bytesLE 1 0 ++ bytesLE 2 (s.drive.fadeT / 1000000) ++ bytesLE 4 0 ++
        bytesLE 8 s.drive.t0 ++ List.replicate 16 0
      let hdr := sheetHdrBytes ⟨1, 5, 0, 0, g, 0, seq, 0, 0, 0, 32, 0, s.drive.t0⟩
      let frame := ethBytes (s.pair pgDRIVE DRIVE_GRP_MAC_LO DRIVE_GRP_MAC_HI (g + 1)) (s.portMac p) [] (s.secTag p 66)
        s.sheetType (hdr ++ body)
      (s.canSend p = true → (s.port p).txRoom = true → ∃ t, exec (.fadeFrameRepeat n) s = .next t ∧
        SMap.get 0 t.drive.grpSeq g = (seq + 1) % 65536 ∧
        Output.frame p true frame ∈ t.out ∧ ((s.port p).txPn + 1 < pnLimit → Sends s t p true frame)) ∧
      (s.canSend p = false ∨ (s.port p).txRoom = false → ∃ t, exec (.fadeFrameRepeat n) s = .next t ∧ t.out = s.out ∧
        t.get pgDRIVE DRIVE_GRP_MISSED (g + 1) = min (s.get pgDRIVE DRIVE_GRP_MISSED (g + 1) + 1) (2 ^ DRIVE_GRP_MISSED.width - 1))))

/-- R137 to R150, R161 to R163, R168 to R178, R154 to R160, R164, R178, R561, R664: the parser's decisions in their order, the
window of R146, and where one sample goes; an imposition commit, its validation, the copy scrub, and the capture of a slot.
Choices of the model: notes/assumptions/51.md. -/
def Obligations.SheetAndImposition : Prop :=
  (∀ (s : State) (p n : Nat) (f : EthFrame), p < 16 →
    ((p, f) ∉ s.feed.passed → exec (.sheetDataFrame p f n) s = .next (s.advance n)) ∧
    ((p, f) ∈ s.feed.passed → s.forme.io = none →
    let h := sheetHdrOf f.body
    let counts := fun (c : Fld) => ∃ t, exec (.sheetDataFrame p f n) s = .next t ∧ Counted s t pgSHEET c ∧ Taken s t p f ∧
      t.impose = s.impose ∧ Beside s t [pgSHEET]
    (deepNest f = true → s.feed.excq.length < 16 → ∃ t, exec (.sheetDataFrame p f n) s = .next t ∧
      t.feed.excq = s.feed.excq ++ [f] ∧ Counted s t pgSHEET SHEET_DEEP_NEST ∧ (s.feed.excq = [] → Pending t pgSHEET 1) ∧
      t.impose = s.impose ∧ Beside s t [pgSHEET]) ∧
    (deepNest f = true → 16 ≤ s.feed.excq.length → counts SHEET_DEEP_NEST ∧ counts SHEET_EXCQ_DROPS) ∧
    (deepNest f = false →
      (f.body.length < 32 → counts (SHEET_PORT_DISCARDS.at p)) ∧
      (32 ≤ f.body.length →
        (h.version ≠ 1 → counts SHEET_BAD_VERSION) ∧
        (h.version = 1 → h.kind ≠ 1 → h.kind ≠ 3 → counts SHEET_BAD_KIND) ∧
        (h.version = 1 → h.kind = 3 → ∃ t, exec (.sheetDataFrame p f n) s = .next t ∧ t.regs = s.regs ∧ t.impose = s.impose ∧
          Taken s t p f ∧ Beside s t []) ∧
        (h.version = 1 → h.kind = 1 → s.frameEntry p f.sec h.handle = none → counts SHEET_BAD_HANDLE))))) ∧
  (∀ (s : State) (p n i : Nat) (f : EthFrame) (st : StreamEntry), p < 16 → DataFrame s p i f st →
    let h := sheetHdrOf f.body
    let counts := fun (c : Fld) => ∃ t, exec (.sheetDataFrame p f n) s = .next t ∧ Counted s t pgSHEET c ∧
      (t.ft i).lastFrame = timeAt s n ∧ t.impose = s.impose ∧ Beside s t [pgSHEET]
    let shaped : Prop := h.samples ≠ 0 ∧ h.channels ≠ 0 ∧ h.chOff + h.channels ≤ st.channels
    (h.format ≠ st.format → counts SHEET_BAD_FORMAT) ∧
    (h.format = st.format → ¬ shaped → counts SHEET_BAD_SHAPE) ∧
    (h.format = st.format → shaped → h.len ≠ h.samples * h.channels * formatSize h.format ∨ h.len ≠ f.body.length - 32 →
      counts (SHEET_PORT_DISCARDS.at p)) ∧
    (h.format = st.format → shaped → h.len = h.samples * h.channels * formatSize h.format → h.len = f.body.length - 32 →
      (∃ t, exec (.sheetDataFrame p f n) s = .next t ∧
        t.ft i = { s.ft i with lastFrame := timeAt s n, tags := f.tags, mac := f.src,
                               rxSeq := SMap.set none (s.ft i).rxSeq h.stream (some h.seq) } ∧
        (∀ last, SMap.get none (s.ft i).rxSeq h.stream = some last →
          let d := (h.seq + 131072 - last - 1) % 65536
          (1 ≤ d → d ≤ 32767 → Counted s t pgSHEET SHEET_SEQ_GAPS) ∧ (32767 < d → Counted s t pgSHEET SHEET_SEQ_OLD)) ∧
        (bit h.flags 1 = true → Counted s t pgSHEET SHEET_FEEDER_UNLOCKED) ∧ SortsKept s t) ∧
      (∀ k m, h.samples = 1 → h.channels = 1 → SlotTakes s i k (st.first + h.chOff) st → s.impose.openBlock = some m →
        let im := s.slot k
        let d := s.dynOf k
        let w := frameWord f.body h 0 0
        let stored := if w = im.marker then w ^^^ 1#32 else w
        let place := im.ringBase + 4 * (h.first % 2 ^ im.ringLog2)
        let cw := place / 64 * 64
        (h.first < d.nx → ∃ t, exec (.sheetDataFrame p f n) s = .next t ∧ t.dynOf k = { d with active := true } ∧
          t.pair pgSHEET SHEET_LATE_SAMPLES_LO SHEET_LATE_SAMPLES_HI =
            (s.pair pgSHEET SHEET_LATE_SAMPLES_LO SHEET_LATE_SAMPLES_HI + 1) % 2 ^ 64 ∧ MemoryKept s t) ∧
        (d.nx ≤ h.first → (m + 2) * im.block ≤ h.first → ∃ t, exec (.sheetDataFrame p f n) s = .next t ∧
          t.dynOf k = { d with active := true } ∧
          t.pair pgSHEET SHEET_EARLY_SAMPLES_LO SHEET_EARLY_SAMPLES_HI =
            (s.pair pgSHEET SHEET_EARLY_SAMPLES_LO SHEET_EARLY_SAMPLES_HI + 1) % 2 ^ 64 ∧ MemoryKept s t) ∧
        (d.nx = h.first → h.first < (m + 2) * im.block → ∃ t, exec (.sheetDataFrame p f n) s = .next t ∧
          t.dynOf k = { d with nx := h.first + 1, received := d.received + 1, active := true, ovr := d.ovr || bit h.flags 0 } ∧
          (w = im.marker → Counted s t pgSHEET SHEET_MARKER_CLASH) ∧
          (im.stone = true → place % 64 ≠ 60 →
            let a := 0x03400000 + h.first / im.block % 4 * 0x100000 + 4 * (im.stoneWord + h.first % im.block)
            Writable s 11 a 4 → Stored s t a (bytesLE 4 stored.toNat)) ∧
          (im.stone = false → place % 64 ≠ 60 → MemoryKept s t ∧
            ∀ b, SMap.get none (SMap.get [] t.impose.gather cw) b = if place ≤ b ∧ b < place + 4 then
              some ((bytesLE 4 stored.toNat).getD (b - place) 0) else SMap.get none (SMap.get [] s.impose.gather cw) b) ∧
          (∀ bs, im.stone = false → place % 64 = 60 → runsOf (SMap.get [] s.impose.gather cw) = [(cw, bs)] → bs.length = 60 →
            Writable s 11 cw 64 → Stored s t cw (bs ++ bytesLE 4 stored.toNat) ∧ SMap.get [] t.impose.gather cw = [])) ∧
        (d.nx < h.first → h.first < (m + 2) * im.block → ∃ t, exec (.sheetDataFrame p f n) s = .next t ∧
          t.dynOf k = { d with nx := h.first + 1, received := d.received + 1, gapfill := d.gapfill + (h.first - d.nx), active := true,
                               ovr := d.ovr || bit h.flags 0 })))) ∧
  (∀ s : State, (s.impose.openBlock = none ∨ s.impose.openBlock = some 0 → exec .stoneDataReady s = .next s) ∧
    (∀ m, s.impose.openBlock = some (m + 1) →
      exec .stoneDataReady s = .next { s with impose := { s.impose with ready := some m } })) ∧
  (∀ (s : State) (m : Nat), s.accepts m pgIMPOSE 0x04C = true →
    let busy : Prop := s.on pgIMPOSE IMPOSE_STATUS_VALIDATING = true ∨ s.on pgIMPOSE IMPOSE_STATUS_WAITING = true
    (¬ busy → ∃ t, exec (.imposeCommit m) s = .next t ∧ t.on pgIMPOSE IMPOSE_STATUS_VALIDATING = true ∧
      t.impose = { s.impose with image := (s.pair pgIMPOSE IMPOSE_IMAGE_LO IMPOSE_IMAGE_HI / 64 * 64,
                                           s.get pgIMPOSE IMPOSE_IMAGE_SLOTS_SLOTS) } ∧ Beside s t [pgIMPOSE]) ∧
    (busy → ∃ t, exec (.imposeCommit m) s = .next t ∧ t.impose = s.impose ∧ IgnoredBy s t pgIMPOSE 0x04C 9)) ∧
  (∀ s : State, s.on pgIMPOSE IMPOSE_STATUS_VALIDATING = false → exec .imposeValidationDone s = .next s) ∧
  (∀ s : State, s.on pgIMPOSE IMPOSE_STATUS_VALIDATING = true →
    let n := s.impose.image.2
    let base := s.impose.image.1
    let es := ((List.range n).map fun k => (k, imageOf (s.bytes (base + 64 * k) 64))).filter (·.2.valid)
    let refused := fun (code slot : Nat) => ∃ t, exec .imposeValidationDone s = .next t ∧
      t.get pgIMPOSE IMPOSE_STATUS_ERROR = code ∧ t.get pgIMPOSE IMPOSE_STATUS_ERR_SLOT = slot ∧
      t.on pgIMPOSE IMPOSE_STATUS_VALIDATING = false ∧ t.get pgIMPOSE IGNORED_CAUSE_REASON = 12 ∧ Pending t pgIMPOSE 1 ∧
      t.impose = s.impose ∧ MemoryKept s t ∧ SortsKept s t
    (n = 0 ∨ 65536 < n → refused 1 0) ∧
    (1 ≤ n → n ≤ 65536 → (∀ k, k < n → Readable s 17 (base + 64 * k) 64) → (∀ w, s.isWeak w = false) →
      (∀ k x, (k, x) ∈ es → (x.rate = 0 ∨ 204800 < x.rate ∨ x.ringLog2 < 10 ∨ 30 < x.ringLog2 ∨ x.ringBase % 256 ≠ 0) →
        (∀ j y, (j, y) ∈ es → j < k → badEntry y = false) → refused 2 k) ∧
      (∀ c k, s.imposeFault es = some (c, k) → refused c k) ∧
      (s.imposeFault es = none → s.on pgSTONE STONE_LEDGER_STATUS_CHECKING = false →
        let need := ceilDiv ((es.map (·.2.rate)).sum * 4) 1000000
        let sum := ledgerSum s.mem.ledger
        (s.get pgSTONE STONE_LEDGER_CAPACITY < need + sum → refused 11 ((es.head?.map (·.1)).getD 0)) ∧
        (need + sum ≤ s.get pgSTONE STONE_LEDGER_CAPACITY → s.running = false → ∃ t, exec .imposeValidationDone s = .next t ∧
          (∀ k, t.slot k = SMap.get SlotImage.none es k) ∧
          (∀ x ∈ es, s.slotChanged x.1 x.2 = true → t.dynOf x.1 = { SlotDyn.zero with nx := 0, n0 := 0 }) ∧
          t.get pgIMPOSE IMPOSE_GENERATION_GENERATION = (s.get pgIMPOSE IMPOSE_GENERATION_GENERATION + 1) % 65536 ∧
          t.mem.entry0 = need ∧ t.mem.entry0New = none ∧ Pending t pgIMPOSE 0 ∧
          t.on pgIMPOSE IMPOSE_STATUS_VALIDATING = false ∧ Beside s t [pgIMPOSE, pgSTONE]) ∧
        (need + sum ≤ s.get pgSTONE STONE_LEDGER_CAPACITY → s.running = true → ∃ t, exec .imposeValidationDone s = .next t ∧
          t.impose = { s.impose with waiting := some { table := es, firstBlock := none, dyn := [] } } ∧
          t.on pgIMPOSE IMPOSE_STATUS_WAITING = true ∧ t.mem.entry0 = s.mem.entry0 ∧ t.mem.entry0New = some need ∧
          Beside s t [pgIMPOSE, pgSTONE])))) ∧
  (∀ (s : State) (k : Nat), k < 65536 →
    let sound : Prop := ∀ j, let x := SMap.get SlotCopy.none s.impose.copyA j
      x = SMap.get SlotCopy.none s.impose.copyB j ∧ (x = SlotCopy.none ∨ x.crc = crc32 (imageBytes x.image))
    (sound → exec (.imposeTableScrub []) s = .next s) ∧
    (∀ one, sound → ∃ t, exec (.imposeTableScrub [(k, one, !one)]) s = .next t ∧
      (∀ j, SMap.get SlotCopy.none t.impose.copyA j = SMap.get SlotCopy.none s.impose.copyA j ∧
        SMap.get SlotCopy.none t.impose.copyB j = SMap.get SlotCopy.none s.impose.copyB j) ∧
      t.impose.dyn = s.impose.dyn ∧ Reported s t 0x03A 20 0 k ∧ Pending t pgIMPOSE 2 ∧ Beside s t [pgIMPOSE]) ∧
    (sound → ∃ t, exec (.imposeTableScrub [(k, true, true)]) s = .next t ∧ t.dynOf k = { s.dynOf k with faulted := true } ∧
      ((s.slot k).valid = true → t.slotState k = 4) ∧ Reported s t 0x03B 20 0 k ∧ Pending t pgIMPOSE 2 ∧ Beside s t [pgIMPOSE]) ∧
    (∀ m, s.accepts m pgIMPOSE 0x060 = true → ∃ t, exec (.slotIndexCapture m k) s = .next t ∧
      t.get pgIMPOSE IMPOSE_SLOT_INDEX_INDEX = k ∧ t.get pgIMPOSE IMPOSE_SLOT_STATE_STATE = s.slotState k ∧
      t.on pgIMPOSE IMPOSE_SLOT_STATE_OVR = (s.dynOf k).ovr ∧ t.dynOf k = { s.dynOf k with ovr := false } ∧
      ((s.dynOf k).received < 2 ^ 64 → t.pair pgIMPOSE IMPOSE_SLOT_RECEIVED_LO IMPOSE_SLOT_RECEIVED_HI = (s.dynOf k).received) ∧
      ((s.dynOf k).gapfill < 2 ^ 64 → t.pair pgIMPOSE IMPOSE_SLOT_GAPFILL_LO IMPOSE_SLOT_GAPFILL_HI = (s.dynOf k).gapfill) ∧
      ((s.dynOf k).nx < 2 ^ 64 → t.pair pgIMPOSE IMPOSE_SLOT_NEXT_LO IMPOSE_SLOT_NEXT_HI = (s.dynOf k).nx ∧
        t.pair pgIMPOSE IMPOSE_SLOT_EXPECTED_LO IMPOSE_SLOT_EXPECTED_HI = (s.dynOf k).nx - (s.dynOf k).n0) ∧
      Beside s t [pgIMPOSE]))

/-- R494 to R498, R501, R511, R516, R518, R483, R487, R493, R507 to R510, R512: chains submitted, refused for want of room,
started, held back by a hazard, flushed; a chain's end with its sums and products stored, a copy, an error while it runs, and
what a discarded chain leaves. -/
def Obligations.WebEngine : Prop :=
  (∀ (s : State) (w m : Nat) (v : W32), w < 8 → s.accepts m (pgWEB w) 0x050 = true → s.asleep (4 + w) = false →
    let seq := s.get (pgWEB w) WEB_CREC_HEAD
    let desc := (s.get (pgWEB w) WEB_SUBMIT_LO + v.toNat % 2 ^ 16 * 2 ^ 32) / 128 * 128
    let ref : ChainRef := { desc := desc, seq := seq, src := 0, ticket := 0 }
    (m = 0 → s.webDepth w 0 < 64 - s.get (pgWEB w) WEB_QCFG_JOB_SLOTS → ∃ t, exec (.webSubmit w m v) s = .next t ∧
      t.web w = { s.web w with standing := (s.web w).standing ++ [ref], recs := (s.web w).recs ++ [{ ref := ref, fin := none }] } ∧
      t.get (pgWEB w) WEB_CREC_HEAD = (seq + 1) % 2 ^ 32 ∧ MemoryKept s t ∧ WebBeside s t w) ∧
    (m = 0 → 64 - s.get (pgWEB w) WEB_QCFG_JOB_SLOTS ≤ s.webDepth w 0 → (s.web w).recs = [] → (s.web w).running = [] →
      s.on (pgWEB w) WEB_CREC_CFG_EN = false →
      Refuses s (.webSubmit w m v) w ref 1 0 false (s.web w)) ∧
    (m ≠ 0 → ∃ t, exec (.webSubmit w m v) s = .next t ∧ t.webs = s.webs ∧ IgnoredBy s t (pgWEB w) 0x050 2)) ∧
  (∀ (s : State) (w : Nat), w < 8 →
    ((s.web w).incoming = [] → exec (.jobChainSubmit w) s = .next s) ∧
    (∀ r rest, (s.web w).incoming = r :: rest → r.src ≠ 0 →
      let seq := s.get (pgWEB w) WEB_CREC_HEAD
      let ref : ChainRef := { r with seq := seq }
      (s.asleep (4 + w) = true → ∃ t, exec (.jobChainSubmit w) s = .next t ∧ t.webs = s.webs ∧ Beside s t [pgPOWER]) ∧
      (s.asleep (4 + w) = false → s.webDepth w 1 < s.get (pgWEB w) WEB_QCFG_JOB_SLOTS → ∃ t, exec (.jobChainSubmit w) s = .next t ∧
        t.web w = { s.web w with incoming := rest, job := (s.web w).job ++ [ref],
                                 recs := (s.web w).recs ++ [{ ref := ref, fin := none }] } ∧
        t.get (pgWEB w) WEB_CREC_HEAD = (seq + 1) % 2 ^ 32 ∧ MemoryKept s t ∧ WebBeside s t w) ∧
      (s.asleep (4 + w) = false → s.get (pgWEB w) WEB_QCFG_JOB_SLOTS ≤ s.webDepth w 1 → (s.web w).recs = [] → (s.web w).running = [] →
        s.on (pgWEB w) WEB_CREC_CFG_EN = false →
        Refuses s (.jobChainSubmit w) w ref 1 0 false { s.web w with incoming := rest }))) ∧
  (∀ (s : State) (w : Nat), w < 8 →
    ((s.web w).standing = [] → (s.web w).job = [] → exec (.chainStart w) s = .next s) ∧
    (s.webUp w = false ∨ s.on (pgWEB w) WEB_CTRL_ENABLE = false ∨ (s.web w).flushing ≠ [] ∨ 2 ≤ s.domState (4 + w) →
      exec (.chainStart w) s = .next s) ∧
    (∀ (ref : ChainRef) (taken : WebSt),
      let left := SMap.set [] (s.web w).checked ref.seq []
      ((s.web w).standing.head? = some ref ∧ ref.src = 0 ∧
          taken = { s.web w with standing := (s.web w).standing.drop 1, checked := left, hazard := false }) ∨
        ((s.web w).standing = [] ∧ (s.web w).job.head? = some ref ∧ ref.src ≠ 0 ∧
          taken = { s.web w with job := (s.web w).job.drop 1, checked := left, hazard := false }) →
      s.webUp w = true → s.on (pgWEB w) WEB_CTRL_ENABLE = true → (s.web w).flushing = [] → s.domState (4 + w) < 2 →
      let held := SMap.get [] (s.web w).checked ref.seq
      let fetched : Prop := held = [] ∧ Readable s (2 + w) ref.desc 128 ∧ s.inMemory (ref.desc, ref.desc + 127) = true ∧
        ∀ x, s.isWeak x = false
      let last : Prop := (s.web w).recs = [{ ref := ref, fin := none }] ∧ (s.web w).running = [] ∧
        s.on (pgWEB w) WEB_CREC_CFG_EN = false ∧ ref.seq < 2 ^ 32
      (fetched → last → let c := chainOf (s.bytes ref.desc 128)
        (c.format ≠ 1 → Refuses s (.chainStart w) w ref 3 c.tag c.evt taken) ∧
        (∀ cause, s.chainCause w (ref.src != 0) c = some cause → Refuses s (.chainStart w) w ref cause c.tag c.evt taken)) ∧
      (∀ d, (fetched ∧ d = s.bytes ref.desc 128 ∧ s.chainCause w (ref.src != 0) (chainOf d) = none) ∨ (held = d ∧ d ≠ []) →
        s.sleepingStacks ref (chainOf d) = [] →
        ((∀ r ∈ (s.web w).running, hazardWith (chainOf d) (chainOf r.desc) = false) → ∃ t, exec (.chainStart w) s = .next t ∧
          t.web w = { taken with running := taken.running ++ [{ ref := ref, desc := d, discard := none, done := false }] } ∧
          t.regs = s.regs ∧ MemoryKept s t ∧ WebBeside s t w) ∧
        ((∃ r ∈ (s.web w).running, hazardWith (chainOf d) (chainOf r.desc) = true) → (s.web w).hazard = false →
          ∃ t c, exec (.chainStart w) s = .next t ∧ t.web w = { s.web w with checked := c, hazard := true } ∧
            SMap.get [] c ref.seq = d ∧ Counted s t (pgWEB w) WEB_HAZARD_WAITS ∧ MemoryKept s t ∧ WebBeside s t w)))) ∧
  (∀ (s : State) (w m : Nat) (v : W32), w < 8 → s.accepts m (pgWEB w) 0x040 = true →
    (v.getLsbD 2 = false → ∀ c ∈ [Instr.webFlush w m v, .webEnableWrite w m v], ∃ t, exec c s = .next t ∧
      t.on (pgWEB w) WEB_CTRL_ENABLE = v.getLsbD 0 ∧ Beside s t [pgWEB w]) ∧
    (v.getLsbD 2 = true → ∀ c ∈ [Instr.webFlush w m v, .webEnableWrite w m v],
      let x := s.web w
      ((∃ r ∈ x.running, r.done = false) → ∃ t, exec c s = .next t ∧ t.on (pgWEB w) WEB_CTRL_ENABLE = v.getLsbD 0 ∧
        t.web w = { x with flushing := x.flushing ++ x.standing ++ x.job, standing := [], job := [], checked := [], hazard := false } ∧
        MemoryKept s t ∧ WebBeside s t w) ∧
      (x.running = [] → x.flushing = [] → s.on (pgWEB w) WEB_CREC_CFG_EN = false → ∃ t, exec c s = .next t ∧
        (t.web w).standing = [] ∧ (t.web w).job = [] ∧ (t.web w).flushing = [] ∧
        t.get (pgWEB w) WEB_FLUSHED = min (s.get (pgWEB w) WEB_FLUSHED + (x.standing.length + x.job.length)) (2 ^ 32 - 1) ∧
        MemoryKept s t ∧ WebBeside s t w))) ∧
  (∀ (s : State) (w i n : Nat), s.runningChain w i = none → exec (.chainEnd w i n) s = .next s ∧
    ∀ cause a, exec (.chainDiscard w i cause a) s = .next s) ∧
  (∀ (s : State) (w n : Nat) (r : ChainRun), RunsAlone s w r → r.discard = none →
    let c := chainOf r.desc
    let la := c.la.addr
    let lb := c.lb.addr
    let a := s.numAt la 4
    let b := s.numAt lb 4
    (∀ w, s.isBad w = false) → (∀ w, s.isWeak w = false) → OneElement c → s.memOk la 4 = true → s.memOk c.st.addr 4 = true →
    let stores := fun (x flags : Nat) => ∃ t, exec (.chainEnd w 0 n) s = .next t ∧ Stored s t c.st.addr (bytesLE 4 x) ∧
      t.pair (pgWEB w) WEB_CHAINS_LO WEB_CHAINS_HI = (s.pair (pgWEB w) WEB_CHAINS_LO WEB_CHAINS_HI + 1) % 2 ^ 64 ∧
      (c.evt = true → Pending t (pgWEB w) 0) ∧
      (∀ ring, 0 < r.ref.src → ring = r.ref.src - 1 → EndedAs s t ring r.ref.ticket
        { status := 0, cause := 0, kind := 3, result := r.ref.seq, cycles := min n 0xFFFFFFFF, result2 := flags * 2 ^ 16 }) ∧
      Ended s t w
    (c.nodes = 0 → c.lb.enable = false → stores a 0) ∧
    (∀ x ∈ [((2, 0), fun a b => fadd c.rm a b), ((2, 1), fun a b => fsub c.rm a b), ((1, 0), fun a b => fmul c.rm a b),
        ((8, 0), fun a b => fdiv c.rm a b)],
      c.nodes = 1 → c.node = [⟨x.1.1, x.1.2, 1, 2, 0, 0⟩] → c.stSrc = 8 → c.lb.enable = true → c.lb.type = 1 → c.lb.count = 1 →
      s.memOk lb 4 = true → stores (x.2 a b).1 (x.2 a b).2)) ∧
  (∀ (s : State) (w cause addr : Nat) (r : ChainRun), w < 8 → (s.web w).running = [r] → r.done = false → r.discard = none →
    2 ≤ cause → cause ≤ 6 → addr < 2 ^ 48 →
    let a := if cause = 4 ∨ cause = 6 then 0 else addr
    ((chainOf r.desc).namesAt cause addr = false → exec (.chainDiscard w 0 cause addr) s = .next s) ∧
    ((chainOf r.desc).namesAt cause addr = true → ∃ t, exec (.chainDiscard w 0 cause addr) s = .next t ∧
      t.web w = { s.web w with running := [{ r with discard := some (cause, addr) }] } ∧ Counted s t (pgWEB w) WEB_DISCARDED ∧
      Pending t (pgWEB w) 2 ∧ Reported s t (0x020 + w) 16 a cause ∧
      t.pair (pgWEB w) WEB_FAULT_ADDR_LO WEB_FAULT_ADDR_HI = a ∧ Voided s t r.ref.src ∧ MemoryKept s t ∧ WebBeside s t w)) ∧
  (∀ (s : State) (w n cause addr : Nat) (r : ChainRun), RunsAlone s w r → r.discard = some (cause, addr) → cause < 256 →
    let c := chainOf r.desc
    let lo := c.st.extent.1.toNat
    let len := (c.st.extent.2 - c.st.extent.1 + 1).toNat
    ∃ t, exec (.chainEnd w 0 n) s = .next t ∧ t.get (pgWEB w) WEB_LAST_ERROR_STATUS = 2 ∧
      t.get (pgWEB w) WEB_LAST_ERROR_CAUSE = cause ∧ t.get (pgWEB w) WEB_LAST_ERROR_TAG = c.tag ∧
      t.get (pgWEB w) WEB_LAST_SEQ = r.ref.seq ∧ (∀ x, x < lo ∨ lo + len ≤ x → t.byte x = s.byte x) ∧ Ended s t w)

/-- R520 to R523, R525 to R532, R551 to R553: the order in which a Stone bank serves its claims, an access served or refused,
the correction rewrites and the scrub. -/
def Obligations.StoneMemory : Prop :=
  (∀ (s : State) (b n : Nat) (claims : List ReelReq),
    let mine := claims.filter fun q => decide (q.addr / 2 ^ 21 = b)
    let first := fun (p : ReelReq → Bool) (q : ReelReq) => mine.find? p = some q
    let alone := fun (q : ReelReq) => exec (.stoneAccess b claims n) s = exec (.stoneAccess b [q] n) s
    let procs : Prop := ∃ q ∈ mine, q.master = 0 ∨ q.master = 1
    let scrubWaits : Prop := 0 < SMap.get 0 s.mem.scrubOver b
    let after := fun (q : ReelReq) => (q.master + 32 - SMap.get 0 s.mem.lastGrant b % 32) % 32
    (∀ q, first (·.master == 0) q → alone q) ∧
    (∀ q, mine.find? (·.master == 0) = none → first (·.master == 1) q → alone q) ∧
    (¬ procs → ¬ scrubWaits → ∀ q, first (s.owns b ·.master) q → alone q) ∧
    (¬ procs → ¬ scrubWaits → mine.find? (s.owns b ·.master) = none → ∀ q, q ∈ mine →
      (∀ r ∈ mine, r = q ∨ after q < after r) → alone q) ∧
    (¬ procs → scrubWaits → exec (.stoneAccess b claims n) s = exec (.stoneAccess b [] n) s)) ∧
  (∀ (s : State) (b n : Nat) (q : ReelReq), q.addr / 2 ^ 21 = b → s.forme.io = none → q.master ≤ 1 ∨ SMap.get 0 s.mem.scrubOver b = 0 →
    let len := match q.data with
      | some bs => bs.length
      | none => q.len
    (Grants s q → ∃ t, exec (.stoneAccess b [q] n) s = .next t ∧ Served s t q ∧
      SMap.get 0 t.mem.lastGrant b = q.master + 1 ∧ t.regs = s.regs ∧ SortsKept s t ∧ t.cores = s.cores) ∧
    (s.memOk q.addr len = false → ∃ t, exec (.stoneAccess b [q] n) s = .next t ∧ t.out = s.out ++ [.memory q.master false []] ∧
      Reported s t 0x031 18 (q.addr % 2 ^ 48) ((q.master + 32 + b2n q.data.isSome * 64) % 2 ^ 32) ∧ Beside s t [pgSTONE]) ∧
    (s.memOk q.addr len = true → q.master < 2 ∨ 10 < q.master → s.regionOk q.master q.addr len q.data.isSome = false → q.master < 32 →
      ∃ t, exec (.stoneAccess b [q] n) s = .next t ∧ t.out = s.out ++ [.memory q.master false []] ∧
        Reported s t 0x031 18 (q.addr % 2 ^ 48) (q.master + b2n q.data.isSome * 64) ∧ Counted s t pgSTONE STONE_REGION_REFUSED ∧
        t.get pgSTONE STONE_REGION_LAST_MASTER = q.master ∧ t.on pgSTONE STONE_REGION_LAST_WRITE = q.data.isSome ∧
        Pending t pgSTONE 3 ∧ Beside s t [pgSTONE])) ∧
  (∀ (s : State) (b n w : Nat), SMap.get 0 s.mem.scrubOver b = 0 →
    let waits := s.mem.stoneRewrites.find? fun w => decide (w / 2 ^ 21 = b)
    (waits = some w → w < reelBase → ∃ t, exec (.stoneAccess b [] n) s = .next t ∧ t.isBad w = false ∧ t.isWeak w = false ∧
      w ∉ t.mem.stoneRewrites ∧ t.regs = s.regs ∧ Beside s t []) ∧
    (waits = none → SMap.get 0 s.mem.scrubDue b = 0 → exec (.stoneAccess b [] n) s = .next (s.advance n)) ∧
    (waits = none → 0 < SMap.get 0 s.mem.scrubDue b → (∀ w, s.isBad w = false) → (∀ w, s.isWeak w = false) →
      SMap.get 0 s.mem.scrubRead b + 1 < 32768 → s.bankOwner b ≠ 31 → b < 32 → ∃ t, exec (.stoneAccess b [] n) s = .next t ∧
        SMap.get 0 t.mem.scrubRead b = SMap.get 0 s.mem.scrubRead b + 1 ∧
        SMap.get 0 t.mem.scrubDue b = SMap.get 0 s.mem.scrubDue b - 1 ∧ t.out = s.out ∧ Beside s t [pgSTONE])) ∧
  (∀ (s : State) (w : Nat),
    (w ∈ s.mem.stoneRewrites → w < reelBase → ∃ t, exec (.stoneCorrectionRewrite w) s = .next t ∧ t.isBad w = false ∧
      t.isWeak w = false ∧ w ∉ t.mem.stoneRewrites ∧ t.regs = s.regs ∧ Beside s t []) ∧
    (w ∉ s.mem.stoneRewrites → exec (.stoneCorrectionRewrite w) s = .next s) ∧
    (w ∈ s.mem.reelRewrites → reelBase ≤ w → ∃ t, exec (.reelCorrectionRewrite w) s = .next t ∧ t.isBad w = false ∧
      t.isWeak w = false ∧ w ∉ t.mem.reelRewrites ∧ t.regs = s.regs ∧ Beside s t []) ∧
    (w ∉ s.mem.reelRewrites → exec (.reelCorrectionRewrite w) s = .next s)) ∧
  (∀ (s : State) (n : Nat),
    (s.asleep 2 = true → exec (.stoneScrubDue n) s = .next (s.advance n)) ∧
    (s.asleep 2 = false → ∃ t, exec (.stoneScrubDue n) s = .next t ∧ t.regs = s.regs ∧ Beside s t [] ∧
      ∀ b, b < 32 → SMap.get 0 t.mem.scrubDue b = SMap.get 0 s.mem.scrubDue b +
        (if s.bankOwner b = 31 ∨ 32768 ≤ SMap.get 0 s.mem.scrubRead b + SMap.get 0 s.mem.scrubDue b then 0 else 1)) ∧
    ∀ b,
      (SMap.get 0 s.mem.scrubOver b < SMap.get 0 s.mem.scrubDue b → ∃ t, exec (.stoneScrubOverdue b) s = .next t ∧
        SMap.get 0 t.mem.scrubOver b = SMap.get 0 s.mem.scrubOver b + 1 ∧ t.on pgSTONE STONE_SCRUB_STATUS_LATE = true ∧
        Beside s t [pgSTONE]) ∧
      (SMap.get 0 s.mem.scrubDue b ≤ SMap.get 0 s.mem.scrubOver b → exec (.stoneScrubOverdue b) s = .next s))

/-- R538 to R550, R562, R564, R664, R530, R534 to R536, R555 to R561, R565, R567, R928: a Reel access, metered; the refresh
band and the temperature that moves it; retraining and the requests that wait for it; the patrol scrub; a stack lost; the
region registers and the bandwidth ledger.
Choices of the model: notes/assumptions/51.md. -/
def Obligations.ReelRegionsAndLedger : Prop :=
  (∀ (s : State) (n : Nat), exec (.reelAccess [] n) s = .next (s.advance n)) ∧
  (∀ (s : State) (q : ReelReq) (rest : List ReelReq) (n : Nat),
    let cs := (q :: rest).filter fun r => s.channelOf r.addr == s.channelOf q.addr
    let alone := fun (r : ReelReq) => exec (.reelAccess (q :: rest) n) s = exec (.reelAccess [r] n) s
    let after := fun (r : ReelReq) => (r.master + 32 - SMap.get 0 s.mem.lastReel (s.channelOf q.addr) % 32) % 32
    (reelBase ≤ q.addr → s.stackBusy q.addr = true → ∃ t, exec (.reelAccess (q :: rest) n) s = .next t ∧
      t.mem.reelWait = s.mem.reelWait ++ cs ∧ t.out = s.out ∧ t.regs = s.regs ∧ Beside s t []) ∧
    (s.stackBusy q.addr = false → (∀ r ∈ cs, s.stackBusy r.addr = false) →
      (∀ r, cs.find? (s.advance n).guaranteed = some r → alone r) ∧
      (cs.find? (s.advance n).guaranteed = none → ∀ r, r ∈ cs → (∀ x ∈ cs, x = r ∨ after r < after x) → alone r))) ∧
  (∀ (s : State) (q : ReelReq) (n : Nat),
    let len := match q.data with
      | some bs => bs.length
      | none => q.len
    let rate := s.reservation q.master
    let x := SMap.get (0, 0) s.mem.tokens q.master
    let have' := min (rate * 8000) (x.1 + rate * (timeAt s n - x.2))
    let need := 64000 * ((wordsTouched q.addr len).length + (if q.data.isSome then (wordsMerged q.addr len).length else 0))
    (s.advance n).guaranteed q = decide (need ≤ have') ∧
    (q.addr < reelBase ∨ s.stackBusy q.addr = false → Grants s q → ∃ t, exec (.reelAccess [q] n) s = .next t ∧ Served s t q ∧
      SMap.get (0, 0) t.mem.tokens q.master = (if need ≤ have' then have' - need else have', timeAt s n) ∧
      SMap.get 0 t.mem.lastReel (s.channelOf q.addr) = q.master + 1 ∧ t.regs = s.regs ∧ SortsKept s t ∧ t.cores = s.cores)) ∧
  (∀ (s : State) (k : Nat) (temp : BitVec 8), k < 4 →
    let band := s.get (pgREEL k) REEL_STATUS_BAND
    let c := temp.toInt
    let wanted := if c ≤ 85 then 0 else if c ≤ 105 then 1 else 2
    let low := SMap.get 0 s.mem.lowReadings k
    let reads := fun (nextBand lowNow : Nat) => ∃ t, exec (.reelTempReading k temp) s = .next t ∧
      t.get (pgREEL k) REEL_STATUS_TEMP_C = temp.toNat ∧ SMap.get 0 t.mem.nextBand k = nextBand ∧
      SMap.get 0 t.mem.lowReadings k = lowNow ∧ t.get (pgREEL k) REEL_STATUS_BAND = band ∧ Beside s t [pgREEL k]
    (band < wanted → reads (wanted + 1) 0) ∧
    (wanted ≤ band → 0 < band → c ≤ (if band = 1 then 82 else 102) →
      (low < 99 → reads (SMap.get 0 s.mem.nextBand k) (low + 1)) ∧ (99 ≤ low → reads band 0)) ∧
    (wanted ≤ band → band = 0 ∨ (if band = 1 then 82 else 102) < c → reads 0 0) ∧
    (SMap.get 0 s.mem.nextBand k = 0 → exec (.reelRefresh k) s = .next s) ∧
    (∀ b, b < 4 → SMap.get 0 s.mem.nextBand k = b + 1 → ∃ t, exec (.reelRefresh k) s = .next t ∧
      t.get (pgREEL k) REEL_STATUS_BAND = b ∧ SMap.get 0 t.mem.nextBand k = 0 ∧ Counted s t (pgREEL k) REEL_BAND_CHANGES ∧
      Pending t (pgREEL k) 1 ∧ Beside s t [pgREEL k])) ∧
  (∀ (s : State) (k n : Nat), k < 4 →
    let up := s.on (pgREEL k) REEL_STATUS_IN_SERVICE
    let open_ := s.on (pgREEL k) REEL_STATUS_RETRAINING
    let due := SMap.get 0 s.mem.lastRetrain k + s.get (pgREEL k) REEL_CFG_RETRAIN_MS * 1000000
    let takes := fun (j : Nat) => let off := s.get (pgREEL j) REEL_CAL_OFFSET_OFFSET_NS
      s.on (pgREEL j) REEL_STATUS_IN_SERVICE = true ∧ SMap.get false s.mem.retrainDue j = true ∧
      s.sp.tickAt + (if off < s.period then off else 0) ≤ timeAt s n ∧ SMap.get 0 s.mem.calTaken j ≠ s.sp.tickAt + 1
    (up = false ∨ open_ = true ∨ timeAt s n < due → exec (.reelRetrainDue k n) s = .next (s.advance n)) ∧
    (up = true → open_ = false → due ≤ timeAt s n →
      (s.running = true → ∃ t, exec (.reelRetrainDue k n) s = .next t ∧ t.regs = s.regs ∧ Beside s t [] ∧
        t.mem = { s.mem with retrainDue := SMap.set false s.mem.retrainDue k true }) ∧
      (s.running = false → ∃ t, exec (.reelRetrainDue k n) s = .next t ∧ t.on (pgREEL k) REEL_STATUS_RETRAINING = true ∧
        SMap.get 0 t.mem.lastRetrain k = timeAt s n ∧ Counted s t (pgREEL k) REEL_RETRAINS ∧ Beside s t [pgREEL k])) ∧
    (s.running = false ∨ (∃ j, j < 4 ∧ s.on (pgREEL j) REEL_STATUS_RETRAINING = true) →
      exec (.reelCalSlot n) s = .next (s.advance n)) ∧
    (s.running = true → (∀ j, j < 4 → s.on (pgREEL j) REEL_STATUS_RETRAINING = false) →
      ((∀ j, j < 4 → ¬ takes j) → ∃ t, exec (.reelCalSlot n) s = .next t ∧ t.mem = { s.mem with calSlot := false } ∧
        t.regs = s.regs ∧ Beside s t []) ∧
      (takes k → (∀ j, j < k → ¬ takes j) → ∃ t, exec (.reelCalSlot n) s = .next t ∧
        t.on (pgREEL k) REEL_STATUS_RETRAINING = true ∧ t.mem.calSlot = true ∧ SMap.get 0 t.mem.calTaken k = s.sp.tickAt + 1 ∧
        SMap.get false t.mem.retrainDue k = false ∧ Counted s t (pgREEL k) REEL_RETRAINS ∧ Beside s t [pgREEL k])) ∧
    (open_ = false → exec (.reelRetrainEnd k n) s = .next (s.advance n)) ∧
    (open_ = true → s.mem.calSlot = false →
      (s.mem.reelWait = [] → ∃ t, exec (.reelRetrainEnd k n) s = .next t ∧ t.on (pgREEL k) REEL_STATUS_RETRAINING = false ∧
        t.mem.reelWait = [] ∧ Beside s t [pgREEL k]) ∧
      (∀ q, s.mem.reelWait = [q] → s.stackOf q.addr = k → Grants s q → ∃ t, exec (.reelRetrainEnd k n) s = .next t ∧
        Served s t q ∧ t.mem.reelWait = [] ∧ t.on (pgREEL k) REEL_STATUS_RETRAINING = false) ∧
      (∀ q, s.mem.reelWait = [q] → s.stackOf q.addr ≠ k → ∃ t, exec (.reelRetrainEnd k n) s = .next t ∧
        t.mem.reelWait = [q] ∧ t.out = s.out ∧ Beside s t [pgREEL k])) ∧
    (up = true → ∃ t, exec (.reelStackLost k) s = .next t ∧ t.on (pgREEL k) REEL_STATUS_IN_SERVICE = false ∧
      t.on (pgREEL k) PAGE_STATUS_IN_SERVICE = false ∧ t.stacks = s.stacks ∧ Reported s t (0x036 + k) 19 0 k ∧
      Beside s t [pgREEL k]) ∧
    (up = false → exec (.reelStackLost k) s = .next s)) ∧
  (∀ (s : State) (k a n : Nat), k < 4 →
    let paused : Prop := s.on (pgREEL k) REEL_STATUS_SELF_REFRESH = true ∨ s.on (pgREEL k) REEL_STATUS_RETRAINING = true ∨
      s.on (pgREEL k) REEL_STATUS_IN_SERVICE = false
    let pos := s.get (pgREEL k) REEL_SCRUB_POS_POS
    let hours := SMap.get 24 s.mem.passHours k
    (paused → exec (.reelPatrolScrub k a n) s = .next (s.advance n)) ∧
    (¬ paused → s.isBad (a / 64 * 64) = false → s.isWeak (a / 64 * 64) = false →
      (pos + 1 < 2 ^ 28 → ∃ t, exec (.reelPatrolScrub k a n) s = .next t ∧ t.get (pgREEL k) REEL_SCRUB_POS_POS = pos + 1 ∧
        t.on (pgREEL k) REEL_STATUS_SCRUB_BEHIND = decide (pos + 1 < 2 ^ 28 * (timeAt s n - SMap.get 0 s.mem.passStart k) /
          (hours * 3600000000000)) ∧ Beside s t [pgREEL k]) ∧
      (pos + 1 = 2 ^ 28 → ∃ t, exec (.reelPatrolScrub k a n) s = .next t ∧ t.get (pgREEL k) REEL_SCRUB_POS_POS = 0 ∧
        Counted s t (pgREEL k) REEL_SCRUB_PASSES ∧ SMap.get 0 t.mem.passStart k = timeAt s n ∧
        SMap.get 24 t.mem.passHours k = s.get (pgREEL k) REEL_CFG_SCRUB_H ∧ Beside s t [pgREEL k])) ∧
    (¬ paused → reelBase ≤ a → s.isBad (a / 64 * 64) = true → pos + 1 < 2 ^ 28 → s.stackOf (a / 64 * 64) = k →
      a < 2 ^ 48 → ∃ t, exec (.reelPatrolScrub k a n) s = .next t ∧ Counted s t (pgREEL k) REEL_UNCORR ∧
        Pending t (pgREEL k) 0 ∧ Reported s t (0x032 + k) 17 (a / 64 * 64) (31 + 32) ∧
        t.pair (pgREEL k) REEL_LAST_UNCORR_LO REEL_LAST_UNCORR_HI = a / 64 * 64 ∧ Beside s t [pgREEL k])) ∧
  (∀ (s : State) (m : Nat) (v : W32), s.accepts m pgSTONE 0x094 = true →
    let mm := s.get pgSTONE STONE_REGION_SEL_MASTER
    let r := s.get pgSTONE STONE_REGION_SEL_REGION
    let base := s.get pgSTONE STONE_REGION_BASE_LO_BASE_LO * 256 + s.get pgSTONE STONE_REGION_BASE_HI_BASE_HI * 2 ^ 32
    let size := s.get pgSTONE STONE_REGION_SIZE_SIZE
    let high : Prop := v.getLsbD 2 = false ∧ 2 ^ 48 < base + 256 * size
    (m = 1 → s.quoined pgSTONE = false → ¬ high → ∃ t, exec (.regionRightsWrite m v) s = .next t ∧
      t.region mm r = { base := base, size := size, r := v.getLsbD 0, w := v.getLsbD 1, whole := v.getLsbD 2 } ∧
      (∀ a b, mm * 16 + r ≠ a * 16 + b → t.region a b = s.region a b) ∧
      t.get pgSTONE STONE_REGION_BASE_LO_BASE_LO = s.get pgSTONE STONE_REGION_BASE_LO_BASE_LO ∧
      t.on pgSTONE STONE_REGION_RIGHTS_R = v.getLsbD 0 ∧ Beside s t [pgSTONE]) ∧
    (m ≠ 1 → ∃ t, exec (.regionRightsWrite m v) s = .next t ∧ t.mem = s.mem ∧ IgnoredBy s t pgSTONE 0x094 2) ∧
    (m = 1 → s.quoined pgSTONE = true → ∃ t, exec (.regionRightsWrite m v) s = .next t ∧ t.mem = s.mem ∧
      IgnoredBy s t pgSTONE 0x094 4) ∧
    (m = 1 → s.quoined pgSTONE = false → high → ∃ t, exec (.regionRightsWrite m v) s = .next t ∧ t.mem = s.mem ∧
      IgnoredBy s t pgSTONE 0x094 8)) ∧
  (∀ (s : State) (m : Nat) (v : W32), s.accepts m pgSTONE 0x084 = true →
    let mm := bits v.toNat 12 8
    let r := bits v.toNat 3 0
    let g := s.region mm r
    (mm < 18 → g.base < 2 ^ 48 → g.size < 2 ^ 32 → g.base % 256 = 0 → ∃ t, exec (.regionSelect m v) s = .next t ∧
      t.get pgSTONE STONE_REGION_SEL_MASTER = mm ∧ t.get pgSTONE STONE_REGION_SEL_REGION = r ∧
      t.get pgSTONE STONE_REGION_BASE_LO_BASE_LO * 256 + t.get pgSTONE STONE_REGION_BASE_HI_BASE_HI * 2 ^ 32 = g.base ∧
      t.get pgSTONE STONE_REGION_SIZE_SIZE = g.size ∧ t.on pgSTONE STONE_REGION_RIGHTS_R = g.r ∧
      t.on pgSTONE STONE_REGION_RIGHTS_W = g.w ∧ t.on pgSTONE STONE_REGION_RIGHTS_WHOLE = g.whole ∧ t.mem = s.mem ∧
      Beside s t [pgSTONE]) ∧
    (18 ≤ mm → ∃ t, exec (.regionSelect m v) s = .next t ∧ t.mem = s.mem ∧ IgnoredBy s t pgSTONE 0x084 7)) ∧
  (∀ (s : State) (m : Nat), s.accepts m pgSTONE 0x0A4 = true →
    (s.on pgSTONE STONE_LEDGER_STATUS_CHECKING = false → ∃ t, exec (.ledgerCommit m) s = .next t ∧
      t.on pgSTONE STONE_LEDGER_STATUS_CHECKING = true ∧ t.mem = { s.mem with checking := t.mem.checking } ∧
      (∀ k, 1 ≤ k → k ≤ 31 → SMap.get LedgerEntry.none t.mem.checking k =
        { master := s.get pgSTONE STONE_LEDGER_MASTER (k + 1), rate := s.get pgSTONE STONE_LEDGER_RATE (k + 1) }) ∧
      Beside s t [pgSTONE]) ∧
    (s.on pgSTONE STONE_LEDGER_STATUS_CHECKING = true → ∃ t, exec (.ledgerCommit m) s = .next t ∧ t.mem = s.mem ∧
      t.get pgSTONE STONE_LEDGER_STATUS_ERROR = 1 ∧ t.get pgSTONE IGNORED_CAUSE_REASON = 9 ∧ Pending t pgSTONE 2 ∧
      Beside s t [pgSTONE])) ∧
  (∀ s : State,
    let bad : Prop := ∃ x ∈ s.mem.checking, x.2.rate ≠ 0 ∧ 17 ≤ x.2.master
    let tooMuch : Prop := s.get pgSTONE STONE_LEDGER_CAPACITY <
      max s.mem.entry0 (s.mem.entry0New.getD 0) + (s.mem.checking.map (·.2.rate)).sum
    let fails := fun (code : Nat) => ∃ t, exec .ledgerCheckDone s = .next t ∧ t.on pgSTONE STONE_LEDGER_STATUS_CHECKING = false ∧
      t.get pgSTONE STONE_LEDGER_STATUS_ERROR = code ∧ t.get pgSTONE IGNORED_CAUSE_REASON = 12 ∧ Pending t pgSTONE 2 ∧
      t.mem = s.mem ∧ Beside s t [pgSTONE]
    (s.on pgSTONE STONE_LEDGER_STATUS_CHECKING = false → exec .ledgerCheckDone s = .next s) ∧
    (s.on pgSTONE STONE_LEDGER_STATUS_CHECKING = true →
      (s.stacks = [] → fails 2) ∧ (s.stacks ≠ [] → bad → fails 3) ∧ (s.stacks ≠ [] → ¬ bad → tooMuch → fails 4) ∧
      (s.stacks ≠ [] → ¬ bad → ¬ tooMuch → ∃ t, exec .ledgerCheckDone s = .next t ∧
        t.on pgSTONE STONE_LEDGER_STATUS_CHECKING = false ∧
        t.mem = { s.mem with ledger := s.mem.checking } ∧ Beside s t [pgSTONE])))

/-- R578, R579, R583, R584, R587, R589 to R592, R594, R596, R598 to R605: a unit arrives on a link, a credit comes back, an output sends one
unit, a packet is injected, meets a break, is checked, delivered, held while its endpoint sleeps, or refused; a response never comes; a flow
commit, its check, and the placement that takes effect. Choices of the model: notes/assumptions/51.md, 53.md. -/
def Obligations.NetworkFlowsAndPackets : Prop :=
  (∀ u : NocUnit, u.data < 2 ^ 256 → u.vn < 4 → u.vc < 2 → crcPasses (u.arrives []) = true ∧ unitOf (u.arrives []) = u) ∧
  (∀ (s : State) (r p nc : Nat) (errors : List Nat), r < 64 → p < 4 →
    let l := r * 8 + p
    let down := bit (s.get (pgROUTER r) ROUTER_STATUS_LINK_DOWN) p
    let run := exec (.linkUnitReceive r p errors nc) s
    (s.noc.onLink l = [] ∨ down = true → run = .next s) ∧
    (∀ u us, s.noc.onLink l = u :: us → down = false →
      let ok := crcPasses (u.arrives errors)
      let v := unitOf (u.arrives errors)
      let k := ((r * 8 + p) * 4 + v.vn) * 2 + v.vc
      let drops := SMap.get false s.noc.dropping k
      (ok = true → drops = false → (s.noc.buffer k).length < 24 → ∃ t, run = .next t ∧
        t.noc.onLink l = us ∧ t.noc.buffer k = s.noc.buffer k ++ [v] ∧ (∀ j, j ≠ k → t.noc.buffer j = s.noc.buffer j) ∧
        SMap.get 0 t.noc.crcRun l = 0 ∧ (v = u → CreditsConserved s t) ∧ t.out = s.out ∧ NocBeside s t [pgROUTER r]) ∧
      (ok = true → drops = true → ∃ t, run = .next t ∧ t.noc.onLink l = us ∧
        t.noc.buffers = s.noc.buffers ∧ SMap.get false t.noc.dropping k = !v.tail ∧ (v = u → CreditsConserved s t) ∧
        NocBeside s t [pgROUTER r]) ∧
      (ok = true → drops = false → 24 ≤ (s.noc.buffer k).length → ∃ t, run = .next t ∧ t.noc.onLink l = us ∧
        t.noc.buffer k = (if v.head then s.noc.buffer k else wholePackets (s.noc.buffer k)) ∧
        (∀ j, j ≠ k → t.noc.buffer j = s.noc.buffer j) ∧ SMap.get false t.noc.dropping k = !v.tail ∧
        Counted s t (pgROUTER r) ROUTER_CREDIT_FAULTS ∧ Reported s t (0x080 + r) 28 0 (p + v.vn * 8 + v.vc * 32) ∧
        NocBeside s t [pgROUTER r]) ∧
      (ok = false → SMap.get 0 s.noc.crcRun l ≠ 7 → ∃ t, run = .next t ∧ t.noc.onLink l = u :: us ∧
        SMap.get 0 t.noc.crcRun l = SMap.get 0 s.noc.crcRun l + 1 ∧ t.noc.buffers = s.noc.buffers ∧
        Counted s t (pgROUTER r) ROUTER_CRC_RETRIES ∧ NocBeside s t [pgROUTER r]) ∧
      (ok = false → SMap.get 0 s.noc.crcRun l = 7 →
        let q := neighbour r p
        ∃ t, run = .next t ∧ Counted s t (pgROUTER r) ROUTER_CRC_RETRIES ∧
          bit (t.get (pgROUTER r) ROUTER_STATUS_LINK_DOWN) p = true ∧
          bit (t.get (pgROUTER q) ROUTER_STATUS_LINK_DOWN) ((p + 2) % 4) = true ∧ Pending t (pgROUTER r) 0 ∧
          Pending t (pgROUTER q) 0 ∧ Reported s t (0x080 + r) 25 0 p ∧ NocBeside s t [pgROUTER r, pgROUTER q]))) ∧
  (∀ (s : State) (r p vn vc : Nat), r < 64 → p < 8 → vn < 4 → vc < 2 →
    let k := ((r * 8 + p) * 4 + vn) * 2 + vc
    (s.noc.credit k < 24 → ∃ t, exec (.creditReturn r p vn vc) s = .next t ∧ t.noc.credit k = s.noc.credit k + 1 ∧
      t.noc.returning k = s.noc.returning k - 1 ∧ (∀ j, j ≠ k → t.noc.credit j = s.noc.credit j) ∧
      (0 < s.noc.returning k → CreditsConserved s t) ∧ t.regs = s.regs ∧ NocBeside s t []) ∧
    (24 ≤ s.noc.credit k →
      let q := if p < 4 then neighbour r p else r
      let out := if p < 4 then (p + 2) % 4 else p
      ∃ t, exec (.creditReturn r p vn vc) s = .next t ∧ t.noc.credits = s.noc.credits ∧
        Counted s t (pgROUTER q) ROUTER_CREDIT_FAULTS ∧ Reported s t (0x080 + q) 28 0 (out + vn * 8 + vc * 32) ∧
        NocBeside s t [pgROUTER q])) ∧
  (∀ (s : State) (r out nc : Nat), r < 64 → out < 4 → s.broken r out = false →
    let keys := (List.range 64).map (r * 64 + ·)
    let owner := s.slotOwner (r, out) (nc % 128)
    let last := SMap.get 0 s.noc.lastServed (r * 8 + out)
    let sends := fun (k : Nat) => ∀ u us v, s.noc.buffer k = u :: us → s.frontRoute k = some (out, v) → u.vn < 4 → v < 2 →
      0 < s.noc.credit (bkey (neighbour r out) (opposite out) u.vn v) →
      ∃ t, exec (.packetHop r out nc none) s = .next t ∧ t.noc.buffer k = us ∧
        t.noc.onLink (neighbour r out * 8 + opposite out) =
          s.noc.onLink (neighbour r out * 8 + opposite out) ++ [{ u with vc := v }] ∧
        SMap.get none t.noc.route k = (if u.tail then none else some (out, v)) ∧
        SMap.get 0 t.noc.lastServed (r * 8 + out) = k + 1 ∧ CreditsConserved s t ∧ t.out = s.out ∧ NocBeside s t [pgROUTER r]
    ((∀ k ∈ keys, s.ready out k = false) → ∃ t, exec (.packetHop r out nc none) s = .next t ∧ t.noc = s.noc ∧
      t.out = s.out ∧ NocBeside s t [pgROUTER r]) ∧
    (∀ k f, keys.find? (fun k => s.ready out k && s.flowOf k == some f) = some k → owner = some f → sends k) ∧
    ((owner = none ∨ ∀ k ∈ keys, s.ready out k = true → s.flowOf k ≠ owner) →
      (∀ k, keys.find? (fun k => s.ready out k && keyVn k == 3) = some k → sends k) ∧
      (keys.find? (fun k => s.ready out k && keyVn k == 3) = none →
        (∀ k ∈ keys, s.ready out k = true → k + 1 = last → SMap.get none s.noc.route k ≠ none → sends k) ∧
        ((∀ k ∈ keys, s.ready out k = true → k + 1 = last → SMap.get none s.noc.route k = none) →
          (∀ k, keys.find? (fun k => s.ready out k && decide (last ≤ k)) = some k → sends k) ∧
          (keys.find? (fun k => s.ready out k && decide (last ≤ k)) = none → ∀ k, keys.find? (s.ready out) = some k → sends k))))) ∧
  (∀ (s : State) (r out nc k h : Nat), r < 64 → out < 4 → s.broken r out = true →
    (∀ j ∈ (List.range 64).map (r * 64 + ·), (s.frontRoute j).map (·.1) = some out ↔ j = k) → k / 64 = r →
    frontHeader (s.noc.buffer k) = some h →
    (hCommand h ≠ 1 → hCommand h ≠ 2 → ∃ t, exec (.packetHop r out nc none) s = .next t ∧
      Counted s t (pgROUTER r) ROUTER_DISCARDS ∧ Reported s t (0x080 + r) 27 (hAddress h) (hSource h + hDest h * 256) ∧
      t.out = s.out ∧ NocBeside s t [pgROUTER r]) ∧
    (hCommand h = 1 ∨ hCommand h = 2 → ∃ t, exec (.packetHop r out nc none) s = .next t ∧
      Counted s t (pgROUTER r) ROUTER_DISCARDS ∧ t.fault.net = s.fault.net ∧
      (∃ e, (t.noc.buffer (bkey r 6 1 0)).getLast? = some e ∧ e.head = true ∧ e.tail = true ∧ hCommand e.data = 6 ∧
        hDest e.data = hSource h ∧ hTag e.data = hTag h ∧ e.data / 2 ^ 128 = 4) ∧ NocBeside s t [pgROUTER r])) ∧
  (∀ (s : State) (r out nc h : Nat) (data : List Nat), r < 64 → epRouter (hSource h) = r →
    let k := bkey r (4 + epPort (hSource h)) (hVn h) 0
    let tk := hSource h * 1024 + hTag h
    let request : Prop := hCommand h = 1 ∨ hCommand h = 2
    let seqKey := hSource h * 256 + (hDestY h * 8 + hDestX h) * 4 + hVn h
    let seq := (SMap.get 0 s.noc.seqTx seqKey + 1) % 65536
    let held : Prop := hVn h = 3 ∨ epListed (hSource h) = false ∨ s.noc.credit k < data.length + 1 ∨
      (request ∧ (SMap.get 0 s.noc.outstanding tk ≠ 0 ∨ s.mono < SMap.get 0 s.noc.tagHold tk))
    (held → exec (.packetHop r out nc (some (h, data))) s = exec (.packetHop r out nc none) s) ∧
    (¬ held → ∃ u, exec (.packetHop r out nc (some (h, data))) s = exec (.packetHop r out nc none) u ∧
      u.out = s.out ++ [.packet (withSeq h seq)] ∧ SMap.get 0 u.noc.seqTx seqKey = seq ∧
      u.noc.credit k = s.noc.credit k - (data.length + 1) ∧
      u.noc.buffer k = s.noc.buffer k ++
        (⟨hVn h, 0, true, data.isEmpty, withSeq h seq⟩ ::
          (List.range data.length).map fun i => ⟨hVn h, 0, false, decide (i + 1 = data.length), data.getD i 0⟩) ∧
      (request → SMap.get 0 u.noc.outstanding tk = withSeq h seq + 1 ∧ SMap.get 0 u.noc.sentAt tk = s.mono) ∧
      NocBeside s u [pgROUTER r]) ∧
    (∀ x, epRouter (hSource h) ≠ x % 64 → exec (.packetHop x out nc (some (h, data))) s = exec (.packetHop x out nc none) s)) ∧
  (∀ (s : State) (r p vn vc nc : Nat), r < 64 → p < 8 → vn < 4 → vc < 2 →
    let k := ((r * 8 + p) * 4 + vn) * 2 + vc
    (frontHeader (s.noc.buffer k) = none → exec (.packetEject r p vn vc nc) s = .next s) ∧
    (∀ h, frontHeader (s.noc.buffer k) = some h → hDestX h ≠ r % 8 ∨ hDestY h ≠ r / 8 →
      exec (.packetEject r p vn vc nc) s = .next s) ∧
    (∀ h, AtEndpoint s r k h →
      let seqKey := r * 1024 + hSource h * 4 + hVn h
      let d := (hSeq h + 131072 - SMap.get 0 s.noc.seqRx seqKey - 1) % 65536
      let det := hSource h + hVn h * 256 + hSeq h * 65536
      let tk := hDest h * 1024 + hTag h
      let gone := fun (t : State) => t.noc.buffer k = (s.noc.buffer k).drop (frontPacket (s.noc.buffer k)).length
      let ends := fun (t : State) => exec (.packetEject r p vn vc nc) s = .next t ∧ NocBeside s t [pgROUTER r, pgNOC]
      let taken := fun (t : State) => ends t ∧ gone t
      (malformed h = true → ∃ t, ends t ∧ (k = bkey r 6 1 0 ∨ gone t) ∧ Counted s t (pgROUTER r) ROUTER_DISCARDS ∧
        Reported s t (0x080 + r) 26 (hAddress h) (hSource h + hCommand h * 256) ∧ t.out = s.out) ∧
      (malformed h = false → 32767 < d → ∃ t, taken t ∧ Counted s t (pgROUTER r) ROUTER_SEQ_OLD ∧ Pending t (pgROUTER r) 1 ∧
        Reported s t (0x080 + r) 30 0 det ∧ t.noc.seqRx = s.noc.seqRx ∧ t.out = s.out) ∧
      (malformed h = false → d ≤ 32767 →
        ((hVn h ≠ 1 ∨ SMap.get 0 s.noc.outstanding tk ≠ 0) → ∃ t, taken t ∧ t.out = s.out ++ [.packet h] ∧
          SMap.get 0 t.noc.seqRx seqKey = hSeq h ∧ (hVn h = 1 → SMap.get 0 t.noc.outstanding tk = 0) ∧
          (d = 0 → t.fault.net = s.fault.net) ∧
          (1 ≤ d → Counted s t (pgROUTER r) ROUTER_SEQ_GAPS ∧ Reported s t (0x080 + r) 29 0 det)) ∧
        (hVn h = 1 → SMap.get 0 s.noc.outstanding tk = 0 → ∃ t, taken t ∧ t.out = s.out ∧
          SMap.get 0 t.noc.seqRx seqKey = hSeq h ∧ Counted s t pgNOC NOC_LATE_RESPONSES))) ∧
    (∀ h d, frontHeader (s.noc.buffer k) = some h → hDestX h = r % 8 → hDestY h = r / 8 → s.epUp (hDest h) = true →
      epDomain (hDest h) = some d → s.asleep d = true →
      (k ∉ s.noc.held → ∃ t, exec (.packetEject r p vn vc nc) s = .next t ∧ t.noc.held = s.noc.held ++ [k] ∧
        t.noc.buffers = s.noc.buffers ∧ Counted s t (pgROUTER r) ROUTER_HELD ∧
        bit (t.get (pgROUTER r) ROUTER_STATUS_HOLDING) (hDestPort h) = true ∧ t.out = s.out ∧
        (Resting s d → s.domState d = 2 ∨ s.domState d = 3 → (t.domain d).waking = some (5, 0)) ∧
        NocBeside s t [pgROUTER r, pgPOWER]) ∧
      (k ∈ s.noc.held → ∃ t, exec (.packetEject r p vn vc nc) s = .next t ∧ t.noc = s.noc ∧ t.out = s.out ∧
        NocBeside s t [pgPOWER]))) ∧
  (∀ (s : State) (ep tag n : Nat), ep < 256 → tag < 1024 →
    let tk := ep * 1024 + tag
    let wait := s.get pgNOC NOC_CTRL_RESP_TIMEOUT_US * 1000
    (SMap.get 0 s.noc.outstanding tk = 0 ∨ timeAt s n < SMap.get 0 s.noc.sentAt tk + wait →
      exec (.respTimeout ep tag n) s = .next (s.advance n)) ∧
    (∀ h, SMap.get 0 s.noc.outstanding tk = h + 1 → SMap.get 0 s.noc.sentAt tk + wait ≤ timeAt s n →
      ∃ t, exec (.respTimeout ep tag n) s = .next t ∧
      SMap.get 0 t.noc.outstanding tk = 0 ∧ SMap.get 0 t.noc.tagHold tk = timeAt s n + wait ∧
      (∃ e, t.out = s.out ++ [.packet e] ∧ hCommand e = 6 ∧ hDest e = hSource h ∧ hSource e = hDest h ∧ hTag e = hTag h ∧
        e / 2 ^ 128 = 3) ∧
      Counted s t pgNOC NOC_TIMEOUTS ∧ Pending t pgNOC 3 ∧
      Reported s t (0x080 + epRouter ep) 31 (hAddress h) (ep + tag * 256) ∧ NocBeside s t [pgNOC, pgROUTER (epRouter ep)])) ∧
  (∀ (s : State) (m : Nat), s.accepts m pgNOC 0x054 = true →
    let flow := fun (k : Nat) => Sys2Proof.Machine.Flow.mk (s.get pgNOC NOC_FLOW_CFG_SRC (k + 1)) (s.get pgNOC NOC_FLOW_CFG_DST (k + 1))
      (s.on pgNOC NOC_FLOW_CFG_VALID (k + 1)) (s.get pgNOC NOC_FLOW_CFG_SLOTS (k + 1))
    let staged := (List.range 63).map fun k => (k + 1, flow (k + 1))
    (m ≠ 1 → ∃ t, exec (.flowCommit m) s = .next t ∧ t.noc = s.noc ∧ IgnoredBy s t pgNOC 0x054 2) ∧
    (m = 1 → s.on pgNOC NOC_FLOW_STATUS_CHECKING = false → ∃ t, exec (.flowCommit m) s = .next t ∧
      t.on pgNOC NOC_FLOW_STATUS_CHECKING = true ∧ t.noc = { s.noc with checking := staged.filter (·.2.valid) } ∧
      Beside s t [pgNOC]) ∧
    (m = 1 → s.on pgNOC NOC_FLOW_STATUS_CHECKING = true → ∃ t, exec (.flowCommit m) s = .next t ∧ t.noc = s.noc ∧
      t.get pgNOC NOC_FLOW_STATUS_ERROR = 1 ∧ t.get pgNOC IGNORED_CAUSE_REASON = 9 ∧ Pending t pgNOC 0 ∧ Beside s t [pgNOC])) ∧
  (∀ s : State,
    let fs := s.noc.checking
    let up := fun (x : Nat × Flow) => s.epUp x.2.src && s.epUp x.2.dst
    let cut := fun (x : Nat × Flow) => s.routeBroken (s.flowRoute x.2)
    let fails := fun (code k : Nat) => ∃ t, exec .flowCheckDone s = .next t ∧ t.on pgNOC NOC_FLOW_STATUS_CHECKING = false ∧
      t.get pgNOC NOC_FLOW_STATUS_ERROR = code ∧ t.get pgNOC NOC_FLOW_STATUS_ERR_FLOW = k ∧
      t.get pgNOC IGNORED_CAUSE_REASON = 12 ∧ Pending t pgNOC 0 ∧ t.noc = s.noc ∧ Beside s t [pgNOC]
    (s.on pgNOC NOC_FLOW_STATUS_CHECKING = false → exec .flowCheckDone s = .next s) ∧
    (s.on pgNOC NOC_FLOW_STATUS_CHECKING = true →
      (∀ k f, fs.find? (fun x => !up x) = some (k, f) → fails 2 k) ∧
      (fs.find? (fun x => !up x) = none → ∀ k f, fs.find? cut = some (k, f) → fails 3 k) ∧
      (fs.find? (fun x => !up x) = none → fs.find? cut = none →
        (∀ c k, s.placeFlow fs [] [] = .error (c, k) → fails c k) ∧
        (∀ placed, s.placeFlow fs [] [] = .ok placed → ∃ t, exec .flowCheckDone s = .next t ∧
          t.noc = { s.noc with next := some { flows := fs, placed := placed } } ∧
          t.on pgNOC NOC_FLOW_STATUS_CHECKING = false ∧ Beside s t [pgNOC]) ∧
        (∀ k f, fs = [(k, f)] → f.slots ≤ 128 →
          s.placeFlow fs [] [] = .ok (SMap.set [] [] k (List.range f.slots)))))) ∧
  (∀ s : State, (s.noc.next = none → exec .flowPlacementApply s = .next s) ∧
    (∀ p, s.noc.next = some p → ∃ t, exec .flowPlacementApply s = .next t ∧ t.noc.inForce = p ∧ t.noc.next = none ∧
      Pending t pgNOC 1 ∧ Beside s t [pgNOC]))
end

