-- ==== Sys2Proof/Laws/Keep.lean ====
section
/-!
SUPPORT. What no command takes back: a relation between the state before and after, and that each way of making a state
keeps it.
-/
namespace Sys2Proof.Machine

/-- What no command takes back: the queue stands, the memory keeps its canonical form, the monotone time and the count of free
values do not fall, what was sent out stays sent, and no fuse returns. -/
structure Keep (s t : State) : Prop where
  pending : t.pending = s.pending
  mem : s.memWf = true → t.memWf = true
  mono : s.mono ≤ t.mono
  out : s.out <+: t.out
  free : s.free ≤ t.free
  fuses : FuseSt.le s.colo.fuses t.colo.fuses

theorem FuseSt.le_refl (a : FuseSt) : FuseSt.le a a :=
  ⟨Nat.le_refl _, Nat.le_refl _, Nat.le_refl _, Nat.le_refl _, id, fun _ h => h, fun _ _ h => h⟩

theorem FuseSt.le_trans {a b c : FuseSt} (h : FuseSt.le a b) (k : FuseSt.le b c) : FuseSt.le a c :=
  ⟨Nat.le_trans h.1 k.1, Nat.le_trans h.2.1 k.2.1, Nat.le_trans h.2.2.1 k.2.2.1,
   Nat.le_trans h.2.2.2.1 k.2.2.2.1, fun x => k.2.2.2.2.1 (h.2.2.2.2.1 x),
   fun i x => k.2.2.2.2.2.1 i (h.2.2.2.2.2.1 i x), fun n i x => k.2.2.2.2.2.2 n i (h.2.2.2.2.2.2 n i x)⟩

theorem Keep.refl (s : State) : Keep s s :=
  ⟨rfl, id, Nat.le_refl _, List.prefix_refl _, Nat.le_refl _, FuseSt.le_refl _⟩

theorem Keep.trans {a b c : State} (h : Keep a b) (k : Keep b c) : Keep a c :=
  ⟨k.pending.trans h.pending, fun x => k.mem (h.mem x), Nat.le_trans h.mono k.mono, h.out.trans k.out,
   Nat.le_trans h.free k.free, FuseSt.le_trans h.fuses k.fuses⟩

/-- A state that differs in none of the parts. -/
theorem Keep.of_eq {a s t : State} (h : Keep a s) (h1 : t.pending = s.pending) (h2 : t.mem.stone = s.mem.stone)
    (h3 : t.mem.reel = s.mem.reel) (h4 : t.mono = s.mono) (h5 : t.out = s.out) (h6 : t.free = s.free)
    (h7 : t.colo.fuses = s.colo.fuses) : Keep a t := by
  refine h.trans ⟨h1, ?_, Nat.le_of_eq h4.symm, h5 ▸ List.prefix_refl _, Nat.le_of_eq h6.symm, h7 ▸ FuseSt.le_refl _⟩
  simp only [State.memWf, MemSt.wf, h2, h3]; exact id

/-- A record update of parts of the state that the relation does not speak of. -/
theorem Keep.upd {a s : State} (h : Keep a s) {regs caps dev feed ptp impose drive evt fault power frisket msixFmask noc
    forme seq cstore comp cores webs jobs sp host log device} :
    Keep a { s with regs := regs, caps := caps, dev := dev, feed := feed, ptp := ptp, impose := impose, drive := drive,
                    evt := evt, fault := fault, power := power, frisket := frisket, msixFmask := msixFmask, noc := noc,
                    forme := forme, seq := seq, cstore := cstore, comp := comp, cores := cores, webs := webs,
                    jobs := jobs, sp := sp, host := host, log := log, device := device } :=
  h.of_eq rfl rfl rfl rfl rfl rfl rfl

/-- A record update of the memory system that leaves the bytes. -/
theorem Keep.updMem {a s : State} (h : Keep a s) {m : MemSt} (h2 : m.stone = s.mem.stone) (h3 : m.reel = s.mem.reel) :
    Keep a { s with mem := m } := h.of_eq rfl h2 h3 rfl rfl rfl rfl

/-- A record update of the Colophon that leaves the fuses. -/
theorem Keep.updColo {a s : State} (h : Keep a s) {c : ColoSt} (h2 : c.fuses = s.colo.fuses) :
    Keep a { s with colo := c } := h.of_eq rfl rfl rfl rfl rfl rfl h2

/-- A record update that also takes free values. -/
theorem Keep.updFree {a s : State} (h : Keep a s) {n : Nat} (hn : a.free ≤ n) : Keep a { s with free := n } :=
  ⟨h.pending, h.mem, h.mono, h.out, hn, h.fuses⟩

theorem Keep.of_pair {α : Type} {a t : State} {p : α × State} {x : α} (e : p = (x, t)) (h : Keep a p.2) : Keep a t := by
  subst e; exact h

theorem Keep.id_ {a s : State} (h : Keep a s) : Keep a (id s) := h

theorem Keep.ite {a s t : State} {c : Prop} [Decidable c] (h : Keep a s) (k : Keep a t) : Keep a (if c then s else t) := by
  split <;> assumption

theorem Keep.ite2 {α : Type} {a : State} {c : Prop} [Decidable c] {x y : α × State} (h : Keep a x.2) (k : Keep a y.2) :
    Keep a (if c then x else y).2 := by
  split <;> assumption

theorem Keep.ite1 {α : Type} {a : State} {c : Prop} [Decidable c] {x y : State × α} (h : Keep a x.1) (k : Keep a y.1) :
    Keep a (if c then x else y).1 := by
  split <;> assumption

theorem Keep.cond {a s t : State} {c : Bool} (h : Keep a s) (k : Keep a t) : Keep a (bif c then s else t) := by
  cases c <;> assumption

theorem Keep.foldl {α : Type} {a s : State} {f : State → α → State} {l : List α}
    (hf : ∀ s x, Keep a s → Keep a (f s x)) (h : Keep a s) : Keep a (l.foldl f s) := by
  induction l generalizing s with
  | nil => exact h
  | cons x xs ih => exact ih (hf s x h)

theorem Keep.foldl2 {α β : Type} {a : State} {f : β × State → α → β × State} {l : List α} {s : β × State}
    (hf : ∀ s x, Keep a s.2 → Keep a (f s x).2) (h : Keep a s.2) : Keep a (l.foldl f s).2 := by
  induction l generalizing s with
  | nil => exact h
  | cons x xs ih => exact ih (hf s x h)

/-- What a command answers keeps. -/
structure KeepR (a : State) (r : Result) : Prop where
  next : ∀ t, r = .next t → Keep a t

theorem KeepR.of_next {a s : State} (h : Keep a s) : KeepR a (.next s) :=
  ⟨by intro t e; cases e; exact h⟩

theorem KeepR.ite {a : State} {c : Prop} [Decidable c] {x y : Result} (h : KeepR a x) (k : KeepR a y) :
    KeepR a (if c then x else y) := by
  split <;> assumption

theorem KeepR.state {a s : State} {r : Result} (h : KeepR a r) (k : Keep a s) : Keep a (r.state s) := by
  cases r
  · exact h.next _ rfl
  · exact k
  · exact k

/-! ## Memory bytes -/

theorem SMap.wf_iff {α : Type} [DecidableEq α] {d : Nat → α} {m : SMap α} :
    SMap.wf d m = true ↔ m.Pairwise (fun a b => a.1 < b.1) ∧ ∀ e ∈ m, e.2 ≠ d e.1 := by
  induction m with
  | nil => simp [SMap.wf]
  | cons e m ih =>
    obtain ⟨k, v⟩ := e
    cases m with
    | nil => simp [SMap.wf]
    | cons f m =>
      obtain ⟨k', v'⟩ := f
      simp only [SMap.wf, Bool.and_eq_true, decide_eq_true_eq, ih, List.pairwise_cons, List.mem_cons,
        forall_eq_or_imp]
      constructor
      · rintro ⟨⟨h1, h2⟩, ⟨h3, h4⟩, h5⟩
        exact ⟨⟨⟨h2, fun e he => Nat.lt_trans h2 (h3 e he)⟩, h3, h4⟩, h1, h5⟩
      · rintro ⟨⟨⟨h2, -⟩, h3, h4⟩, h1, h5⟩
        exact ⟨⟨h1, h2⟩, ⟨h3, h4⟩, h5⟩

theorem SMap.mem_ins {α : Type} {m : SMap α} {x : Nat} {w : α} {e : Nat × α} :
    e ∈ SMap.ins m x w ↔ e = (x, w) ∨ e ∈ m := by
  induction m with
  | nil => simp [SMap.ins]
  | cons f m ih => simp only [SMap.ins]; split <;> simp [ih, or_left_comm]

theorem SMap.pairwise_ins {α : Type} {m : SMap α} {x : Nat} {w : α} (h : m.Pairwise (fun a b => a.1 < b.1))
    (hx : ∀ e ∈ m, e.1 ≠ x) : (SMap.ins m x w).Pairwise (fun a b => a.1 < b.1) := by
  induction m with
  | nil => simp [SMap.ins]
  | cons f m ih =>
    have h' := List.pairwise_cons.1 h
    have hf : f.1 ≠ x := hx f (by simp)
    simp only [SMap.ins]
    split
    · refine List.pairwise_cons.2 ⟨fun e he => ?_, h⟩
      rcases List.mem_cons.1 he with rfl | he
      · assumption
      · exact Nat.lt_trans (by assumption) (h'.1 e he)
    · refine List.pairwise_cons.2 ⟨fun e he => ?_, ih h'.2 fun e he => hx e (by simp [he])⟩
      rcases SMap.mem_ins.1 he with rfl | he
      · change f.1 < x; omega
      · exact h'.1 e he

/-- Setting a key keeps the canonical form. -/
theorem SMap.wf_set {α : Type} [DecidableEq α] {d : α} (m : SMap α) (x : Nat) (w : α)
    (h : SMap.wf (fun _ => d) m = true) : SMap.wf (fun _ => d) (SMap.set d m x w) = true := by
  rw [SMap.wf_iff] at h ⊢
  have he : (SMap.erase m x).Pairwise (fun a b => a.1 < b.1) := h.1.filter _
  have hx : ∀ e ∈ SMap.erase m x, e.1 ≠ x ∧ e ∈ m := by simp [SMap.erase, and_comm]
  unfold SMap.set
  split
  · exact ⟨he, fun e h' => h.2 e (hx e h').2⟩
  · refine ⟨SMap.pairwise_ins he fun e h' => (hx e h').1, fun e h' => ?_⟩
    rcases SMap.mem_ins.1 h' with rfl | h'
    · assumption
    · exact h.2 e (hx e h').2

/-- What a key reads as after a key is set. -/
theorem SMap.get_erase {α : Type} {d : α} (m : SMap α) (x y : Nat) :
    SMap.get d (SMap.erase m x) y = if y = x then d else SMap.get d m y := by
  induction m with
  | nil => simp [SMap.erase, SMap.get]
  | cons e m ih =>
    obtain ⟨k, v⟩ := e
    simp only [SMap.erase, List.filter_cons] at ih ⊢
    by_cases hk : k = x
    · subst hk; simp only [bne_self_eq_false, Bool.false_eq_true, if_false, ih, SMap.get]
      split <;> simp_all
    · simp only [bne_iff_ne, ne_eq, hk, not_false_eq_true, if_true, SMap.get, ih]
      split <;> simp_all

theorem SMap.get_ins {α : Type} {d : α} (m : SMap α) (x : Nat) (w : α) (y : Nat) (hx : ∀ e ∈ m, e.1 ≠ x) :
    SMap.get d (SMap.ins m x w) y = if y = x then w else SMap.get d m y := by
  induction m with
  | nil => simp [SMap.ins, SMap.get]
  | cons e m ih =>
    obtain ⟨k, v⟩ := e
    have hk : k ≠ x := hx (k, v) (by simp)
    simp only [SMap.ins]
    split
    · simp [SMap.get]
    · simp only [SMap.get, ih fun e he => hx e (by simp [he])]
      split <;> simp_all

@[simp] theorem SMap.get_set {α : Type} [DecidableEq α] {d : α} (m : SMap α) (x : Nat) (w : α) (y : Nat) :
    SMap.get d (SMap.set d m x w) y = if y = x then w else SMap.get d m y := by
  unfold SMap.set
  split
  · rw [SMap.get_erase]; split <;> simp_all
  · rw [SMap.get_ins, SMap.get_erase]
    · split <;> simp_all
    · simp [SMap.erase]

end Sys2Proof.Machine
end

