-- ==== Sys2Proof/Laws/Quire.lean ====
section
/-!
SUPPORT. What one instruction of a Quire complex does when its cores agree: the cores' outputs compare equal, every core takes
the same next state, and the requests are served once.
-/
namespace Sys2Proof.Machine

/-- What a core answers once its instruction word is fetched: coreStep after its fetch. -/
theorem coreStep_of_fetch {s : State} {j x a w : Nat} {c : CoreSt} {h : List (Nat × List Byte)} {rq : List Nat}
    (hf : s.fetchCheck j c = .ok a)
    (hl : s.fetchLines j c.lines [a / 64 * 64, (a + 3) / 64 * 64].eraseDups = .ok (h, rq))
    (hw : wordIn h a = w) (hp : s.qPending j c w = false) :
    s.coreStep j x c =
      let c1 := { c with lines := (s.prefetch j h (a / 64 * 64 + 64)).1, cycle := c.cycle + loadTime j rq * s.periodFc j }
      let fs := (rq ++ (s.prefetch j h (a / 64 * 64 + 64)).2).map QReq.fetch
      match (match qBodyOf (qKey w) with
        | some f => f s j w x c1
        | none => QEff.illegal) with
      | .stall => { core := c, key := some (qKey w), stalled := true }
      | .ok c2 pc cost =>
        let c3 := { c2 with pc := alignPc pc, cycle := c2.cycle + cost * s.periodFc j, instret := c2.instret + 1 }
        if pc = alignPc pc then { core := c3, reqs := fs, key := some (qKey w) }
        else let e := c3.except (s.periodFc j) ((c3.fetchCause pc).getD 4) pc pc 0; { core := e.1, reqs := fs, halt := e.2, key := some (qKey w) }
      | .load l cost =>
        { core := { c1 with load := some l, cycle := c1.cycle + cost * s.periodFc j }, reqs := fs ++ [.load l.size l.addrs],
          key := some (qKey w) }
      | .enq i =>
        { core := { c1 with pc := c1.nextPc, cycle := c1.cycle + s.periodFc j, instret := c1.instret + 1 },
          reqs := fs ++ [.enq i], key := some (qKey w) }
      | .trap cause ea info next =>
        let e := c1.except (s.periodFc j) cause (if next then c.nextPc else c.pc) ea info
        { core := e.1, reqs := fs, halt := e.2, key := some (qKey w) } := by
  unfold State.coreStep
  simp only [hf, hl, hw, hp]
  rfl

/-- Outputs that are all equal compare equal, and the comparator changes nothing. -/
theorem compareOutputs_all_eq {α : Type} [DecidableEq α] (s : State) (k : Nat) (ns : List Nat) (o : α) (h : ns ≠ []) :
    s.compareOutputs k (ns.map fun n => (n, o)) = (some o, s) := by
  cases ns with
  | nil => exact absurd rfl h
  | cons n ns => simp [State.compareOutputs]

/-- One instruction of a complex whose cores all hold c, where nothing precedes it: every core becomes what one core makes
of it. -/
theorem quire_of_lockstep {s : State} {j x : Nat} {c : CoreSt} {key : Option (Nat × Nat)} {o : CoreOut}
    (hne : s.complexCores j ≠ []) (hc : ∀ n ∈ s.complexCores j, s.core n = c) (hi : c.issues = true)
    (hl : c.load = none) (he : (j == 0 && c.ending) = false) (hf : s.takesFast j c = false)
    (hn : s.takesNormal j c = false) (ho : s.coreStep j x c = o) :
    s.quire j key x =
      if (match o.key with
          | none => true
          | some q => if (qBodyOf q).isSome then key == some q else key.isNone) = false ∨ o.stalled = true then s
      else (((s.complexCores j).foldl (fun t n => t.setCore n o.core) s).serveReqs j o.reqs).reportHalt j o.halt := by
  have hmap : (s.complexCores j).map (fun n => (n, if (s.core n).issues then s.coreStep j x (s.core n)
      else { core := s.core n, stalled := true })) = (s.complexCores j).map fun n => (n, o) := by
    apply List.map_congr_left
    intro n hn
    rw [hc n hn, ho, if_pos hi]
  have hheld : ((s.complexCores j).any fun n => (s.core n).load.isSome || (j == 0 && (s.core n).ending) ||
      ((s.core n).issues && (s.takesFast j (s.core n) || s.takesNormal j (s.core n)))) = false := by
    rw [List.any_eq_false]
    intro n hm
    rw [hc n hm, hl, he, hf, hn]
    simp
  have hcmp : s.compareOutputs j (((s.complexCores j).map fun n => (n, o)).map fun p => (p.1, p.2.reqs)) =
      (some o.reqs, s) := by
    rw [List.map_map]
    exact compareOutputs_all_eq s j _ o.reqs hne
  have hfold : ((s.complexCores j).map fun n => (n, o)).foldl (fun t (p : Nat × CoreOut) => t.setCore p.1 p.2.core) s =
      (s.complexCores j).foldl (fun t n => t.setCore n o.core) s := by
    rw [List.foldl_map]
  unfold State.quire
  simp only [hmap, hheld]
  cases hs : o.stalled with
  | true =>
    have : ((s.complexCores j).map fun n => (n, o)).find? (fun p => !p.2.stalled) = none := by
      rw [List.find?_eq_none]
      intro p hp
      obtain ⟨n, -, rfl⟩ := List.mem_map.mp hp
      simp [hs]
    simp [this]
  | false =>
    obtain ⟨n, ns, hns⟩ := List.exists_cons_of_ne_nil hne
    have : ((s.complexCores j).map fun n => (n, o)).find? (fun p => !p.2.stalled) = some (n, o) := by
      rw [hns]
      simp [hs]
    simp only [this, hcmp, hfold]
    cases hk : o.key <;> simp

end Sys2Proof.Machine
end

