-- ==== Sys2Proof/Laws/State.lean ====
section
/-!
SUPPORT. What each update of the state leaves: one lemma per field per update, true by unfolding.
-/
namespace Sys2Proof.Machine

@[simp] theorem State.onFeed_pending (s : State) (f : FeedSt → FeedSt) : (s.onFeed f).pending = s.pending := rfl
@[simp] theorem State.onFeed_out (s : State) (f : FeedSt → FeedSt) : (s.onFeed f).out = s.out := rfl
@[simp] theorem State.onFeed_regs (s : State) (f : FeedSt → FeedSt) : (s.onFeed f).regs = s.regs := rfl
@[simp] theorem State.onFeed_caps (s : State) (f : FeedSt → FeedSt) : (s.onFeed f).caps = s.caps := rfl
@[simp] theorem State.onFeed_mono (s : State) (f : FeedSt → FeedSt) : (s.onFeed f).mono = s.mono := rfl
@[simp] theorem State.onFeed_dev (s : State) (f : FeedSt → FeedSt) : (s.onFeed f).dev = s.dev := rfl
@[simp] theorem State.onFeed_free (s : State) (f : FeedSt → FeedSt) : (s.onFeed f).free = s.free := rfl
@[simp] theorem State.onFeed_feed (s : State) (f : FeedSt → FeedSt) : (s.onFeed f).feed = f s.feed := rfl
@[simp] theorem State.onFeed_ptp (s : State) (f : FeedSt → FeedSt) : (s.onFeed f).ptp = s.ptp := rfl
@[simp] theorem State.onFeed_impose (s : State) (f : FeedSt → FeedSt) : (s.onFeed f).impose = s.impose := rfl
@[simp] theorem State.onFeed_drive (s : State) (f : FeedSt → FeedSt) : (s.onFeed f).drive = s.drive := rfl
@[simp] theorem State.onFeed_mem (s : State) (f : FeedSt → FeedSt) : (s.onFeed f).mem = s.mem := rfl
@[simp] theorem State.onFeed_evt (s : State) (f : FeedSt → FeedSt) : (s.onFeed f).evt = s.evt := rfl
@[simp] theorem State.onFeed_fault (s : State) (f : FeedSt → FeedSt) : (s.onFeed f).fault = s.fault := rfl
@[simp] theorem State.onFeed_power (s : State) (f : FeedSt → FeedSt) : (s.onFeed f).power = s.power := rfl
@[simp] theorem State.onFeed_clock (s : State) (f : FeedSt → FeedSt) : (s.onFeed f).clock = s.clock := rfl
@[simp] theorem State.onFeed_frisket (s : State) (f : FeedSt → FeedSt) : (s.onFeed f).frisket = s.frisket := rfl
@[simp] theorem State.onFeed_msixFmask (s : State) (f : FeedSt → FeedSt) : (s.onFeed f).msixFmask = s.msixFmask := rfl
@[simp] theorem State.onFeed_noc (s : State) (f : FeedSt → FeedSt) : (s.onFeed f).noc = s.noc := rfl
@[simp] theorem State.onFeed_forme (s : State) (f : FeedSt → FeedSt) : (s.onFeed f).forme = s.forme := rfl
@[simp] theorem State.onFeed_seq (s : State) (f : FeedSt → FeedSt) : (s.onFeed f).seq = s.seq := rfl
@[simp] theorem State.onFeed_cstore (s : State) (f : FeedSt → FeedSt) : (s.onFeed f).cstore = s.cstore := rfl
@[simp] theorem State.onFeed_comp (s : State) (f : FeedSt → FeedSt) : (s.onFeed f).comp = s.comp := rfl
@[simp] theorem State.onFeed_cores (s : State) (f : FeedSt → FeedSt) : (s.onFeed f).cores = s.cores := rfl
@[simp] theorem State.onFeed_webs (s : State) (f : FeedSt → FeedSt) : (s.onFeed f).webs = s.webs := rfl
@[simp] theorem State.onFeed_jobs (s : State) (f : FeedSt → FeedSt) : (s.onFeed f).jobs = s.jobs := rfl
@[simp] theorem State.onFeed_sp (s : State) (f : FeedSt → FeedSt) : (s.onFeed f).sp = s.sp := rfl
@[simp] theorem State.onFeed_host (s : State) (f : FeedSt → FeedSt) : (s.onFeed f).host = s.host := rfl
@[simp] theorem State.onFeed_log (s : State) (f : FeedSt → FeedSt) : (s.onFeed f).log = s.log := rfl
@[simp] theorem State.onFeed_colo (s : State) (f : FeedSt → FeedSt) : (s.onFeed f).colo = s.colo := rfl
@[simp] theorem State.onFeed_device (s : State) (f : FeedSt → FeedSt) : (s.onFeed f).device = s.device := rfl

@[simp] theorem State.onImpose_pending (s : State) (f : ImposeSt → ImposeSt) : (s.onImpose f).pending = s.pending := rfl
@[simp] theorem State.onImpose_out (s : State) (f : ImposeSt → ImposeSt) : (s.onImpose f).out = s.out := rfl
@[simp] theorem State.onImpose_regs (s : State) (f : ImposeSt → ImposeSt) : (s.onImpose f).regs = s.regs := rfl
@[simp] theorem State.onImpose_caps (s : State) (f : ImposeSt → ImposeSt) : (s.onImpose f).caps = s.caps := rfl
@[simp] theorem State.onImpose_mono (s : State) (f : ImposeSt → ImposeSt) : (s.onImpose f).mono = s.mono := rfl
@[simp] theorem State.onImpose_dev (s : State) (f : ImposeSt → ImposeSt) : (s.onImpose f).dev = s.dev := rfl
@[simp] theorem State.onImpose_free (s : State) (f : ImposeSt → ImposeSt) : (s.onImpose f).free = s.free := rfl
@[simp] theorem State.onImpose_feed (s : State) (f : ImposeSt → ImposeSt) : (s.onImpose f).feed = s.feed := rfl
@[simp] theorem State.onImpose_ptp (s : State) (f : ImposeSt → ImposeSt) : (s.onImpose f).ptp = s.ptp := rfl
@[simp] theorem State.onImpose_impose (s : State) (f : ImposeSt → ImposeSt) : (s.onImpose f).impose = f s.impose := rfl
@[simp] theorem State.onImpose_drive (s : State) (f : ImposeSt → ImposeSt) : (s.onImpose f).drive = s.drive := rfl
@[simp] theorem State.onImpose_mem (s : State) (f : ImposeSt → ImposeSt) : (s.onImpose f).mem = s.mem := rfl
@[simp] theorem State.onImpose_evt (s : State) (f : ImposeSt → ImposeSt) : (s.onImpose f).evt = s.evt := rfl
@[simp] theorem State.onImpose_fault (s : State) (f : ImposeSt → ImposeSt) : (s.onImpose f).fault = s.fault := rfl
@[simp] theorem State.onImpose_power (s : State) (f : ImposeSt → ImposeSt) : (s.onImpose f).power = s.power := rfl
@[simp] theorem State.onImpose_clock (s : State) (f : ImposeSt → ImposeSt) : (s.onImpose f).clock = s.clock := rfl
@[simp] theorem State.onImpose_frisket (s : State) (f : ImposeSt → ImposeSt) : (s.onImpose f).frisket = s.frisket := rfl
@[simp] theorem State.onImpose_msixFmask (s : State) (f : ImposeSt → ImposeSt) : (s.onImpose f).msixFmask = s.msixFmask := rfl
@[simp] theorem State.onImpose_noc (s : State) (f : ImposeSt → ImposeSt) : (s.onImpose f).noc = s.noc := rfl
@[simp] theorem State.onImpose_forme (s : State) (f : ImposeSt → ImposeSt) : (s.onImpose f).forme = s.forme := rfl
@[simp] theorem State.onImpose_seq (s : State) (f : ImposeSt → ImposeSt) : (s.onImpose f).seq = s.seq := rfl
@[simp] theorem State.onImpose_cstore (s : State) (f : ImposeSt → ImposeSt) : (s.onImpose f).cstore = s.cstore := rfl
@[simp] theorem State.onImpose_comp (s : State) (f : ImposeSt → ImposeSt) : (s.onImpose f).comp = s.comp := rfl
@[simp] theorem State.onImpose_cores (s : State) (f : ImposeSt → ImposeSt) : (s.onImpose f).cores = s.cores := rfl
@[simp] theorem State.onImpose_webs (s : State) (f : ImposeSt → ImposeSt) : (s.onImpose f).webs = s.webs := rfl
@[simp] theorem State.onImpose_jobs (s : State) (f : ImposeSt → ImposeSt) : (s.onImpose f).jobs = s.jobs := rfl
@[simp] theorem State.onImpose_sp (s : State) (f : ImposeSt → ImposeSt) : (s.onImpose f).sp = s.sp := rfl
@[simp] theorem State.onImpose_host (s : State) (f : ImposeSt → ImposeSt) : (s.onImpose f).host = s.host := rfl
@[simp] theorem State.onImpose_log (s : State) (f : ImposeSt → ImposeSt) : (s.onImpose f).log = s.log := rfl
@[simp] theorem State.onImpose_colo (s : State) (f : ImposeSt → ImposeSt) : (s.onImpose f).colo = s.colo := rfl
@[simp] theorem State.onImpose_device (s : State) (f : ImposeSt → ImposeSt) : (s.onImpose f).device = s.device := rfl

@[simp] theorem State.onDrive_pending (s : State) (f : DriveSt → DriveSt) : (s.onDrive f).pending = s.pending := rfl
@[simp] theorem State.onDrive_out (s : State) (f : DriveSt → DriveSt) : (s.onDrive f).out = s.out := rfl
@[simp] theorem State.onDrive_regs (s : State) (f : DriveSt → DriveSt) : (s.onDrive f).regs = s.regs := rfl
@[simp] theorem State.onDrive_caps (s : State) (f : DriveSt → DriveSt) : (s.onDrive f).caps = s.caps := rfl
@[simp] theorem State.onDrive_mono (s : State) (f : DriveSt → DriveSt) : (s.onDrive f).mono = s.mono := rfl
@[simp] theorem State.onDrive_dev (s : State) (f : DriveSt → DriveSt) : (s.onDrive f).dev = s.dev := rfl
@[simp] theorem State.onDrive_free (s : State) (f : DriveSt → DriveSt) : (s.onDrive f).free = s.free := rfl
@[simp] theorem State.onDrive_feed (s : State) (f : DriveSt → DriveSt) : (s.onDrive f).feed = s.feed := rfl
@[simp] theorem State.onDrive_ptp (s : State) (f : DriveSt → DriveSt) : (s.onDrive f).ptp = s.ptp := rfl
@[simp] theorem State.onDrive_impose (s : State) (f : DriveSt → DriveSt) : (s.onDrive f).impose = s.impose := rfl
@[simp] theorem State.onDrive_drive (s : State) (f : DriveSt → DriveSt) : (s.onDrive f).drive = f s.drive := rfl
@[simp] theorem State.onDrive_mem (s : State) (f : DriveSt → DriveSt) : (s.onDrive f).mem = s.mem := rfl
@[simp] theorem State.onDrive_evt (s : State) (f : DriveSt → DriveSt) : (s.onDrive f).evt = s.evt := rfl
@[simp] theorem State.onDrive_fault (s : State) (f : DriveSt → DriveSt) : (s.onDrive f).fault = s.fault := rfl
@[simp] theorem State.onDrive_power (s : State) (f : DriveSt → DriveSt) : (s.onDrive f).power = s.power := rfl
@[simp] theorem State.onDrive_clock (s : State) (f : DriveSt → DriveSt) : (s.onDrive f).clock = s.clock := rfl
@[simp] theorem State.onDrive_frisket (s : State) (f : DriveSt → DriveSt) : (s.onDrive f).frisket = s.frisket := rfl
@[simp] theorem State.onDrive_msixFmask (s : State) (f : DriveSt → DriveSt) : (s.onDrive f).msixFmask = s.msixFmask := rfl
@[simp] theorem State.onDrive_noc (s : State) (f : DriveSt → DriveSt) : (s.onDrive f).noc = s.noc := rfl
@[simp] theorem State.onDrive_forme (s : State) (f : DriveSt → DriveSt) : (s.onDrive f).forme = s.forme := rfl
@[simp] theorem State.onDrive_seq (s : State) (f : DriveSt → DriveSt) : (s.onDrive f).seq = s.seq := rfl
@[simp] theorem State.onDrive_cstore (s : State) (f : DriveSt → DriveSt) : (s.onDrive f).cstore = s.cstore := rfl
@[simp] theorem State.onDrive_comp (s : State) (f : DriveSt → DriveSt) : (s.onDrive f).comp = s.comp := rfl
@[simp] theorem State.onDrive_cores (s : State) (f : DriveSt → DriveSt) : (s.onDrive f).cores = s.cores := rfl
@[simp] theorem State.onDrive_webs (s : State) (f : DriveSt → DriveSt) : (s.onDrive f).webs = s.webs := rfl
@[simp] theorem State.onDrive_jobs (s : State) (f : DriveSt → DriveSt) : (s.onDrive f).jobs = s.jobs := rfl
@[simp] theorem State.onDrive_sp (s : State) (f : DriveSt → DriveSt) : (s.onDrive f).sp = s.sp := rfl
@[simp] theorem State.onDrive_host (s : State) (f : DriveSt → DriveSt) : (s.onDrive f).host = s.host := rfl
@[simp] theorem State.onDrive_log (s : State) (f : DriveSt → DriveSt) : (s.onDrive f).log = s.log := rfl
@[simp] theorem State.onDrive_colo (s : State) (f : DriveSt → DriveSt) : (s.onDrive f).colo = s.colo := rfl
@[simp] theorem State.onDrive_device (s : State) (f : DriveSt → DriveSt) : (s.onDrive f).device = s.device := rfl

@[simp] theorem State.onMem_pending (s : State) (f : MemSt → MemSt) : (s.onMem f).pending = s.pending := rfl
@[simp] theorem State.onMem_out (s : State) (f : MemSt → MemSt) : (s.onMem f).out = s.out := rfl
@[simp] theorem State.onMem_regs (s : State) (f : MemSt → MemSt) : (s.onMem f).regs = s.regs := rfl
@[simp] theorem State.onMem_caps (s : State) (f : MemSt → MemSt) : (s.onMem f).caps = s.caps := rfl
@[simp] theorem State.onMem_mono (s : State) (f : MemSt → MemSt) : (s.onMem f).mono = s.mono := rfl
@[simp] theorem State.onMem_dev (s : State) (f : MemSt → MemSt) : (s.onMem f).dev = s.dev := rfl
@[simp] theorem State.onMem_free (s : State) (f : MemSt → MemSt) : (s.onMem f).free = s.free := rfl
@[simp] theorem State.onMem_feed (s : State) (f : MemSt → MemSt) : (s.onMem f).feed = s.feed := rfl
@[simp] theorem State.onMem_ptp (s : State) (f : MemSt → MemSt) : (s.onMem f).ptp = s.ptp := rfl
@[simp] theorem State.onMem_impose (s : State) (f : MemSt → MemSt) : (s.onMem f).impose = s.impose := rfl
@[simp] theorem State.onMem_drive (s : State) (f : MemSt → MemSt) : (s.onMem f).drive = s.drive := rfl
@[simp] theorem State.onMem_mem (s : State) (f : MemSt → MemSt) : (s.onMem f).mem = f s.mem := rfl
@[simp] theorem State.onMem_evt (s : State) (f : MemSt → MemSt) : (s.onMem f).evt = s.evt := rfl
@[simp] theorem State.onMem_fault (s : State) (f : MemSt → MemSt) : (s.onMem f).fault = s.fault := rfl
@[simp] theorem State.onMem_power (s : State) (f : MemSt → MemSt) : (s.onMem f).power = s.power := rfl
@[simp] theorem State.onMem_clock (s : State) (f : MemSt → MemSt) : (s.onMem f).clock = s.clock := rfl
@[simp] theorem State.onMem_frisket (s : State) (f : MemSt → MemSt) : (s.onMem f).frisket = s.frisket := rfl
@[simp] theorem State.onMem_msixFmask (s : State) (f : MemSt → MemSt) : (s.onMem f).msixFmask = s.msixFmask := rfl
@[simp] theorem State.onMem_noc (s : State) (f : MemSt → MemSt) : (s.onMem f).noc = s.noc := rfl
@[simp] theorem State.onMem_forme (s : State) (f : MemSt → MemSt) : (s.onMem f).forme = s.forme := rfl
@[simp] theorem State.onMem_seq (s : State) (f : MemSt → MemSt) : (s.onMem f).seq = s.seq := rfl
@[simp] theorem State.onMem_cstore (s : State) (f : MemSt → MemSt) : (s.onMem f).cstore = s.cstore := rfl
@[simp] theorem State.onMem_comp (s : State) (f : MemSt → MemSt) : (s.onMem f).comp = s.comp := rfl
@[simp] theorem State.onMem_cores (s : State) (f : MemSt → MemSt) : (s.onMem f).cores = s.cores := rfl
@[simp] theorem State.onMem_webs (s : State) (f : MemSt → MemSt) : (s.onMem f).webs = s.webs := rfl
@[simp] theorem State.onMem_jobs (s : State) (f : MemSt → MemSt) : (s.onMem f).jobs = s.jobs := rfl
@[simp] theorem State.onMem_sp (s : State) (f : MemSt → MemSt) : (s.onMem f).sp = s.sp := rfl
@[simp] theorem State.onMem_host (s : State) (f : MemSt → MemSt) : (s.onMem f).host = s.host := rfl
@[simp] theorem State.onMem_log (s : State) (f : MemSt → MemSt) : (s.onMem f).log = s.log := rfl
@[simp] theorem State.onMem_colo (s : State) (f : MemSt → MemSt) : (s.onMem f).colo = s.colo := rfl
@[simp] theorem State.onMem_device (s : State) (f : MemSt → MemSt) : (s.onMem f).device = s.device := rfl

@[simp] theorem State.onEvt_pending (s : State) (f : EvtSt → EvtSt) : (s.onEvt f).pending = s.pending := rfl
@[simp] theorem State.onEvt_out (s : State) (f : EvtSt → EvtSt) : (s.onEvt f).out = s.out := rfl
@[simp] theorem State.onEvt_regs (s : State) (f : EvtSt → EvtSt) : (s.onEvt f).regs = s.regs := rfl
@[simp] theorem State.onEvt_caps (s : State) (f : EvtSt → EvtSt) : (s.onEvt f).caps = s.caps := rfl
@[simp] theorem State.onEvt_mono (s : State) (f : EvtSt → EvtSt) : (s.onEvt f).mono = s.mono := rfl
@[simp] theorem State.onEvt_dev (s : State) (f : EvtSt → EvtSt) : (s.onEvt f).dev = s.dev := rfl
@[simp] theorem State.onEvt_free (s : State) (f : EvtSt → EvtSt) : (s.onEvt f).free = s.free := rfl
@[simp] theorem State.onEvt_feed (s : State) (f : EvtSt → EvtSt) : (s.onEvt f).feed = s.feed := rfl
@[simp] theorem State.onEvt_ptp (s : State) (f : EvtSt → EvtSt) : (s.onEvt f).ptp = s.ptp := rfl
@[simp] theorem State.onEvt_impose (s : State) (f : EvtSt → EvtSt) : (s.onEvt f).impose = s.impose := rfl
@[simp] theorem State.onEvt_drive (s : State) (f : EvtSt → EvtSt) : (s.onEvt f).drive = s.drive := rfl
@[simp] theorem State.onEvt_mem (s : State) (f : EvtSt → EvtSt) : (s.onEvt f).mem = s.mem := rfl
@[simp] theorem State.onEvt_evt (s : State) (f : EvtSt → EvtSt) : (s.onEvt f).evt = f s.evt := rfl
@[simp] theorem State.onEvt_fault (s : State) (f : EvtSt → EvtSt) : (s.onEvt f).fault = s.fault := rfl
@[simp] theorem State.onEvt_power (s : State) (f : EvtSt → EvtSt) : (s.onEvt f).power = s.power := rfl
@[simp] theorem State.onEvt_clock (s : State) (f : EvtSt → EvtSt) : (s.onEvt f).clock = s.clock := rfl
@[simp] theorem State.onEvt_frisket (s : State) (f : EvtSt → EvtSt) : (s.onEvt f).frisket = s.frisket := rfl
@[simp] theorem State.onEvt_msixFmask (s : State) (f : EvtSt → EvtSt) : (s.onEvt f).msixFmask = s.msixFmask := rfl
@[simp] theorem State.onEvt_noc (s : State) (f : EvtSt → EvtSt) : (s.onEvt f).noc = s.noc := rfl
@[simp] theorem State.onEvt_forme (s : State) (f : EvtSt → EvtSt) : (s.onEvt f).forme = s.forme := rfl
@[simp] theorem State.onEvt_seq (s : State) (f : EvtSt → EvtSt) : (s.onEvt f).seq = s.seq := rfl
@[simp] theorem State.onEvt_cstore (s : State) (f : EvtSt → EvtSt) : (s.onEvt f).cstore = s.cstore := rfl
@[simp] theorem State.onEvt_comp (s : State) (f : EvtSt → EvtSt) : (s.onEvt f).comp = s.comp := rfl
@[simp] theorem State.onEvt_cores (s : State) (f : EvtSt → EvtSt) : (s.onEvt f).cores = s.cores := rfl
@[simp] theorem State.onEvt_webs (s : State) (f : EvtSt → EvtSt) : (s.onEvt f).webs = s.webs := rfl
@[simp] theorem State.onEvt_jobs (s : State) (f : EvtSt → EvtSt) : (s.onEvt f).jobs = s.jobs := rfl
@[simp] theorem State.onEvt_sp (s : State) (f : EvtSt → EvtSt) : (s.onEvt f).sp = s.sp := rfl
@[simp] theorem State.onEvt_host (s : State) (f : EvtSt → EvtSt) : (s.onEvt f).host = s.host := rfl
@[simp] theorem State.onEvt_log (s : State) (f : EvtSt → EvtSt) : (s.onEvt f).log = s.log := rfl
@[simp] theorem State.onEvt_colo (s : State) (f : EvtSt → EvtSt) : (s.onEvt f).colo = s.colo := rfl
@[simp] theorem State.onEvt_device (s : State) (f : EvtSt → EvtSt) : (s.onEvt f).device = s.device := rfl

@[simp] theorem State.onFault_pending (s : State) (f : FaultSt → FaultSt) : (s.onFault f).pending = s.pending := rfl
@[simp] theorem State.onFault_out (s : State) (f : FaultSt → FaultSt) : (s.onFault f).out = s.out := rfl
@[simp] theorem State.onFault_regs (s : State) (f : FaultSt → FaultSt) : (s.onFault f).regs = s.regs := rfl
@[simp] theorem State.onFault_caps (s : State) (f : FaultSt → FaultSt) : (s.onFault f).caps = s.caps := rfl
@[simp] theorem State.onFault_mono (s : State) (f : FaultSt → FaultSt) : (s.onFault f).mono = s.mono := rfl
@[simp] theorem State.onFault_dev (s : State) (f : FaultSt → FaultSt) : (s.onFault f).dev = s.dev := rfl
@[simp] theorem State.onFault_free (s : State) (f : FaultSt → FaultSt) : (s.onFault f).free = s.free := rfl
@[simp] theorem State.onFault_feed (s : State) (f : FaultSt → FaultSt) : (s.onFault f).feed = s.feed := rfl
@[simp] theorem State.onFault_ptp (s : State) (f : FaultSt → FaultSt) : (s.onFault f).ptp = s.ptp := rfl
@[simp] theorem State.onFault_impose (s : State) (f : FaultSt → FaultSt) : (s.onFault f).impose = s.impose := rfl
@[simp] theorem State.onFault_drive (s : State) (f : FaultSt → FaultSt) : (s.onFault f).drive = s.drive := rfl
@[simp] theorem State.onFault_mem (s : State) (f : FaultSt → FaultSt) : (s.onFault f).mem = s.mem := rfl
@[simp] theorem State.onFault_evt (s : State) (f : FaultSt → FaultSt) : (s.onFault f).evt = s.evt := rfl
@[simp] theorem State.onFault_fault (s : State) (f : FaultSt → FaultSt) : (s.onFault f).fault = f s.fault := rfl
@[simp] theorem State.onFault_power (s : State) (f : FaultSt → FaultSt) : (s.onFault f).power = s.power := rfl
@[simp] theorem State.onFault_clock (s : State) (f : FaultSt → FaultSt) : (s.onFault f).clock = s.clock := rfl
@[simp] theorem State.onFault_frisket (s : State) (f : FaultSt → FaultSt) : (s.onFault f).frisket = s.frisket := rfl
@[simp] theorem State.onFault_msixFmask (s : State) (f : FaultSt → FaultSt) : (s.onFault f).msixFmask = s.msixFmask := rfl
@[simp] theorem State.onFault_noc (s : State) (f : FaultSt → FaultSt) : (s.onFault f).noc = s.noc := rfl
@[simp] theorem State.onFault_forme (s : State) (f : FaultSt → FaultSt) : (s.onFault f).forme = s.forme := rfl
@[simp] theorem State.onFault_seq (s : State) (f : FaultSt → FaultSt) : (s.onFault f).seq = s.seq := rfl
@[simp] theorem State.onFault_cstore (s : State) (f : FaultSt → FaultSt) : (s.onFault f).cstore = s.cstore := rfl
@[simp] theorem State.onFault_comp (s : State) (f : FaultSt → FaultSt) : (s.onFault f).comp = s.comp := rfl
@[simp] theorem State.onFault_cores (s : State) (f : FaultSt → FaultSt) : (s.onFault f).cores = s.cores := rfl
@[simp] theorem State.onFault_webs (s : State) (f : FaultSt → FaultSt) : (s.onFault f).webs = s.webs := rfl
@[simp] theorem State.onFault_jobs (s : State) (f : FaultSt → FaultSt) : (s.onFault f).jobs = s.jobs := rfl
@[simp] theorem State.onFault_sp (s : State) (f : FaultSt → FaultSt) : (s.onFault f).sp = s.sp := rfl
@[simp] theorem State.onFault_host (s : State) (f : FaultSt → FaultSt) : (s.onFault f).host = s.host := rfl
@[simp] theorem State.onFault_log (s : State) (f : FaultSt → FaultSt) : (s.onFault f).log = s.log := rfl
@[simp] theorem State.onFault_colo (s : State) (f : FaultSt → FaultSt) : (s.onFault f).colo = s.colo := rfl
@[simp] theorem State.onFault_device (s : State) (f : FaultSt → FaultSt) : (s.onFault f).device = s.device := rfl

@[simp] theorem State.onPower_pending (s : State) (f : PowerSt → PowerSt) : (s.onPower f).pending = s.pending := rfl
@[simp] theorem State.onPower_out (s : State) (f : PowerSt → PowerSt) : (s.onPower f).out = s.out := rfl
@[simp] theorem State.onPower_regs (s : State) (f : PowerSt → PowerSt) : (s.onPower f).regs = s.regs := rfl
@[simp] theorem State.onPower_caps (s : State) (f : PowerSt → PowerSt) : (s.onPower f).caps = s.caps := rfl
@[simp] theorem State.onPower_mono (s : State) (f : PowerSt → PowerSt) : (s.onPower f).mono = s.mono := rfl
@[simp] theorem State.onPower_dev (s : State) (f : PowerSt → PowerSt) : (s.onPower f).dev = s.dev := rfl
@[simp] theorem State.onPower_free (s : State) (f : PowerSt → PowerSt) : (s.onPower f).free = s.free := rfl
@[simp] theorem State.onPower_feed (s : State) (f : PowerSt → PowerSt) : (s.onPower f).feed = s.feed := rfl
@[simp] theorem State.onPower_ptp (s : State) (f : PowerSt → PowerSt) : (s.onPower f).ptp = s.ptp := rfl
@[simp] theorem State.onPower_impose (s : State) (f : PowerSt → PowerSt) : (s.onPower f).impose = s.impose := rfl
@[simp] theorem State.onPower_drive (s : State) (f : PowerSt → PowerSt) : (s.onPower f).drive = s.drive := rfl
@[simp] theorem State.onPower_mem (s : State) (f : PowerSt → PowerSt) : (s.onPower f).mem = s.mem := rfl
@[simp] theorem State.onPower_evt (s : State) (f : PowerSt → PowerSt) : (s.onPower f).evt = s.evt := rfl
@[simp] theorem State.onPower_fault (s : State) (f : PowerSt → PowerSt) : (s.onPower f).fault = s.fault := rfl
@[simp] theorem State.onPower_power (s : State) (f : PowerSt → PowerSt) : (s.onPower f).power = f s.power := rfl
@[simp] theorem State.onPower_clock (s : State) (f : PowerSt → PowerSt) : (s.onPower f).clock = s.clock := rfl
@[simp] theorem State.onPower_frisket (s : State) (f : PowerSt → PowerSt) : (s.onPower f).frisket = s.frisket := rfl
@[simp] theorem State.onPower_msixFmask (s : State) (f : PowerSt → PowerSt) : (s.onPower f).msixFmask = s.msixFmask := rfl
@[simp] theorem State.onPower_noc (s : State) (f : PowerSt → PowerSt) : (s.onPower f).noc = s.noc := rfl
@[simp] theorem State.onPower_forme (s : State) (f : PowerSt → PowerSt) : (s.onPower f).forme = s.forme := rfl
@[simp] theorem State.onPower_seq (s : State) (f : PowerSt → PowerSt) : (s.onPower f).seq = s.seq := rfl
@[simp] theorem State.onPower_cstore (s : State) (f : PowerSt → PowerSt) : (s.onPower f).cstore = s.cstore := rfl
@[simp] theorem State.onPower_comp (s : State) (f : PowerSt → PowerSt) : (s.onPower f).comp = s.comp := rfl
@[simp] theorem State.onPower_cores (s : State) (f : PowerSt → PowerSt) : (s.onPower f).cores = s.cores := rfl
@[simp] theorem State.onPower_webs (s : State) (f : PowerSt → PowerSt) : (s.onPower f).webs = s.webs := rfl
@[simp] theorem State.onPower_jobs (s : State) (f : PowerSt → PowerSt) : (s.onPower f).jobs = s.jobs := rfl
@[simp] theorem State.onPower_sp (s : State) (f : PowerSt → PowerSt) : (s.onPower f).sp = s.sp := rfl
@[simp] theorem State.onPower_host (s : State) (f : PowerSt → PowerSt) : (s.onPower f).host = s.host := rfl
@[simp] theorem State.onPower_log (s : State) (f : PowerSt → PowerSt) : (s.onPower f).log = s.log := rfl
@[simp] theorem State.onPower_colo (s : State) (f : PowerSt → PowerSt) : (s.onPower f).colo = s.colo := rfl
@[simp] theorem State.onPower_device (s : State) (f : PowerSt → PowerSt) : (s.onPower f).device = s.device := rfl

@[simp] theorem State.onClock_pending (s : State) (f : ClockSt → ClockSt) : (s.onClock f).pending = s.pending := rfl
@[simp] theorem State.onClock_out (s : State) (f : ClockSt → ClockSt) : (s.onClock f).out = s.out := rfl
@[simp] theorem State.onClock_regs (s : State) (f : ClockSt → ClockSt) : (s.onClock f).regs = s.regs := rfl
@[simp] theorem State.onClock_caps (s : State) (f : ClockSt → ClockSt) : (s.onClock f).caps = s.caps := rfl
@[simp] theorem State.onClock_mono (s : State) (f : ClockSt → ClockSt) : (s.onClock f).mono = s.mono := rfl
@[simp] theorem State.onClock_dev (s : State) (f : ClockSt → ClockSt) : (s.onClock f).dev = s.dev := rfl
@[simp] theorem State.onClock_free (s : State) (f : ClockSt → ClockSt) : (s.onClock f).free = s.free := rfl
@[simp] theorem State.onClock_feed (s : State) (f : ClockSt → ClockSt) : (s.onClock f).feed = s.feed := rfl
@[simp] theorem State.onClock_ptp (s : State) (f : ClockSt → ClockSt) : (s.onClock f).ptp = s.ptp := rfl
@[simp] theorem State.onClock_impose (s : State) (f : ClockSt → ClockSt) : (s.onClock f).impose = s.impose := rfl
@[simp] theorem State.onClock_drive (s : State) (f : ClockSt → ClockSt) : (s.onClock f).drive = s.drive := rfl
@[simp] theorem State.onClock_mem (s : State) (f : ClockSt → ClockSt) : (s.onClock f).mem = s.mem := rfl
@[simp] theorem State.onClock_evt (s : State) (f : ClockSt → ClockSt) : (s.onClock f).evt = s.evt := rfl
@[simp] theorem State.onClock_fault (s : State) (f : ClockSt → ClockSt) : (s.onClock f).fault = s.fault := rfl
@[simp] theorem State.onClock_power (s : State) (f : ClockSt → ClockSt) : (s.onClock f).power = s.power := rfl
@[simp] theorem State.onClock_clock (s : State) (f : ClockSt → ClockSt) : (s.onClock f).clock = f s.clock := rfl
@[simp] theorem State.onClock_frisket (s : State) (f : ClockSt → ClockSt) : (s.onClock f).frisket = s.frisket := rfl
@[simp] theorem State.onClock_msixFmask (s : State) (f : ClockSt → ClockSt) : (s.onClock f).msixFmask = s.msixFmask := rfl
@[simp] theorem State.onClock_noc (s : State) (f : ClockSt → ClockSt) : (s.onClock f).noc = s.noc := rfl
@[simp] theorem State.onClock_forme (s : State) (f : ClockSt → ClockSt) : (s.onClock f).forme = s.forme := rfl
@[simp] theorem State.onClock_seq (s : State) (f : ClockSt → ClockSt) : (s.onClock f).seq = s.seq := rfl
@[simp] theorem State.onClock_cstore (s : State) (f : ClockSt → ClockSt) : (s.onClock f).cstore = s.cstore := rfl
@[simp] theorem State.onClock_comp (s : State) (f : ClockSt → ClockSt) : (s.onClock f).comp = s.comp := rfl
@[simp] theorem State.onClock_cores (s : State) (f : ClockSt → ClockSt) : (s.onClock f).cores = s.cores := rfl
@[simp] theorem State.onClock_webs (s : State) (f : ClockSt → ClockSt) : (s.onClock f).webs = s.webs := rfl
@[simp] theorem State.onClock_jobs (s : State) (f : ClockSt → ClockSt) : (s.onClock f).jobs = s.jobs := rfl
@[simp] theorem State.onClock_sp (s : State) (f : ClockSt → ClockSt) : (s.onClock f).sp = s.sp := rfl
@[simp] theorem State.onClock_host (s : State) (f : ClockSt → ClockSt) : (s.onClock f).host = s.host := rfl
@[simp] theorem State.onClock_log (s : State) (f : ClockSt → ClockSt) : (s.onClock f).log = s.log := rfl
@[simp] theorem State.onClock_colo (s : State) (f : ClockSt → ClockSt) : (s.onClock f).colo = s.colo := rfl
@[simp] theorem State.onClock_device (s : State) (f : ClockSt → ClockSt) : (s.onClock f).device = s.device := rfl

@[simp] theorem State.onNoc_pending (s : State) (f : NocSt → NocSt) : (s.onNoc f).pending = s.pending := rfl
@[simp] theorem State.onNoc_out (s : State) (f : NocSt → NocSt) : (s.onNoc f).out = s.out := rfl
@[simp] theorem State.onNoc_regs (s : State) (f : NocSt → NocSt) : (s.onNoc f).regs = s.regs := rfl
@[simp] theorem State.onNoc_caps (s : State) (f : NocSt → NocSt) : (s.onNoc f).caps = s.caps := rfl
@[simp] theorem State.onNoc_mono (s : State) (f : NocSt → NocSt) : (s.onNoc f).mono = s.mono := rfl
@[simp] theorem State.onNoc_dev (s : State) (f : NocSt → NocSt) : (s.onNoc f).dev = s.dev := rfl
@[simp] theorem State.onNoc_free (s : State) (f : NocSt → NocSt) : (s.onNoc f).free = s.free := rfl
@[simp] theorem State.onNoc_feed (s : State) (f : NocSt → NocSt) : (s.onNoc f).feed = s.feed := rfl
@[simp] theorem State.onNoc_ptp (s : State) (f : NocSt → NocSt) : (s.onNoc f).ptp = s.ptp := rfl
@[simp] theorem State.onNoc_impose (s : State) (f : NocSt → NocSt) : (s.onNoc f).impose = s.impose := rfl
@[simp] theorem State.onNoc_drive (s : State) (f : NocSt → NocSt) : (s.onNoc f).drive = s.drive := rfl
@[simp] theorem State.onNoc_mem (s : State) (f : NocSt → NocSt) : (s.onNoc f).mem = s.mem := rfl
@[simp] theorem State.onNoc_evt (s : State) (f : NocSt → NocSt) : (s.onNoc f).evt = s.evt := rfl
@[simp] theorem State.onNoc_fault (s : State) (f : NocSt → NocSt) : (s.onNoc f).fault = s.fault := rfl
@[simp] theorem State.onNoc_power (s : State) (f : NocSt → NocSt) : (s.onNoc f).power = s.power := rfl
@[simp] theorem State.onNoc_clock (s : State) (f : NocSt → NocSt) : (s.onNoc f).clock = s.clock := rfl
@[simp] theorem State.onNoc_frisket (s : State) (f : NocSt → NocSt) : (s.onNoc f).frisket = s.frisket := rfl
@[simp] theorem State.onNoc_msixFmask (s : State) (f : NocSt → NocSt) : (s.onNoc f).msixFmask = s.msixFmask := rfl
@[simp] theorem State.onNoc_noc (s : State) (f : NocSt → NocSt) : (s.onNoc f).noc = f s.noc := rfl
@[simp] theorem State.onNoc_forme (s : State) (f : NocSt → NocSt) : (s.onNoc f).forme = s.forme := rfl
@[simp] theorem State.onNoc_seq (s : State) (f : NocSt → NocSt) : (s.onNoc f).seq = s.seq := rfl
@[simp] theorem State.onNoc_cstore (s : State) (f : NocSt → NocSt) : (s.onNoc f).cstore = s.cstore := rfl
@[simp] theorem State.onNoc_comp (s : State) (f : NocSt → NocSt) : (s.onNoc f).comp = s.comp := rfl
@[simp] theorem State.onNoc_cores (s : State) (f : NocSt → NocSt) : (s.onNoc f).cores = s.cores := rfl
@[simp] theorem State.onNoc_webs (s : State) (f : NocSt → NocSt) : (s.onNoc f).webs = s.webs := rfl
@[simp] theorem State.onNoc_jobs (s : State) (f : NocSt → NocSt) : (s.onNoc f).jobs = s.jobs := rfl
@[simp] theorem State.onNoc_sp (s : State) (f : NocSt → NocSt) : (s.onNoc f).sp = s.sp := rfl
@[simp] theorem State.onNoc_host (s : State) (f : NocSt → NocSt) : (s.onNoc f).host = s.host := rfl
@[simp] theorem State.onNoc_log (s : State) (f : NocSt → NocSt) : (s.onNoc f).log = s.log := rfl
@[simp] theorem State.onNoc_colo (s : State) (f : NocSt → NocSt) : (s.onNoc f).colo = s.colo := rfl
@[simp] theorem State.onNoc_device (s : State) (f : NocSt → NocSt) : (s.onNoc f).device = s.device := rfl

@[simp] theorem State.onForme_pending (s : State) (f : FormeSt → FormeSt) : (s.onForme f).pending = s.pending := rfl
@[simp] theorem State.onForme_out (s : State) (f : FormeSt → FormeSt) : (s.onForme f).out = s.out := rfl
@[simp] theorem State.onForme_regs (s : State) (f : FormeSt → FormeSt) : (s.onForme f).regs = s.regs := rfl
@[simp] theorem State.onForme_caps (s : State) (f : FormeSt → FormeSt) : (s.onForme f).caps = s.caps := rfl
@[simp] theorem State.onForme_mono (s : State) (f : FormeSt → FormeSt) : (s.onForme f).mono = s.mono := rfl
@[simp] theorem State.onForme_dev (s : State) (f : FormeSt → FormeSt) : (s.onForme f).dev = s.dev := rfl
@[simp] theorem State.onForme_free (s : State) (f : FormeSt → FormeSt) : (s.onForme f).free = s.free := rfl
@[simp] theorem State.onForme_feed (s : State) (f : FormeSt → FormeSt) : (s.onForme f).feed = s.feed := rfl
@[simp] theorem State.onForme_ptp (s : State) (f : FormeSt → FormeSt) : (s.onForme f).ptp = s.ptp := rfl
@[simp] theorem State.onForme_impose (s : State) (f : FormeSt → FormeSt) : (s.onForme f).impose = s.impose := rfl
@[simp] theorem State.onForme_drive (s : State) (f : FormeSt → FormeSt) : (s.onForme f).drive = s.drive := rfl
@[simp] theorem State.onForme_mem (s : State) (f : FormeSt → FormeSt) : (s.onForme f).mem = s.mem := rfl
@[simp] theorem State.onForme_evt (s : State) (f : FormeSt → FormeSt) : (s.onForme f).evt = s.evt := rfl
@[simp] theorem State.onForme_fault (s : State) (f : FormeSt → FormeSt) : (s.onForme f).fault = s.fault := rfl
@[simp] theorem State.onForme_power (s : State) (f : FormeSt → FormeSt) : (s.onForme f).power = s.power := rfl
@[simp] theorem State.onForme_clock (s : State) (f : FormeSt → FormeSt) : (s.onForme f).clock = s.clock := rfl
@[simp] theorem State.onForme_frisket (s : State) (f : FormeSt → FormeSt) : (s.onForme f).frisket = s.frisket := rfl
@[simp] theorem State.onForme_msixFmask (s : State) (f : FormeSt → FormeSt) : (s.onForme f).msixFmask = s.msixFmask := rfl
@[simp] theorem State.onForme_noc (s : State) (f : FormeSt → FormeSt) : (s.onForme f).noc = s.noc := rfl
@[simp] theorem State.onForme_forme (s : State) (f : FormeSt → FormeSt) : (s.onForme f).forme = f s.forme := rfl
@[simp] theorem State.onForme_seq (s : State) (f : FormeSt → FormeSt) : (s.onForme f).seq = s.seq := rfl
@[simp] theorem State.onForme_cstore (s : State) (f : FormeSt → FormeSt) : (s.onForme f).cstore = s.cstore := rfl
@[simp] theorem State.onForme_comp (s : State) (f : FormeSt → FormeSt) : (s.onForme f).comp = s.comp := rfl
@[simp] theorem State.onForme_cores (s : State) (f : FormeSt → FormeSt) : (s.onForme f).cores = s.cores := rfl
@[simp] theorem State.onForme_webs (s : State) (f : FormeSt → FormeSt) : (s.onForme f).webs = s.webs := rfl
@[simp] theorem State.onForme_jobs (s : State) (f : FormeSt → FormeSt) : (s.onForme f).jobs = s.jobs := rfl
@[simp] theorem State.onForme_sp (s : State) (f : FormeSt → FormeSt) : (s.onForme f).sp = s.sp := rfl
@[simp] theorem State.onForme_host (s : State) (f : FormeSt → FormeSt) : (s.onForme f).host = s.host := rfl
@[simp] theorem State.onForme_log (s : State) (f : FormeSt → FormeSt) : (s.onForme f).log = s.log := rfl
@[simp] theorem State.onForme_colo (s : State) (f : FormeSt → FormeSt) : (s.onForme f).colo = s.colo := rfl
@[simp] theorem State.onForme_device (s : State) (f : FormeSt → FormeSt) : (s.onForme f).device = s.device := rfl

@[simp] theorem State.onSeq_pending (s : State) (f : SeqSt → SeqSt) : (s.onSeq f).pending = s.pending := rfl
@[simp] theorem State.onSeq_out (s : State) (f : SeqSt → SeqSt) : (s.onSeq f).out = s.out := rfl
@[simp] theorem State.onSeq_regs (s : State) (f : SeqSt → SeqSt) : (s.onSeq f).regs = s.regs := rfl
@[simp] theorem State.onSeq_caps (s : State) (f : SeqSt → SeqSt) : (s.onSeq f).caps = s.caps := rfl
@[simp] theorem State.onSeq_mono (s : State) (f : SeqSt → SeqSt) : (s.onSeq f).mono = s.mono := rfl
@[simp] theorem State.onSeq_dev (s : State) (f : SeqSt → SeqSt) : (s.onSeq f).dev = s.dev := rfl
@[simp] theorem State.onSeq_free (s : State) (f : SeqSt → SeqSt) : (s.onSeq f).free = s.free := rfl
@[simp] theorem State.onSeq_feed (s : State) (f : SeqSt → SeqSt) : (s.onSeq f).feed = s.feed := rfl
@[simp] theorem State.onSeq_ptp (s : State) (f : SeqSt → SeqSt) : (s.onSeq f).ptp = s.ptp := rfl
@[simp] theorem State.onSeq_impose (s : State) (f : SeqSt → SeqSt) : (s.onSeq f).impose = s.impose := rfl
@[simp] theorem State.onSeq_drive (s : State) (f : SeqSt → SeqSt) : (s.onSeq f).drive = s.drive := rfl
@[simp] theorem State.onSeq_mem (s : State) (f : SeqSt → SeqSt) : (s.onSeq f).mem = s.mem := rfl
@[simp] theorem State.onSeq_evt (s : State) (f : SeqSt → SeqSt) : (s.onSeq f).evt = s.evt := rfl
@[simp] theorem State.onSeq_fault (s : State) (f : SeqSt → SeqSt) : (s.onSeq f).fault = s.fault := rfl
@[simp] theorem State.onSeq_power (s : State) (f : SeqSt → SeqSt) : (s.onSeq f).power = s.power := rfl
@[simp] theorem State.onSeq_clock (s : State) (f : SeqSt → SeqSt) : (s.onSeq f).clock = s.clock := rfl
@[simp] theorem State.onSeq_frisket (s : State) (f : SeqSt → SeqSt) : (s.onSeq f).frisket = s.frisket := rfl
@[simp] theorem State.onSeq_msixFmask (s : State) (f : SeqSt → SeqSt) : (s.onSeq f).msixFmask = s.msixFmask := rfl
@[simp] theorem State.onSeq_noc (s : State) (f : SeqSt → SeqSt) : (s.onSeq f).noc = s.noc := rfl
@[simp] theorem State.onSeq_forme (s : State) (f : SeqSt → SeqSt) : (s.onSeq f).forme = s.forme := rfl
@[simp] theorem State.onSeq_seq (s : State) (f : SeqSt → SeqSt) : (s.onSeq f).seq = f s.seq := rfl
@[simp] theorem State.onSeq_cstore (s : State) (f : SeqSt → SeqSt) : (s.onSeq f).cstore = s.cstore := rfl
@[simp] theorem State.onSeq_comp (s : State) (f : SeqSt → SeqSt) : (s.onSeq f).comp = s.comp := rfl
@[simp] theorem State.onSeq_cores (s : State) (f : SeqSt → SeqSt) : (s.onSeq f).cores = s.cores := rfl
@[simp] theorem State.onSeq_webs (s : State) (f : SeqSt → SeqSt) : (s.onSeq f).webs = s.webs := rfl
@[simp] theorem State.onSeq_jobs (s : State) (f : SeqSt → SeqSt) : (s.onSeq f).jobs = s.jobs := rfl
@[simp] theorem State.onSeq_sp (s : State) (f : SeqSt → SeqSt) : (s.onSeq f).sp = s.sp := rfl
@[simp] theorem State.onSeq_host (s : State) (f : SeqSt → SeqSt) : (s.onSeq f).host = s.host := rfl
@[simp] theorem State.onSeq_log (s : State) (f : SeqSt → SeqSt) : (s.onSeq f).log = s.log := rfl
@[simp] theorem State.onSeq_colo (s : State) (f : SeqSt → SeqSt) : (s.onSeq f).colo = s.colo := rfl
@[simp] theorem State.onSeq_device (s : State) (f : SeqSt → SeqSt) : (s.onSeq f).device = s.device := rfl

@[simp] theorem State.onCStore_pending (s : State) (f : CStoreSt → CStoreSt) : (s.onCStore f).pending = s.pending := rfl
@[simp] theorem State.onCStore_out (s : State) (f : CStoreSt → CStoreSt) : (s.onCStore f).out = s.out := rfl
@[simp] theorem State.onCStore_regs (s : State) (f : CStoreSt → CStoreSt) : (s.onCStore f).regs = s.regs := rfl
@[simp] theorem State.onCStore_caps (s : State) (f : CStoreSt → CStoreSt) : (s.onCStore f).caps = s.caps := rfl
@[simp] theorem State.onCStore_mono (s : State) (f : CStoreSt → CStoreSt) : (s.onCStore f).mono = s.mono := rfl
@[simp] theorem State.onCStore_dev (s : State) (f : CStoreSt → CStoreSt) : (s.onCStore f).dev = s.dev := rfl
@[simp] theorem State.onCStore_free (s : State) (f : CStoreSt → CStoreSt) : (s.onCStore f).free = s.free := rfl
@[simp] theorem State.onCStore_feed (s : State) (f : CStoreSt → CStoreSt) : (s.onCStore f).feed = s.feed := rfl
@[simp] theorem State.onCStore_ptp (s : State) (f : CStoreSt → CStoreSt) : (s.onCStore f).ptp = s.ptp := rfl
@[simp] theorem State.onCStore_impose (s : State) (f : CStoreSt → CStoreSt) : (s.onCStore f).impose = s.impose := rfl
@[simp] theorem State.onCStore_drive (s : State) (f : CStoreSt → CStoreSt) : (s.onCStore f).drive = s.drive := rfl
@[simp] theorem State.onCStore_mem (s : State) (f : CStoreSt → CStoreSt) : (s.onCStore f).mem = s.mem := rfl
@[simp] theorem State.onCStore_evt (s : State) (f : CStoreSt → CStoreSt) : (s.onCStore f).evt = s.evt := rfl
@[simp] theorem State.onCStore_fault (s : State) (f : CStoreSt → CStoreSt) : (s.onCStore f).fault = s.fault := rfl
@[simp] theorem State.onCStore_power (s : State) (f : CStoreSt → CStoreSt) : (s.onCStore f).power = s.power := rfl
@[simp] theorem State.onCStore_clock (s : State) (f : CStoreSt → CStoreSt) : (s.onCStore f).clock = s.clock := rfl
@[simp] theorem State.onCStore_frisket (s : State) (f : CStoreSt → CStoreSt) : (s.onCStore f).frisket = s.frisket := rfl
@[simp] theorem State.onCStore_msixFmask (s : State) (f : CStoreSt → CStoreSt) : (s.onCStore f).msixFmask = s.msixFmask := rfl
@[simp] theorem State.onCStore_noc (s : State) (f : CStoreSt → CStoreSt) : (s.onCStore f).noc = s.noc := rfl
@[simp] theorem State.onCStore_forme (s : State) (f : CStoreSt → CStoreSt) : (s.onCStore f).forme = s.forme := rfl
@[simp] theorem State.onCStore_seq (s : State) (f : CStoreSt → CStoreSt) : (s.onCStore f).seq = s.seq := rfl
@[simp] theorem State.onCStore_cstore (s : State) (f : CStoreSt → CStoreSt) : (s.onCStore f).cstore = f s.cstore := rfl
@[simp] theorem State.onCStore_comp (s : State) (f : CStoreSt → CStoreSt) : (s.onCStore f).comp = s.comp := rfl
@[simp] theorem State.onCStore_cores (s : State) (f : CStoreSt → CStoreSt) : (s.onCStore f).cores = s.cores := rfl
@[simp] theorem State.onCStore_webs (s : State) (f : CStoreSt → CStoreSt) : (s.onCStore f).webs = s.webs := rfl
@[simp] theorem State.onCStore_jobs (s : State) (f : CStoreSt → CStoreSt) : (s.onCStore f).jobs = s.jobs := rfl
@[simp] theorem State.onCStore_sp (s : State) (f : CStoreSt → CStoreSt) : (s.onCStore f).sp = s.sp := rfl
@[simp] theorem State.onCStore_host (s : State) (f : CStoreSt → CStoreSt) : (s.onCStore f).host = s.host := rfl
@[simp] theorem State.onCStore_log (s : State) (f : CStoreSt → CStoreSt) : (s.onCStore f).log = s.log := rfl
@[simp] theorem State.onCStore_colo (s : State) (f : CStoreSt → CStoreSt) : (s.onCStore f).colo = s.colo := rfl
@[simp] theorem State.onCStore_device (s : State) (f : CStoreSt → CStoreSt) : (s.onCStore f).device = s.device := rfl

@[simp] theorem State.onComp_pending (s : State) (f : CompSt → CompSt) : (s.onComp f).pending = s.pending := rfl
@[simp] theorem State.onComp_out (s : State) (f : CompSt → CompSt) : (s.onComp f).out = s.out := rfl
@[simp] theorem State.onComp_regs (s : State) (f : CompSt → CompSt) : (s.onComp f).regs = s.regs := rfl
@[simp] theorem State.onComp_caps (s : State) (f : CompSt → CompSt) : (s.onComp f).caps = s.caps := rfl
@[simp] theorem State.onComp_mono (s : State) (f : CompSt → CompSt) : (s.onComp f).mono = s.mono := rfl
@[simp] theorem State.onComp_dev (s : State) (f : CompSt → CompSt) : (s.onComp f).dev = s.dev := rfl
@[simp] theorem State.onComp_free (s : State) (f : CompSt → CompSt) : (s.onComp f).free = s.free := rfl
@[simp] theorem State.onComp_feed (s : State) (f : CompSt → CompSt) : (s.onComp f).feed = s.feed := rfl
@[simp] theorem State.onComp_ptp (s : State) (f : CompSt → CompSt) : (s.onComp f).ptp = s.ptp := rfl
@[simp] theorem State.onComp_impose (s : State) (f : CompSt → CompSt) : (s.onComp f).impose = s.impose := rfl
@[simp] theorem State.onComp_drive (s : State) (f : CompSt → CompSt) : (s.onComp f).drive = s.drive := rfl
@[simp] theorem State.onComp_mem (s : State) (f : CompSt → CompSt) : (s.onComp f).mem = s.mem := rfl
@[simp] theorem State.onComp_evt (s : State) (f : CompSt → CompSt) : (s.onComp f).evt = s.evt := rfl
@[simp] theorem State.onComp_fault (s : State) (f : CompSt → CompSt) : (s.onComp f).fault = s.fault := rfl
@[simp] theorem State.onComp_power (s : State) (f : CompSt → CompSt) : (s.onComp f).power = s.power := rfl
@[simp] theorem State.onComp_clock (s : State) (f : CompSt → CompSt) : (s.onComp f).clock = s.clock := rfl
@[simp] theorem State.onComp_frisket (s : State) (f : CompSt → CompSt) : (s.onComp f).frisket = s.frisket := rfl
@[simp] theorem State.onComp_msixFmask (s : State) (f : CompSt → CompSt) : (s.onComp f).msixFmask = s.msixFmask := rfl
@[simp] theorem State.onComp_noc (s : State) (f : CompSt → CompSt) : (s.onComp f).noc = s.noc := rfl
@[simp] theorem State.onComp_forme (s : State) (f : CompSt → CompSt) : (s.onComp f).forme = s.forme := rfl
@[simp] theorem State.onComp_seq (s : State) (f : CompSt → CompSt) : (s.onComp f).seq = s.seq := rfl
@[simp] theorem State.onComp_cstore (s : State) (f : CompSt → CompSt) : (s.onComp f).cstore = s.cstore := rfl
@[simp] theorem State.onComp_comp (s : State) (f : CompSt → CompSt) : (s.onComp f).comp = f s.comp := rfl
@[simp] theorem State.onComp_cores (s : State) (f : CompSt → CompSt) : (s.onComp f).cores = s.cores := rfl
@[simp] theorem State.onComp_webs (s : State) (f : CompSt → CompSt) : (s.onComp f).webs = s.webs := rfl
@[simp] theorem State.onComp_jobs (s : State) (f : CompSt → CompSt) : (s.onComp f).jobs = s.jobs := rfl
@[simp] theorem State.onComp_sp (s : State) (f : CompSt → CompSt) : (s.onComp f).sp = s.sp := rfl
@[simp] theorem State.onComp_host (s : State) (f : CompSt → CompSt) : (s.onComp f).host = s.host := rfl
@[simp] theorem State.onComp_log (s : State) (f : CompSt → CompSt) : (s.onComp f).log = s.log := rfl
@[simp] theorem State.onComp_colo (s : State) (f : CompSt → CompSt) : (s.onComp f).colo = s.colo := rfl
@[simp] theorem State.onComp_device (s : State) (f : CompSt → CompSt) : (s.onComp f).device = s.device := rfl

@[simp] theorem State.onJobs_pending (s : State) (f : JobsSt → JobsSt) : (s.onJobs f).pending = s.pending := rfl
@[simp] theorem State.onJobs_out (s : State) (f : JobsSt → JobsSt) : (s.onJobs f).out = s.out := rfl
@[simp] theorem State.onJobs_regs (s : State) (f : JobsSt → JobsSt) : (s.onJobs f).regs = s.regs := rfl
@[simp] theorem State.onJobs_caps (s : State) (f : JobsSt → JobsSt) : (s.onJobs f).caps = s.caps := rfl
@[simp] theorem State.onJobs_mono (s : State) (f : JobsSt → JobsSt) : (s.onJobs f).mono = s.mono := rfl
@[simp] theorem State.onJobs_dev (s : State) (f : JobsSt → JobsSt) : (s.onJobs f).dev = s.dev := rfl
@[simp] theorem State.onJobs_free (s : State) (f : JobsSt → JobsSt) : (s.onJobs f).free = s.free := rfl
@[simp] theorem State.onJobs_feed (s : State) (f : JobsSt → JobsSt) : (s.onJobs f).feed = s.feed := rfl
@[simp] theorem State.onJobs_ptp (s : State) (f : JobsSt → JobsSt) : (s.onJobs f).ptp = s.ptp := rfl
@[simp] theorem State.onJobs_impose (s : State) (f : JobsSt → JobsSt) : (s.onJobs f).impose = s.impose := rfl
@[simp] theorem State.onJobs_drive (s : State) (f : JobsSt → JobsSt) : (s.onJobs f).drive = s.drive := rfl
@[simp] theorem State.onJobs_mem (s : State) (f : JobsSt → JobsSt) : (s.onJobs f).mem = s.mem := rfl
@[simp] theorem State.onJobs_evt (s : State) (f : JobsSt → JobsSt) : (s.onJobs f).evt = s.evt := rfl
@[simp] theorem State.onJobs_fault (s : State) (f : JobsSt → JobsSt) : (s.onJobs f).fault = s.fault := rfl
@[simp] theorem State.onJobs_power (s : State) (f : JobsSt → JobsSt) : (s.onJobs f).power = s.power := rfl
@[simp] theorem State.onJobs_clock (s : State) (f : JobsSt → JobsSt) : (s.onJobs f).clock = s.clock := rfl
@[simp] theorem State.onJobs_frisket (s : State) (f : JobsSt → JobsSt) : (s.onJobs f).frisket = s.frisket := rfl
@[simp] theorem State.onJobs_msixFmask (s : State) (f : JobsSt → JobsSt) : (s.onJobs f).msixFmask = s.msixFmask := rfl
@[simp] theorem State.onJobs_noc (s : State) (f : JobsSt → JobsSt) : (s.onJobs f).noc = s.noc := rfl
@[simp] theorem State.onJobs_forme (s : State) (f : JobsSt → JobsSt) : (s.onJobs f).forme = s.forme := rfl
@[simp] theorem State.onJobs_seq (s : State) (f : JobsSt → JobsSt) : (s.onJobs f).seq = s.seq := rfl
@[simp] theorem State.onJobs_cstore (s : State) (f : JobsSt → JobsSt) : (s.onJobs f).cstore = s.cstore := rfl
@[simp] theorem State.onJobs_comp (s : State) (f : JobsSt → JobsSt) : (s.onJobs f).comp = s.comp := rfl
@[simp] theorem State.onJobs_cores (s : State) (f : JobsSt → JobsSt) : (s.onJobs f).cores = s.cores := rfl
@[simp] theorem State.onJobs_webs (s : State) (f : JobsSt → JobsSt) : (s.onJobs f).webs = s.webs := rfl
@[simp] theorem State.onJobs_jobs (s : State) (f : JobsSt → JobsSt) : (s.onJobs f).jobs = f s.jobs := rfl
@[simp] theorem State.onJobs_sp (s : State) (f : JobsSt → JobsSt) : (s.onJobs f).sp = s.sp := rfl
@[simp] theorem State.onJobs_host (s : State) (f : JobsSt → JobsSt) : (s.onJobs f).host = s.host := rfl
@[simp] theorem State.onJobs_log (s : State) (f : JobsSt → JobsSt) : (s.onJobs f).log = s.log := rfl
@[simp] theorem State.onJobs_colo (s : State) (f : JobsSt → JobsSt) : (s.onJobs f).colo = s.colo := rfl
@[simp] theorem State.onJobs_device (s : State) (f : JobsSt → JobsSt) : (s.onJobs f).device = s.device := rfl

@[simp] theorem State.onSp_pending (s : State) (f : SpSt → SpSt) : (s.onSp f).pending = s.pending := rfl
@[simp] theorem State.onSp_out (s : State) (f : SpSt → SpSt) : (s.onSp f).out = s.out := rfl
@[simp] theorem State.onSp_regs (s : State) (f : SpSt → SpSt) : (s.onSp f).regs = s.regs := rfl
@[simp] theorem State.onSp_caps (s : State) (f : SpSt → SpSt) : (s.onSp f).caps = s.caps := rfl
@[simp] theorem State.onSp_mono (s : State) (f : SpSt → SpSt) : (s.onSp f).mono = s.mono := rfl
@[simp] theorem State.onSp_dev (s : State) (f : SpSt → SpSt) : (s.onSp f).dev = s.dev := rfl
@[simp] theorem State.onSp_free (s : State) (f : SpSt → SpSt) : (s.onSp f).free = s.free := rfl
@[simp] theorem State.onSp_feed (s : State) (f : SpSt → SpSt) : (s.onSp f).feed = s.feed := rfl
@[simp] theorem State.onSp_ptp (s : State) (f : SpSt → SpSt) : (s.onSp f).ptp = s.ptp := rfl
@[simp] theorem State.onSp_impose (s : State) (f : SpSt → SpSt) : (s.onSp f).impose = s.impose := rfl
@[simp] theorem State.onSp_drive (s : State) (f : SpSt → SpSt) : (s.onSp f).drive = s.drive := rfl
@[simp] theorem State.onSp_mem (s : State) (f : SpSt → SpSt) : (s.onSp f).mem = s.mem := rfl
@[simp] theorem State.onSp_evt (s : State) (f : SpSt → SpSt) : (s.onSp f).evt = s.evt := rfl
@[simp] theorem State.onSp_fault (s : State) (f : SpSt → SpSt) : (s.onSp f).fault = s.fault := rfl
@[simp] theorem State.onSp_power (s : State) (f : SpSt → SpSt) : (s.onSp f).power = s.power := rfl
@[simp] theorem State.onSp_clock (s : State) (f : SpSt → SpSt) : (s.onSp f).clock = s.clock := rfl
@[simp] theorem State.onSp_frisket (s : State) (f : SpSt → SpSt) : (s.onSp f).frisket = s.frisket := rfl
@[simp] theorem State.onSp_msixFmask (s : State) (f : SpSt → SpSt) : (s.onSp f).msixFmask = s.msixFmask := rfl
@[simp] theorem State.onSp_noc (s : State) (f : SpSt → SpSt) : (s.onSp f).noc = s.noc := rfl
@[simp] theorem State.onSp_forme (s : State) (f : SpSt → SpSt) : (s.onSp f).forme = s.forme := rfl
@[simp] theorem State.onSp_seq (s : State) (f : SpSt → SpSt) : (s.onSp f).seq = s.seq := rfl
@[simp] theorem State.onSp_cstore (s : State) (f : SpSt → SpSt) : (s.onSp f).cstore = s.cstore := rfl
@[simp] theorem State.onSp_comp (s : State) (f : SpSt → SpSt) : (s.onSp f).comp = s.comp := rfl
@[simp] theorem State.onSp_cores (s : State) (f : SpSt → SpSt) : (s.onSp f).cores = s.cores := rfl
@[simp] theorem State.onSp_webs (s : State) (f : SpSt → SpSt) : (s.onSp f).webs = s.webs := rfl
@[simp] theorem State.onSp_jobs (s : State) (f : SpSt → SpSt) : (s.onSp f).jobs = s.jobs := rfl
@[simp] theorem State.onSp_sp (s : State) (f : SpSt → SpSt) : (s.onSp f).sp = f s.sp := rfl
@[simp] theorem State.onSp_host (s : State) (f : SpSt → SpSt) : (s.onSp f).host = s.host := rfl
@[simp] theorem State.onSp_log (s : State) (f : SpSt → SpSt) : (s.onSp f).log = s.log := rfl
@[simp] theorem State.onSp_colo (s : State) (f : SpSt → SpSt) : (s.onSp f).colo = s.colo := rfl
@[simp] theorem State.onSp_device (s : State) (f : SpSt → SpSt) : (s.onSp f).device = s.device := rfl

@[simp] theorem State.onLog_pending (s : State) (f : LogSt → LogSt) : (s.onLog f).pending = s.pending := rfl
@[simp] theorem State.onLog_out (s : State) (f : LogSt → LogSt) : (s.onLog f).out = s.out := rfl
@[simp] theorem State.onLog_regs (s : State) (f : LogSt → LogSt) : (s.onLog f).regs = s.regs := rfl
@[simp] theorem State.onLog_caps (s : State) (f : LogSt → LogSt) : (s.onLog f).caps = s.caps := rfl
@[simp] theorem State.onLog_mono (s : State) (f : LogSt → LogSt) : (s.onLog f).mono = s.mono := rfl
@[simp] theorem State.onLog_dev (s : State) (f : LogSt → LogSt) : (s.onLog f).dev = s.dev := rfl
@[simp] theorem State.onLog_free (s : State) (f : LogSt → LogSt) : (s.onLog f).free = s.free := rfl
@[simp] theorem State.onLog_feed (s : State) (f : LogSt → LogSt) : (s.onLog f).feed = s.feed := rfl
@[simp] theorem State.onLog_ptp (s : State) (f : LogSt → LogSt) : (s.onLog f).ptp = s.ptp := rfl
@[simp] theorem State.onLog_impose (s : State) (f : LogSt → LogSt) : (s.onLog f).impose = s.impose := rfl
@[simp] theorem State.onLog_drive (s : State) (f : LogSt → LogSt) : (s.onLog f).drive = s.drive := rfl
@[simp] theorem State.onLog_mem (s : State) (f : LogSt → LogSt) : (s.onLog f).mem = s.mem := rfl
@[simp] theorem State.onLog_evt (s : State) (f : LogSt → LogSt) : (s.onLog f).evt = s.evt := rfl
@[simp] theorem State.onLog_fault (s : State) (f : LogSt → LogSt) : (s.onLog f).fault = s.fault := rfl
@[simp] theorem State.onLog_power (s : State) (f : LogSt → LogSt) : (s.onLog f).power = s.power := rfl
@[simp] theorem State.onLog_clock (s : State) (f : LogSt → LogSt) : (s.onLog f).clock = s.clock := rfl
@[simp] theorem State.onLog_frisket (s : State) (f : LogSt → LogSt) : (s.onLog f).frisket = s.frisket := rfl
@[simp] theorem State.onLog_msixFmask (s : State) (f : LogSt → LogSt) : (s.onLog f).msixFmask = s.msixFmask := rfl
@[simp] theorem State.onLog_noc (s : State) (f : LogSt → LogSt) : (s.onLog f).noc = s.noc := rfl
@[simp] theorem State.onLog_forme (s : State) (f : LogSt → LogSt) : (s.onLog f).forme = s.forme := rfl
@[simp] theorem State.onLog_seq (s : State) (f : LogSt → LogSt) : (s.onLog f).seq = s.seq := rfl
@[simp] theorem State.onLog_cstore (s : State) (f : LogSt → LogSt) : (s.onLog f).cstore = s.cstore := rfl
@[simp] theorem State.onLog_comp (s : State) (f : LogSt → LogSt) : (s.onLog f).comp = s.comp := rfl
@[simp] theorem State.onLog_cores (s : State) (f : LogSt → LogSt) : (s.onLog f).cores = s.cores := rfl
@[simp] theorem State.onLog_webs (s : State) (f : LogSt → LogSt) : (s.onLog f).webs = s.webs := rfl
@[simp] theorem State.onLog_jobs (s : State) (f : LogSt → LogSt) : (s.onLog f).jobs = s.jobs := rfl
@[simp] theorem State.onLog_sp (s : State) (f : LogSt → LogSt) : (s.onLog f).sp = s.sp := rfl
@[simp] theorem State.onLog_host (s : State) (f : LogSt → LogSt) : (s.onLog f).host = s.host := rfl
@[simp] theorem State.onLog_log (s : State) (f : LogSt → LogSt) : (s.onLog f).log = f s.log := rfl
@[simp] theorem State.onLog_colo (s : State) (f : LogSt → LogSt) : (s.onLog f).colo = s.colo := rfl
@[simp] theorem State.onLog_device (s : State) (f : LogSt → LogSt) : (s.onLog f).device = s.device := rfl

@[simp] theorem State.onColo_pending (s : State) (f : ColoSt → ColoSt) : (s.onColo f).pending = s.pending := rfl
@[simp] theorem State.onColo_out (s : State) (f : ColoSt → ColoSt) : (s.onColo f).out = s.out := rfl
@[simp] theorem State.onColo_regs (s : State) (f : ColoSt → ColoSt) : (s.onColo f).regs = s.regs := rfl
@[simp] theorem State.onColo_caps (s : State) (f : ColoSt → ColoSt) : (s.onColo f).caps = s.caps := rfl
@[simp] theorem State.onColo_mono (s : State) (f : ColoSt → ColoSt) : (s.onColo f).mono = s.mono := rfl
@[simp] theorem State.onColo_dev (s : State) (f : ColoSt → ColoSt) : (s.onColo f).dev = s.dev := rfl
@[simp] theorem State.onColo_free (s : State) (f : ColoSt → ColoSt) : (s.onColo f).free = s.free := rfl
@[simp] theorem State.onColo_feed (s : State) (f : ColoSt → ColoSt) : (s.onColo f).feed = s.feed := rfl
@[simp] theorem State.onColo_ptp (s : State) (f : ColoSt → ColoSt) : (s.onColo f).ptp = s.ptp := rfl
@[simp] theorem State.onColo_impose (s : State) (f : ColoSt → ColoSt) : (s.onColo f).impose = s.impose := rfl
@[simp] theorem State.onColo_drive (s : State) (f : ColoSt → ColoSt) : (s.onColo f).drive = s.drive := rfl
@[simp] theorem State.onColo_mem (s : State) (f : ColoSt → ColoSt) : (s.onColo f).mem = s.mem := rfl
@[simp] theorem State.onColo_evt (s : State) (f : ColoSt → ColoSt) : (s.onColo f).evt = s.evt := rfl
@[simp] theorem State.onColo_fault (s : State) (f : ColoSt → ColoSt) : (s.onColo f).fault = s.fault := rfl
@[simp] theorem State.onColo_power (s : State) (f : ColoSt → ColoSt) : (s.onColo f).power = s.power := rfl
@[simp] theorem State.onColo_clock (s : State) (f : ColoSt → ColoSt) : (s.onColo f).clock = s.clock := rfl
@[simp] theorem State.onColo_frisket (s : State) (f : ColoSt → ColoSt) : (s.onColo f).frisket = s.frisket := rfl
@[simp] theorem State.onColo_msixFmask (s : State) (f : ColoSt → ColoSt) : (s.onColo f).msixFmask = s.msixFmask := rfl
@[simp] theorem State.onColo_noc (s : State) (f : ColoSt → ColoSt) : (s.onColo f).noc = s.noc := rfl
@[simp] theorem State.onColo_forme (s : State) (f : ColoSt → ColoSt) : (s.onColo f).forme = s.forme := rfl
@[simp] theorem State.onColo_seq (s : State) (f : ColoSt → ColoSt) : (s.onColo f).seq = s.seq := rfl
@[simp] theorem State.onColo_cstore (s : State) (f : ColoSt → ColoSt) : (s.onColo f).cstore = s.cstore := rfl
@[simp] theorem State.onColo_comp (s : State) (f : ColoSt → ColoSt) : (s.onColo f).comp = s.comp := rfl
@[simp] theorem State.onColo_cores (s : State) (f : ColoSt → ColoSt) : (s.onColo f).cores = s.cores := rfl
@[simp] theorem State.onColo_webs (s : State) (f : ColoSt → ColoSt) : (s.onColo f).webs = s.webs := rfl
@[simp] theorem State.onColo_jobs (s : State) (f : ColoSt → ColoSt) : (s.onColo f).jobs = s.jobs := rfl
@[simp] theorem State.onColo_sp (s : State) (f : ColoSt → ColoSt) : (s.onColo f).sp = s.sp := rfl
@[simp] theorem State.onColo_host (s : State) (f : ColoSt → ColoSt) : (s.onColo f).host = s.host := rfl
@[simp] theorem State.onColo_log (s : State) (f : ColoSt → ColoSt) : (s.onColo f).log = s.log := rfl
@[simp] theorem State.onColo_colo (s : State) (f : ColoSt → ColoSt) : (s.onColo f).colo = f s.colo := rfl
@[simp] theorem State.onColo_device (s : State) (f : ColoSt → ColoSt) : (s.onColo f).device = s.device := rfl

@[simp] theorem State.onDevice_pending (s : State) (f : DevSt → DevSt) : (s.onDevice f).pending = s.pending := rfl
@[simp] theorem State.onDevice_out (s : State) (f : DevSt → DevSt) : (s.onDevice f).out = s.out := rfl
@[simp] theorem State.onDevice_regs (s : State) (f : DevSt → DevSt) : (s.onDevice f).regs = s.regs := rfl
@[simp] theorem State.onDevice_caps (s : State) (f : DevSt → DevSt) : (s.onDevice f).caps = s.caps := rfl
@[simp] theorem State.onDevice_mono (s : State) (f : DevSt → DevSt) : (s.onDevice f).mono = s.mono := rfl
@[simp] theorem State.onDevice_dev (s : State) (f : DevSt → DevSt) : (s.onDevice f).dev = s.dev := rfl
@[simp] theorem State.onDevice_free (s : State) (f : DevSt → DevSt) : (s.onDevice f).free = s.free := rfl
@[simp] theorem State.onDevice_feed (s : State) (f : DevSt → DevSt) : (s.onDevice f).feed = s.feed := rfl
@[simp] theorem State.onDevice_ptp (s : State) (f : DevSt → DevSt) : (s.onDevice f).ptp = s.ptp := rfl
@[simp] theorem State.onDevice_impose (s : State) (f : DevSt → DevSt) : (s.onDevice f).impose = s.impose := rfl
@[simp] theorem State.onDevice_drive (s : State) (f : DevSt → DevSt) : (s.onDevice f).drive = s.drive := rfl
@[simp] theorem State.onDevice_mem (s : State) (f : DevSt → DevSt) : (s.onDevice f).mem = s.mem := rfl
@[simp] theorem State.onDevice_evt (s : State) (f : DevSt → DevSt) : (s.onDevice f).evt = s.evt := rfl
@[simp] theorem State.onDevice_fault (s : State) (f : DevSt → DevSt) : (s.onDevice f).fault = s.fault := rfl
@[simp] theorem State.onDevice_power (s : State) (f : DevSt → DevSt) : (s.onDevice f).power = s.power := rfl
@[simp] theorem State.onDevice_clock (s : State) (f : DevSt → DevSt) : (s.onDevice f).clock = s.clock := rfl
@[simp] theorem State.onDevice_frisket (s : State) (f : DevSt → DevSt) : (s.onDevice f).frisket = s.frisket := rfl
@[simp] theorem State.onDevice_msixFmask (s : State) (f : DevSt → DevSt) : (s.onDevice f).msixFmask = s.msixFmask := rfl
@[simp] theorem State.onDevice_noc (s : State) (f : DevSt → DevSt) : (s.onDevice f).noc = s.noc := rfl
@[simp] theorem State.onDevice_forme (s : State) (f : DevSt → DevSt) : (s.onDevice f).forme = s.forme := rfl
@[simp] theorem State.onDevice_seq (s : State) (f : DevSt → DevSt) : (s.onDevice f).seq = s.seq := rfl
@[simp] theorem State.onDevice_cstore (s : State) (f : DevSt → DevSt) : (s.onDevice f).cstore = s.cstore := rfl
@[simp] theorem State.onDevice_comp (s : State) (f : DevSt → DevSt) : (s.onDevice f).comp = s.comp := rfl
@[simp] theorem State.onDevice_cores (s : State) (f : DevSt → DevSt) : (s.onDevice f).cores = s.cores := rfl
@[simp] theorem State.onDevice_webs (s : State) (f : DevSt → DevSt) : (s.onDevice f).webs = s.webs := rfl
@[simp] theorem State.onDevice_jobs (s : State) (f : DevSt → DevSt) : (s.onDevice f).jobs = s.jobs := rfl
@[simp] theorem State.onDevice_sp (s : State) (f : DevSt → DevSt) : (s.onDevice f).sp = s.sp := rfl
@[simp] theorem State.onDevice_host (s : State) (f : DevSt → DevSt) : (s.onDevice f).host = s.host := rfl
@[simp] theorem State.onDevice_log (s : State) (f : DevSt → DevSt) : (s.onDevice f).log = s.log := rfl
@[simp] theorem State.onDevice_colo (s : State) (f : DevSt → DevSt) : (s.onDevice f).colo = s.colo := rfl
@[simp] theorem State.onDevice_device (s : State) (f : DevSt → DevSt) : (s.onDevice f).device = f s.device := rfl

@[simp] theorem State.onFrisket_pending (s : State) (f : FrisketSt → FrisketSt) : (s.onFrisket f).pending = s.pending := rfl
@[simp] theorem State.onFrisket_out (s : State) (f : FrisketSt → FrisketSt) : (s.onFrisket f).out = s.out := rfl
@[simp] theorem State.onFrisket_regs (s : State) (f : FrisketSt → FrisketSt) : (s.onFrisket f).regs = s.regs := rfl
@[simp] theorem State.onFrisket_caps (s : State) (f : FrisketSt → FrisketSt) : (s.onFrisket f).caps = s.caps := rfl
@[simp] theorem State.onFrisket_mono (s : State) (f : FrisketSt → FrisketSt) : (s.onFrisket f).mono = s.mono := rfl
@[simp] theorem State.onFrisket_dev (s : State) (f : FrisketSt → FrisketSt) : (s.onFrisket f).dev = s.dev := rfl
@[simp] theorem State.onFrisket_free (s : State) (f : FrisketSt → FrisketSt) : (s.onFrisket f).free = s.free := rfl
@[simp] theorem State.onFrisket_feed (s : State) (f : FrisketSt → FrisketSt) : (s.onFrisket f).feed = s.feed := rfl
@[simp] theorem State.onFrisket_ptp (s : State) (f : FrisketSt → FrisketSt) : (s.onFrisket f).ptp = s.ptp := rfl
@[simp] theorem State.onFrisket_impose (s : State) (f : FrisketSt → FrisketSt) : (s.onFrisket f).impose = s.impose := rfl
@[simp] theorem State.onFrisket_drive (s : State) (f : FrisketSt → FrisketSt) : (s.onFrisket f).drive = s.drive := rfl
@[simp] theorem State.onFrisket_mem (s : State) (f : FrisketSt → FrisketSt) : (s.onFrisket f).mem = s.mem := rfl
@[simp] theorem State.onFrisket_evt (s : State) (f : FrisketSt → FrisketSt) : (s.onFrisket f).evt = s.evt := rfl
@[simp] theorem State.onFrisket_fault (s : State) (f : FrisketSt → FrisketSt) : (s.onFrisket f).fault = s.fault := rfl
@[simp] theorem State.onFrisket_power (s : State) (f : FrisketSt → FrisketSt) : (s.onFrisket f).power = s.power := rfl
@[simp] theorem State.onFrisket_clock (s : State) (f : FrisketSt → FrisketSt) : (s.onFrisket f).clock = s.clock := rfl
@[simp] theorem State.onFrisket_frisket (s : State) (f : FrisketSt → FrisketSt) : (s.onFrisket f).frisket = f s.frisket := rfl
@[simp] theorem State.onFrisket_msixFmask (s : State) (f : FrisketSt → FrisketSt) : (s.onFrisket f).msixFmask = s.msixFmask := rfl
@[simp] theorem State.onFrisket_noc (s : State) (f : FrisketSt → FrisketSt) : (s.onFrisket f).noc = s.noc := rfl
@[simp] theorem State.onFrisket_forme (s : State) (f : FrisketSt → FrisketSt) : (s.onFrisket f).forme = s.forme := rfl
@[simp] theorem State.onFrisket_seq (s : State) (f : FrisketSt → FrisketSt) : (s.onFrisket f).seq = s.seq := rfl
@[simp] theorem State.onFrisket_cstore (s : State) (f : FrisketSt → FrisketSt) : (s.onFrisket f).cstore = s.cstore := rfl
@[simp] theorem State.onFrisket_comp (s : State) (f : FrisketSt → FrisketSt) : (s.onFrisket f).comp = s.comp := rfl
@[simp] theorem State.onFrisket_cores (s : State) (f : FrisketSt → FrisketSt) : (s.onFrisket f).cores = s.cores := rfl
@[simp] theorem State.onFrisket_webs (s : State) (f : FrisketSt → FrisketSt) : (s.onFrisket f).webs = s.webs := rfl
@[simp] theorem State.onFrisket_jobs (s : State) (f : FrisketSt → FrisketSt) : (s.onFrisket f).jobs = s.jobs := rfl
@[simp] theorem State.onFrisket_sp (s : State) (f : FrisketSt → FrisketSt) : (s.onFrisket f).sp = s.sp := rfl
@[simp] theorem State.onFrisket_host (s : State) (f : FrisketSt → FrisketSt) : (s.onFrisket f).host = s.host := rfl
@[simp] theorem State.onFrisket_log (s : State) (f : FrisketSt → FrisketSt) : (s.onFrisket f).log = s.log := rfl
@[simp] theorem State.onFrisket_colo (s : State) (f : FrisketSt → FrisketSt) : (s.onFrisket f).colo = s.colo := rfl
@[simp] theorem State.onFrisket_device (s : State) (f : FrisketSt → FrisketSt) : (s.onFrisket f).device = s.device := rfl

@[simp] theorem State.onWeb_pending (s : State) (w : Nat) (f : WebSt → WebSt) : (s.onWeb w f).pending = s.pending := rfl
@[simp] theorem State.onWeb_out (s : State) (w : Nat) (f : WebSt → WebSt) : (s.onWeb w f).out = s.out := rfl
@[simp] theorem State.onWeb_regs (s : State) (w : Nat) (f : WebSt → WebSt) : (s.onWeb w f).regs = s.regs := rfl
@[simp] theorem State.onWeb_caps (s : State) (w : Nat) (f : WebSt → WebSt) : (s.onWeb w f).caps = s.caps := rfl
@[simp] theorem State.onWeb_mono (s : State) (w : Nat) (f : WebSt → WebSt) : (s.onWeb w f).mono = s.mono := rfl
@[simp] theorem State.onWeb_dev (s : State) (w : Nat) (f : WebSt → WebSt) : (s.onWeb w f).dev = s.dev := rfl
@[simp] theorem State.onWeb_free (s : State) (w : Nat) (f : WebSt → WebSt) : (s.onWeb w f).free = s.free := rfl
@[simp] theorem State.onWeb_feed (s : State) (w : Nat) (f : WebSt → WebSt) : (s.onWeb w f).feed = s.feed := rfl
@[simp] theorem State.onWeb_ptp (s : State) (w : Nat) (f : WebSt → WebSt) : (s.onWeb w f).ptp = s.ptp := rfl
@[simp] theorem State.onWeb_impose (s : State) (w : Nat) (f : WebSt → WebSt) : (s.onWeb w f).impose = s.impose := rfl
@[simp] theorem State.onWeb_drive (s : State) (w : Nat) (f : WebSt → WebSt) : (s.onWeb w f).drive = s.drive := rfl
@[simp] theorem State.onWeb_mem (s : State) (w : Nat) (f : WebSt → WebSt) : (s.onWeb w f).mem = s.mem := rfl
@[simp] theorem State.onWeb_evt (s : State) (w : Nat) (f : WebSt → WebSt) : (s.onWeb w f).evt = s.evt := rfl
@[simp] theorem State.onWeb_fault (s : State) (w : Nat) (f : WebSt → WebSt) : (s.onWeb w f).fault = s.fault := rfl
@[simp] theorem State.onWeb_power (s : State) (w : Nat) (f : WebSt → WebSt) : (s.onWeb w f).power = s.power := rfl
@[simp] theorem State.onWeb_clock (s : State) (w : Nat) (f : WebSt → WebSt) : (s.onWeb w f).clock = s.clock := rfl
@[simp] theorem State.onWeb_frisket (s : State) (w : Nat) (f : WebSt → WebSt) : (s.onWeb w f).frisket = s.frisket := rfl
@[simp] theorem State.onWeb_msixFmask (s : State) (w : Nat) (f : WebSt → WebSt) : (s.onWeb w f).msixFmask = s.msixFmask := rfl
@[simp] theorem State.onWeb_noc (s : State) (w : Nat) (f : WebSt → WebSt) : (s.onWeb w f).noc = s.noc := rfl
@[simp] theorem State.onWeb_forme (s : State) (w : Nat) (f : WebSt → WebSt) : (s.onWeb w f).forme = s.forme := rfl
@[simp] theorem State.onWeb_seq (s : State) (w : Nat) (f : WebSt → WebSt) : (s.onWeb w f).seq = s.seq := rfl
@[simp] theorem State.onWeb_cstore (s : State) (w : Nat) (f : WebSt → WebSt) : (s.onWeb w f).cstore = s.cstore := rfl
@[simp] theorem State.onWeb_comp (s : State) (w : Nat) (f : WebSt → WebSt) : (s.onWeb w f).comp = s.comp := rfl
@[simp] theorem State.onWeb_cores (s : State) (w : Nat) (f : WebSt → WebSt) : (s.onWeb w f).cores = s.cores := rfl
@[simp] theorem State.onWeb_webs (s : State) (w : Nat) (f : WebSt → WebSt) : (s.onWeb w f).webs = SMap.set WebSt.reset s.webs w (f (SMap.get WebSt.reset s.webs w)) := rfl
@[simp] theorem State.onWeb_jobs (s : State) (w : Nat) (f : WebSt → WebSt) : (s.onWeb w f).jobs = s.jobs := rfl
@[simp] theorem State.onWeb_sp (s : State) (w : Nat) (f : WebSt → WebSt) : (s.onWeb w f).sp = s.sp := rfl
@[simp] theorem State.onWeb_host (s : State) (w : Nat) (f : WebSt → WebSt) : (s.onWeb w f).host = s.host := rfl
@[simp] theorem State.onWeb_log (s : State) (w : Nat) (f : WebSt → WebSt) : (s.onWeb w f).log = s.log := rfl
@[simp] theorem State.onWeb_colo (s : State) (w : Nat) (f : WebSt → WebSt) : (s.onWeb w f).colo = s.colo := rfl
@[simp] theorem State.onWeb_device (s : State) (w : Nat) (f : WebSt → WebSt) : (s.onWeb w f).device = s.device := rfl

@[simp] theorem State.setReg_pending (s : State) (p off : Nat) (v : W32) (i : Nat) : (s.setReg p off v i).pending = s.pending := rfl
@[simp] theorem State.setReg_out (s : State) (p off : Nat) (v : W32) (i : Nat) : (s.setReg p off v i).out = s.out := rfl
@[simp] theorem State.setReg_regs (s : State) (p off : Nat) (v : W32) (i : Nat) : (s.setReg p off v i).regs = SMap.set (resetWord p off) s.regs (rkey p off i) v := rfl
@[simp] theorem State.setReg_caps (s : State) (p off : Nat) (v : W32) (i : Nat) : (s.setReg p off v i).caps = s.caps := rfl
@[simp] theorem State.setReg_mono (s : State) (p off : Nat) (v : W32) (i : Nat) : (s.setReg p off v i).mono = s.mono := rfl
@[simp] theorem State.setReg_dev (s : State) (p off : Nat) (v : W32) (i : Nat) : (s.setReg p off v i).dev = s.dev := rfl
@[simp] theorem State.setReg_free (s : State) (p off : Nat) (v : W32) (i : Nat) : (s.setReg p off v i).free = s.free := rfl
@[simp] theorem State.setReg_feed (s : State) (p off : Nat) (v : W32) (i : Nat) : (s.setReg p off v i).feed = s.feed := rfl
@[simp] theorem State.setReg_ptp (s : State) (p off : Nat) (v : W32) (i : Nat) : (s.setReg p off v i).ptp = s.ptp := rfl
@[simp] theorem State.setReg_impose (s : State) (p off : Nat) (v : W32) (i : Nat) : (s.setReg p off v i).impose = s.impose := rfl
@[simp] theorem State.setReg_drive (s : State) (p off : Nat) (v : W32) (i : Nat) : (s.setReg p off v i).drive = s.drive := rfl
@[simp] theorem State.setReg_mem (s : State) (p off : Nat) (v : W32) (i : Nat) : (s.setReg p off v i).mem = s.mem := rfl
@[simp] theorem State.setReg_evt (s : State) (p off : Nat) (v : W32) (i : Nat) : (s.setReg p off v i).evt = s.evt := rfl
@[simp] theorem State.setReg_fault (s : State) (p off : Nat) (v : W32) (i : Nat) : (s.setReg p off v i).fault = s.fault := rfl
@[simp] theorem State.setReg_power (s : State) (p off : Nat) (v : W32) (i : Nat) : (s.setReg p off v i).power = s.power := rfl
@[simp] theorem State.setReg_clock (s : State) (p off : Nat) (v : W32) (i : Nat) : (s.setReg p off v i).clock = s.clock := rfl
@[simp] theorem State.setReg_frisket (s : State) (p off : Nat) (v : W32) (i : Nat) : (s.setReg p off v i).frisket = s.frisket := rfl
@[simp] theorem State.setReg_msixFmask (s : State) (p off : Nat) (v : W32) (i : Nat) : (s.setReg p off v i).msixFmask = s.msixFmask := rfl
@[simp] theorem State.setReg_noc (s : State) (p off : Nat) (v : W32) (i : Nat) : (s.setReg p off v i).noc = s.noc := rfl
@[simp] theorem State.setReg_forme (s : State) (p off : Nat) (v : W32) (i : Nat) : (s.setReg p off v i).forme = s.forme := rfl
@[simp] theorem State.setReg_seq (s : State) (p off : Nat) (v : W32) (i : Nat) : (s.setReg p off v i).seq = s.seq := rfl
@[simp] theorem State.setReg_cstore (s : State) (p off : Nat) (v : W32) (i : Nat) : (s.setReg p off v i).cstore = s.cstore := rfl
@[simp] theorem State.setReg_comp (s : State) (p off : Nat) (v : W32) (i : Nat) : (s.setReg p off v i).comp = s.comp := rfl
@[simp] theorem State.setReg_cores (s : State) (p off : Nat) (v : W32) (i : Nat) : (s.setReg p off v i).cores = s.cores := rfl
@[simp] theorem State.setReg_webs (s : State) (p off : Nat) (v : W32) (i : Nat) : (s.setReg p off v i).webs = s.webs := rfl
@[simp] theorem State.setReg_jobs (s : State) (p off : Nat) (v : W32) (i : Nat) : (s.setReg p off v i).jobs = s.jobs := rfl
@[simp] theorem State.setReg_sp (s : State) (p off : Nat) (v : W32) (i : Nat) : (s.setReg p off v i).sp = s.sp := rfl
@[simp] theorem State.setReg_host (s : State) (p off : Nat) (v : W32) (i : Nat) : (s.setReg p off v i).host = s.host := rfl
@[simp] theorem State.setReg_log (s : State) (p off : Nat) (v : W32) (i : Nat) : (s.setReg p off v i).log = s.log := rfl
@[simp] theorem State.setReg_colo (s : State) (p off : Nat) (v : W32) (i : Nat) : (s.setReg p off v i).colo = s.colo := rfl
@[simp] theorem State.setReg_device (s : State) (p off : Nat) (v : W32) (i : Nat) : (s.setReg p off v i).device = s.device := rfl

@[simp] theorem State.put_pending (s : State) (p : Nat) (f : Fld) (v i : Nat) : (s.put p f v i).pending = s.pending := s.setReg_pending p f.off _ i
@[simp] theorem State.put_out (s : State) (p : Nat) (f : Fld) (v i : Nat) : (s.put p f v i).out = s.out := s.setReg_out p f.off _ i
@[simp] theorem State.put_caps (s : State) (p : Nat) (f : Fld) (v i : Nat) : (s.put p f v i).caps = s.caps := s.setReg_caps p f.off _ i
@[simp] theorem State.put_mono (s : State) (p : Nat) (f : Fld) (v i : Nat) : (s.put p f v i).mono = s.mono := s.setReg_mono p f.off _ i
@[simp] theorem State.put_dev (s : State) (p : Nat) (f : Fld) (v i : Nat) : (s.put p f v i).dev = s.dev := s.setReg_dev p f.off _ i
@[simp] theorem State.put_free (s : State) (p : Nat) (f : Fld) (v i : Nat) : (s.put p f v i).free = s.free := s.setReg_free p f.off _ i
@[simp] theorem State.put_feed (s : State) (p : Nat) (f : Fld) (v i : Nat) : (s.put p f v i).feed = s.feed := s.setReg_feed p f.off _ i
@[simp] theorem State.put_ptp (s : State) (p : Nat) (f : Fld) (v i : Nat) : (s.put p f v i).ptp = s.ptp := s.setReg_ptp p f.off _ i
@[simp] theorem State.put_impose (s : State) (p : Nat) (f : Fld) (v i : Nat) : (s.put p f v i).impose = s.impose := s.setReg_impose p f.off _ i
@[simp] theorem State.put_drive (s : State) (p : Nat) (f : Fld) (v i : Nat) : (s.put p f v i).drive = s.drive := s.setReg_drive p f.off _ i
@[simp] theorem State.put_mem (s : State) (p : Nat) (f : Fld) (v i : Nat) : (s.put p f v i).mem = s.mem := s.setReg_mem p f.off _ i
@[simp] theorem State.put_evt (s : State) (p : Nat) (f : Fld) (v i : Nat) : (s.put p f v i).evt = s.evt := s.setReg_evt p f.off _ i
@[simp] theorem State.put_fault (s : State) (p : Nat) (f : Fld) (v i : Nat) : (s.put p f v i).fault = s.fault := s.setReg_fault p f.off _ i
@[simp] theorem State.put_power (s : State) (p : Nat) (f : Fld) (v i : Nat) : (s.put p f v i).power = s.power := s.setReg_power p f.off _ i
@[simp] theorem State.put_clock (s : State) (p : Nat) (f : Fld) (v i : Nat) : (s.put p f v i).clock = s.clock := s.setReg_clock p f.off _ i
@[simp] theorem State.put_frisket (s : State) (p : Nat) (f : Fld) (v i : Nat) : (s.put p f v i).frisket = s.frisket := s.setReg_frisket p f.off _ i
@[simp] theorem State.put_msixFmask (s : State) (p : Nat) (f : Fld) (v i : Nat) : (s.put p f v i).msixFmask = s.msixFmask := s.setReg_msixFmask p f.off _ i
@[simp] theorem State.put_noc (s : State) (p : Nat) (f : Fld) (v i : Nat) : (s.put p f v i).noc = s.noc := s.setReg_noc p f.off _ i
@[simp] theorem State.put_forme (s : State) (p : Nat) (f : Fld) (v i : Nat) : (s.put p f v i).forme = s.forme := s.setReg_forme p f.off _ i
@[simp] theorem State.put_seq (s : State) (p : Nat) (f : Fld) (v i : Nat) : (s.put p f v i).seq = s.seq := s.setReg_seq p f.off _ i
@[simp] theorem State.put_cstore (s : State) (p : Nat) (f : Fld) (v i : Nat) : (s.put p f v i).cstore = s.cstore := s.setReg_cstore p f.off _ i
@[simp] theorem State.put_comp (s : State) (p : Nat) (f : Fld) (v i : Nat) : (s.put p f v i).comp = s.comp := s.setReg_comp p f.off _ i
@[simp] theorem State.put_cores (s : State) (p : Nat) (f : Fld) (v i : Nat) : (s.put p f v i).cores = s.cores := s.setReg_cores p f.off _ i
@[simp] theorem State.put_webs (s : State) (p : Nat) (f : Fld) (v i : Nat) : (s.put p f v i).webs = s.webs := s.setReg_webs p f.off _ i
@[simp] theorem State.put_jobs (s : State) (p : Nat) (f : Fld) (v i : Nat) : (s.put p f v i).jobs = s.jobs := s.setReg_jobs p f.off _ i
@[simp] theorem State.put_sp (s : State) (p : Nat) (f : Fld) (v i : Nat) : (s.put p f v i).sp = s.sp := s.setReg_sp p f.off _ i
@[simp] theorem State.put_host (s : State) (p : Nat) (f : Fld) (v i : Nat) : (s.put p f v i).host = s.host := s.setReg_host p f.off _ i
@[simp] theorem State.put_log (s : State) (p : Nat) (f : Fld) (v i : Nat) : (s.put p f v i).log = s.log := s.setReg_log p f.off _ i
@[simp] theorem State.put_colo (s : State) (p : Nat) (f : Fld) (v i : Nat) : (s.put p f v i).colo = s.colo := s.setReg_colo p f.off _ i
@[simp] theorem State.put_device (s : State) (p : Nat) (f : Fld) (v i : Nat) : (s.put p f v i).device = s.device := s.setReg_device p f.off _ i

@[simp] theorem State.putPair_pending (s : State) (p : Nat) (lo hi : Fld) (v i : Nat) : (s.putPair p lo hi v i).pending = s.pending := (State.put_pending _ p hi _ i).trans (s.put_pending p lo _ i)
@[simp] theorem State.putPair_out (s : State) (p : Nat) (lo hi : Fld) (v i : Nat) : (s.putPair p lo hi v i).out = s.out := (State.put_out _ p hi _ i).trans (s.put_out p lo _ i)
@[simp] theorem State.putPair_caps (s : State) (p : Nat) (lo hi : Fld) (v i : Nat) : (s.putPair p lo hi v i).caps = s.caps := (State.put_caps _ p hi _ i).trans (s.put_caps p lo _ i)
@[simp] theorem State.putPair_mono (s : State) (p : Nat) (lo hi : Fld) (v i : Nat) : (s.putPair p lo hi v i).mono = s.mono := (State.put_mono _ p hi _ i).trans (s.put_mono p lo _ i)
@[simp] theorem State.putPair_dev (s : State) (p : Nat) (lo hi : Fld) (v i : Nat) : (s.putPair p lo hi v i).dev = s.dev := (State.put_dev _ p hi _ i).trans (s.put_dev p lo _ i)
@[simp] theorem State.putPair_free (s : State) (p : Nat) (lo hi : Fld) (v i : Nat) : (s.putPair p lo hi v i).free = s.free := (State.put_free _ p hi _ i).trans (s.put_free p lo _ i)
@[simp] theorem State.putPair_feed (s : State) (p : Nat) (lo hi : Fld) (v i : Nat) : (s.putPair p lo hi v i).feed = s.feed := (State.put_feed _ p hi _ i).trans (s.put_feed p lo _ i)
@[simp] theorem State.putPair_ptp (s : State) (p : Nat) (lo hi : Fld) (v i : Nat) : (s.putPair p lo hi v i).ptp = s.ptp := (State.put_ptp _ p hi _ i).trans (s.put_ptp p lo _ i)
@[simp] theorem State.putPair_impose (s : State) (p : Nat) (lo hi : Fld) (v i : Nat) : (s.putPair p lo hi v i).impose = s.impose := (State.put_impose _ p hi _ i).trans (s.put_impose p lo _ i)
@[simp] theorem State.putPair_drive (s : State) (p : Nat) (lo hi : Fld) (v i : Nat) : (s.putPair p lo hi v i).drive = s.drive := (State.put_drive _ p hi _ i).trans (s.put_drive p lo _ i)
@[simp] theorem State.putPair_mem (s : State) (p : Nat) (lo hi : Fld) (v i : Nat) : (s.putPair p lo hi v i).mem = s.mem := (State.put_mem _ p hi _ i).trans (s.put_mem p lo _ i)
@[simp] theorem State.putPair_evt (s : State) (p : Nat) (lo hi : Fld) (v i : Nat) : (s.putPair p lo hi v i).evt = s.evt := (State.put_evt _ p hi _ i).trans (s.put_evt p lo _ i)
@[simp] theorem State.putPair_fault (s : State) (p : Nat) (lo hi : Fld) (v i : Nat) : (s.putPair p lo hi v i).fault = s.fault := (State.put_fault _ p hi _ i).trans (s.put_fault p lo _ i)
@[simp] theorem State.putPair_power (s : State) (p : Nat) (lo hi : Fld) (v i : Nat) : (s.putPair p lo hi v i).power = s.power := (State.put_power _ p hi _ i).trans (s.put_power p lo _ i)
@[simp] theorem State.putPair_clock (s : State) (p : Nat) (lo hi : Fld) (v i : Nat) : (s.putPair p lo hi v i).clock = s.clock := (State.put_clock _ p hi _ i).trans (s.put_clock p lo _ i)
@[simp] theorem State.putPair_frisket (s : State) (p : Nat) (lo hi : Fld) (v i : Nat) : (s.putPair p lo hi v i).frisket = s.frisket := (State.put_frisket _ p hi _ i).trans (s.put_frisket p lo _ i)
@[simp] theorem State.putPair_msixFmask (s : State) (p : Nat) (lo hi : Fld) (v i : Nat) : (s.putPair p lo hi v i).msixFmask = s.msixFmask := (State.put_msixFmask _ p hi _ i).trans (s.put_msixFmask p lo _ i)
@[simp] theorem State.putPair_noc (s : State) (p : Nat) (lo hi : Fld) (v i : Nat) : (s.putPair p lo hi v i).noc = s.noc := (State.put_noc _ p hi _ i).trans (s.put_noc p lo _ i)
@[simp] theorem State.putPair_forme (s : State) (p : Nat) (lo hi : Fld) (v i : Nat) : (s.putPair p lo hi v i).forme = s.forme := (State.put_forme _ p hi _ i).trans (s.put_forme p lo _ i)
@[simp] theorem State.putPair_seq (s : State) (p : Nat) (lo hi : Fld) (v i : Nat) : (s.putPair p lo hi v i).seq = s.seq := (State.put_seq _ p hi _ i).trans (s.put_seq p lo _ i)
@[simp] theorem State.putPair_cstore (s : State) (p : Nat) (lo hi : Fld) (v i : Nat) : (s.putPair p lo hi v i).cstore = s.cstore := (State.put_cstore _ p hi _ i).trans (s.put_cstore p lo _ i)
@[simp] theorem State.putPair_comp (s : State) (p : Nat) (lo hi : Fld) (v i : Nat) : (s.putPair p lo hi v i).comp = s.comp := (State.put_comp _ p hi _ i).trans (s.put_comp p lo _ i)
@[simp] theorem State.putPair_cores (s : State) (p : Nat) (lo hi : Fld) (v i : Nat) : (s.putPair p lo hi v i).cores = s.cores := (State.put_cores _ p hi _ i).trans (s.put_cores p lo _ i)
@[simp] theorem State.putPair_webs (s : State) (p : Nat) (lo hi : Fld) (v i : Nat) : (s.putPair p lo hi v i).webs = s.webs := (State.put_webs _ p hi _ i).trans (s.put_webs p lo _ i)
@[simp] theorem State.putPair_jobs (s : State) (p : Nat) (lo hi : Fld) (v i : Nat) : (s.putPair p lo hi v i).jobs = s.jobs := (State.put_jobs _ p hi _ i).trans (s.put_jobs p lo _ i)
@[simp] theorem State.putPair_sp (s : State) (p : Nat) (lo hi : Fld) (v i : Nat) : (s.putPair p lo hi v i).sp = s.sp := (State.put_sp _ p hi _ i).trans (s.put_sp p lo _ i)
@[simp] theorem State.putPair_host (s : State) (p : Nat) (lo hi : Fld) (v i : Nat) : (s.putPair p lo hi v i).host = s.host := (State.put_host _ p hi _ i).trans (s.put_host p lo _ i)
@[simp] theorem State.putPair_log (s : State) (p : Nat) (lo hi : Fld) (v i : Nat) : (s.putPair p lo hi v i).log = s.log := (State.put_log _ p hi _ i).trans (s.put_log p lo _ i)
@[simp] theorem State.putPair_colo (s : State) (p : Nat) (lo hi : Fld) (v i : Nat) : (s.putPair p lo hi v i).colo = s.colo := (State.put_colo _ p hi _ i).trans (s.put_colo p lo _ i)
@[simp] theorem State.putPair_device (s : State) (p : Nat) (lo hi : Fld) (v i : Nat) : (s.putPair p lo hi v i).device = s.device := (State.put_device _ p hi _ i).trans (s.put_device p lo _ i)

@[simp] theorem State.emit_pending (s : State) (o : Output) : (s.emit o).pending = s.pending := rfl
@[simp] theorem State.emit_out (s : State) (o : Output) : (s.emit o).out = s.out ++ [o] := rfl
@[simp] theorem State.emit_regs (s : State) (o : Output) : (s.emit o).regs = s.regs := rfl
@[simp] theorem State.emit_caps (s : State) (o : Output) : (s.emit o).caps = s.caps := rfl
@[simp] theorem State.emit_mono (s : State) (o : Output) : (s.emit o).mono = s.mono := rfl
@[simp] theorem State.emit_dev (s : State) (o : Output) : (s.emit o).dev = s.dev := rfl
@[simp] theorem State.emit_free (s : State) (o : Output) : (s.emit o).free = s.free := rfl
@[simp] theorem State.emit_feed (s : State) (o : Output) : (s.emit o).feed = s.feed := rfl
@[simp] theorem State.emit_ptp (s : State) (o : Output) : (s.emit o).ptp = s.ptp := rfl
@[simp] theorem State.emit_impose (s : State) (o : Output) : (s.emit o).impose = s.impose := rfl
@[simp] theorem State.emit_drive (s : State) (o : Output) : (s.emit o).drive = s.drive := rfl
@[simp] theorem State.emit_mem (s : State) (o : Output) : (s.emit o).mem = s.mem := rfl
@[simp] theorem State.emit_evt (s : State) (o : Output) : (s.emit o).evt = s.evt := rfl
@[simp] theorem State.emit_fault (s : State) (o : Output) : (s.emit o).fault = s.fault := rfl
@[simp] theorem State.emit_power (s : State) (o : Output) : (s.emit o).power = s.power := rfl
@[simp] theorem State.emit_clock (s : State) (o : Output) : (s.emit o).clock = s.clock := rfl
@[simp] theorem State.emit_frisket (s : State) (o : Output) : (s.emit o).frisket = s.frisket := rfl
@[simp] theorem State.emit_msixFmask (s : State) (o : Output) : (s.emit o).msixFmask = s.msixFmask := rfl
@[simp] theorem State.emit_noc (s : State) (o : Output) : (s.emit o).noc = s.noc := rfl
@[simp] theorem State.emit_forme (s : State) (o : Output) : (s.emit o).forme = s.forme := rfl
@[simp] theorem State.emit_seq (s : State) (o : Output) : (s.emit o).seq = s.seq := rfl
@[simp] theorem State.emit_cstore (s : State) (o : Output) : (s.emit o).cstore = s.cstore := rfl
@[simp] theorem State.emit_comp (s : State) (o : Output) : (s.emit o).comp = s.comp := rfl
@[simp] theorem State.emit_cores (s : State) (o : Output) : (s.emit o).cores = s.cores := rfl
@[simp] theorem State.emit_webs (s : State) (o : Output) : (s.emit o).webs = s.webs := rfl
@[simp] theorem State.emit_jobs (s : State) (o : Output) : (s.emit o).jobs = s.jobs := rfl
@[simp] theorem State.emit_sp (s : State) (o : Output) : (s.emit o).sp = s.sp := rfl
@[simp] theorem State.emit_host (s : State) (o : Output) : (s.emit o).host = s.host := rfl
@[simp] theorem State.emit_log (s : State) (o : Output) : (s.emit o).log = s.log := rfl
@[simp] theorem State.emit_colo (s : State) (o : Output) : (s.emit o).colo = s.colo := rfl
@[simp] theorem State.emit_device (s : State) (o : Output) : (s.emit o).device = s.device := rfl

@[simp] theorem State.skipFree_pending (s : State) (n : Nat) : (s.skipFree n).pending = s.pending := rfl
@[simp] theorem State.skipFree_out (s : State) (n : Nat) : (s.skipFree n).out = s.out := rfl
@[simp] theorem State.skipFree_regs (s : State) (n : Nat) : (s.skipFree n).regs = s.regs := rfl
@[simp] theorem State.skipFree_caps (s : State) (n : Nat) : (s.skipFree n).caps = s.caps := rfl
@[simp] theorem State.skipFree_mono (s : State) (n : Nat) : (s.skipFree n).mono = s.mono := rfl
@[simp] theorem State.skipFree_dev (s : State) (n : Nat) : (s.skipFree n).dev = s.dev := rfl
@[simp] theorem State.skipFree_free (s : State) (n : Nat) : (s.skipFree n).free = s.free + n := rfl
@[simp] theorem State.skipFree_feed (s : State) (n : Nat) : (s.skipFree n).feed = s.feed := rfl
@[simp] theorem State.skipFree_ptp (s : State) (n : Nat) : (s.skipFree n).ptp = s.ptp := rfl
@[simp] theorem State.skipFree_impose (s : State) (n : Nat) : (s.skipFree n).impose = s.impose := rfl
@[simp] theorem State.skipFree_drive (s : State) (n : Nat) : (s.skipFree n).drive = s.drive := rfl
@[simp] theorem State.skipFree_mem (s : State) (n : Nat) : (s.skipFree n).mem = s.mem := rfl
@[simp] theorem State.skipFree_evt (s : State) (n : Nat) : (s.skipFree n).evt = s.evt := rfl
@[simp] theorem State.skipFree_fault (s : State) (n : Nat) : (s.skipFree n).fault = s.fault := rfl
@[simp] theorem State.skipFree_power (s : State) (n : Nat) : (s.skipFree n).power = s.power := rfl
@[simp] theorem State.skipFree_clock (s : State) (n : Nat) : (s.skipFree n).clock = s.clock := rfl
@[simp] theorem State.skipFree_frisket (s : State) (n : Nat) : (s.skipFree n).frisket = s.frisket := rfl
@[simp] theorem State.skipFree_msixFmask (s : State) (n : Nat) : (s.skipFree n).msixFmask = s.msixFmask := rfl
@[simp] theorem State.skipFree_noc (s : State) (n : Nat) : (s.skipFree n).noc = s.noc := rfl
@[simp] theorem State.skipFree_forme (s : State) (n : Nat) : (s.skipFree n).forme = s.forme := rfl
@[simp] theorem State.skipFree_seq (s : State) (n : Nat) : (s.skipFree n).seq = s.seq := rfl
@[simp] theorem State.skipFree_cstore (s : State) (n : Nat) : (s.skipFree n).cstore = s.cstore := rfl
@[simp] theorem State.skipFree_comp (s : State) (n : Nat) : (s.skipFree n).comp = s.comp := rfl
@[simp] theorem State.skipFree_cores (s : State) (n : Nat) : (s.skipFree n).cores = s.cores := rfl
@[simp] theorem State.skipFree_webs (s : State) (n : Nat) : (s.skipFree n).webs = s.webs := rfl
@[simp] theorem State.skipFree_jobs (s : State) (n : Nat) : (s.skipFree n).jobs = s.jobs := rfl
@[simp] theorem State.skipFree_sp (s : State) (n : Nat) : (s.skipFree n).sp = s.sp := rfl
@[simp] theorem State.skipFree_host (s : State) (n : Nat) : (s.skipFree n).host = s.host := rfl
@[simp] theorem State.skipFree_log (s : State) (n : Nat) : (s.skipFree n).log = s.log := rfl
@[simp] theorem State.skipFree_colo (s : State) (n : Nat) : (s.skipFree n).colo = s.colo := rfl
@[simp] theorem State.skipFree_device (s : State) (n : Nat) : (s.skipFree n).device = s.device := rfl

@[simp] theorem State.advance_pending (s : State) (t : Nat) : (s.advance t).pending = s.pending := rfl
@[simp] theorem State.advance_out (s : State) (t : Nat) : (s.advance t).out = s.out := rfl
@[simp] theorem State.advance_regs (s : State) (t : Nat) : (s.advance t).regs = s.regs := rfl
@[simp] theorem State.advance_caps (s : State) (t : Nat) : (s.advance t).caps = s.caps := rfl
@[simp] theorem State.advance_mono (s : State) (t : Nat) : (s.advance t).mono = s.mono + s.acNs t := rfl
@[simp] theorem State.advance_free (s : State) (t : Nat) : (s.advance t).free = s.free := rfl
@[simp] theorem State.advance_feed (s : State) (t : Nat) : (s.advance t).feed = s.feed := rfl
@[simp] theorem State.advance_ptp (s : State) (t : Nat) : (s.advance t).ptp = s.ptp := rfl
@[simp] theorem State.advance_impose (s : State) (t : Nat) : (s.advance t).impose = s.impose := rfl
@[simp] theorem State.advance_drive (s : State) (t : Nat) : (s.advance t).drive = s.drive := rfl
@[simp] theorem State.advance_mem (s : State) (t : Nat) : (s.advance t).mem = s.mem := rfl
@[simp] theorem State.advance_evt (s : State) (t : Nat) : (s.advance t).evt = s.evt := rfl
@[simp] theorem State.advance_fault (s : State) (t : Nat) : (s.advance t).fault = s.fault := rfl
@[simp] theorem State.advance_power (s : State) (t : Nat) : (s.advance t).power = s.power := rfl
@[simp] theorem State.advance_frisket (s : State) (t : Nat) : (s.advance t).frisket = s.frisket := rfl
@[simp] theorem State.advance_msixFmask (s : State) (t : Nat) : (s.advance t).msixFmask = s.msixFmask := rfl
@[simp] theorem State.advance_noc (s : State) (t : Nat) : (s.advance t).noc = s.noc := rfl
@[simp] theorem State.advance_forme (s : State) (t : Nat) : (s.advance t).forme = s.forme := rfl
@[simp] theorem State.advance_seq (s : State) (t : Nat) : (s.advance t).seq = s.seq := rfl
@[simp] theorem State.advance_cstore (s : State) (t : Nat) : (s.advance t).cstore = s.cstore := rfl
@[simp] theorem State.advance_comp (s : State) (t : Nat) : (s.advance t).comp = s.comp := rfl
@[simp] theorem State.advance_cores (s : State) (t : Nat) : (s.advance t).cores = s.cores := rfl
@[simp] theorem State.advance_webs (s : State) (t : Nat) : (s.advance t).webs = s.webs := rfl
@[simp] theorem State.advance_jobs (s : State) (t : Nat) : (s.advance t).jobs = s.jobs := rfl
@[simp] theorem State.advance_sp (s : State) (t : Nat) : (s.advance t).sp = s.sp := rfl
@[simp] theorem State.advance_host (s : State) (t : Nat) : (s.advance t).host = s.host := rfl
@[simp] theorem State.advance_log (s : State) (t : Nat) : (s.advance t).log = s.log := rfl
@[simp] theorem State.advance_colo (s : State) (t : Nat) : (s.advance t).colo = s.colo := rfl
@[simp] theorem State.advance_device (s : State) (t : Nat) : (s.advance t).device = s.device := rfl

@[simp] theorem State.raisePacket_pending (s : State) (n : Nat) : (s.raisePacket n).pending = s.pending := rfl
@[simp] theorem State.raisePacket_out (s : State) (n : Nat) : (s.raisePacket n).out = s.out := rfl
@[simp] theorem State.raisePacket_regs (s : State) (n : Nat) : (s.raisePacket n).regs = s.regs := rfl
@[simp] theorem State.raisePacket_caps (s : State) (n : Nat) : (s.raisePacket n).caps = s.caps := rfl
@[simp] theorem State.raisePacket_mono (s : State) (n : Nat) : (s.raisePacket n).mono = s.mono := rfl
@[simp] theorem State.raisePacket_dev (s : State) (n : Nat) : (s.raisePacket n).dev = s.dev := rfl
@[simp] theorem State.raisePacket_free (s : State) (n : Nat) : (s.raisePacket n).free = s.free := rfl
@[simp] theorem State.raisePacket_feed (s : State) (n : Nat) : (s.raisePacket n).feed = s.feed := rfl
@[simp] theorem State.raisePacket_ptp (s : State) (n : Nat) : (s.raisePacket n).ptp = s.ptp := rfl
@[simp] theorem State.raisePacket_impose (s : State) (n : Nat) : (s.raisePacket n).impose = s.impose := rfl
@[simp] theorem State.raisePacket_drive (s : State) (n : Nat) : (s.raisePacket n).drive = s.drive := rfl
@[simp] theorem State.raisePacket_mem (s : State) (n : Nat) : (s.raisePacket n).mem = s.mem := rfl
@[simp] theorem State.raisePacket_fault (s : State) (n : Nat) : (s.raisePacket n).fault = s.fault := rfl
@[simp] theorem State.raisePacket_power (s : State) (n : Nat) : (s.raisePacket n).power = s.power := rfl
@[simp] theorem State.raisePacket_clock (s : State) (n : Nat) : (s.raisePacket n).clock = s.clock := rfl
@[simp] theorem State.raisePacket_frisket (s : State) (n : Nat) : (s.raisePacket n).frisket = s.frisket := rfl
@[simp] theorem State.raisePacket_msixFmask (s : State) (n : Nat) : (s.raisePacket n).msixFmask = s.msixFmask := rfl
@[simp] theorem State.raisePacket_noc (s : State) (n : Nat) : (s.raisePacket n).noc = s.noc := rfl
@[simp] theorem State.raisePacket_forme (s : State) (n : Nat) : (s.raisePacket n).forme = s.forme := rfl
@[simp] theorem State.raisePacket_seq (s : State) (n : Nat) : (s.raisePacket n).seq = s.seq := rfl
@[simp] theorem State.raisePacket_cstore (s : State) (n : Nat) : (s.raisePacket n).cstore = s.cstore := rfl
@[simp] theorem State.raisePacket_comp (s : State) (n : Nat) : (s.raisePacket n).comp = s.comp := rfl
@[simp] theorem State.raisePacket_cores (s : State) (n : Nat) : (s.raisePacket n).cores = s.cores := rfl
@[simp] theorem State.raisePacket_webs (s : State) (n : Nat) : (s.raisePacket n).webs = s.webs := rfl
@[simp] theorem State.raisePacket_jobs (s : State) (n : Nat) : (s.raisePacket n).jobs = s.jobs := rfl
@[simp] theorem State.raisePacket_sp (s : State) (n : Nat) : (s.raisePacket n).sp = s.sp := rfl
@[simp] theorem State.raisePacket_host (s : State) (n : Nat) : (s.raisePacket n).host = s.host := rfl
@[simp] theorem State.raisePacket_log (s : State) (n : Nat) : (s.raisePacket n).log = s.log := rfl
@[simp] theorem State.raisePacket_colo (s : State) (n : Nat) : (s.raisePacket n).colo = s.colo := rfl
@[simp] theorem State.raisePacket_device (s : State) (n : Nat) : (s.raisePacket n).device = s.device := rfl

@[simp] theorem State.report_pending (s : State) (p src kind addr detail : Nat) : (s.report p src kind addr detail).pending = s.pending := by
  simp only [State.report, State.put_pending]
@[simp] theorem State.report_out (s : State) (p src kind addr detail : Nat) : (s.report p src kind addr detail).out = s.out := by
  simp only [State.report, State.put_out]
@[simp] theorem State.report_caps (s : State) (p src kind addr detail : Nat) : (s.report p src kind addr detail).caps = s.caps := by
  simp only [State.report, State.put_caps]
@[simp] theorem State.report_mono (s : State) (p src kind addr detail : Nat) : (s.report p src kind addr detail).mono = s.mono := by
  simp only [State.report, State.put_mono]
@[simp] theorem State.report_dev (s : State) (p src kind addr detail : Nat) : (s.report p src kind addr detail).dev = s.dev := by
  simp only [State.report, State.put_dev]
@[simp] theorem State.report_free (s : State) (p src kind addr detail : Nat) : (s.report p src kind addr detail).free = s.free := by
  simp only [State.report, State.put_free]
@[simp] theorem State.report_feed (s : State) (p src kind addr detail : Nat) : (s.report p src kind addr detail).feed = s.feed := by
  simp only [State.report, State.put_feed]
@[simp] theorem State.report_ptp (s : State) (p src kind addr detail : Nat) : (s.report p src kind addr detail).ptp = s.ptp := by
  simp only [State.report, State.put_ptp]
@[simp] theorem State.report_impose (s : State) (p src kind addr detail : Nat) : (s.report p src kind addr detail).impose = s.impose := by
  simp only [State.report, State.put_impose]
@[simp] theorem State.report_drive (s : State) (p src kind addr detail : Nat) : (s.report p src kind addr detail).drive = s.drive := by
  simp only [State.report, State.put_drive]
@[simp] theorem State.report_mem (s : State) (p src kind addr detail : Nat) : (s.report p src kind addr detail).mem = s.mem := by
  simp only [State.report, State.put_mem]
@[simp] theorem State.report_evt (s : State) (p src kind addr detail : Nat) : (s.report p src kind addr detail).evt = s.evt := by
  simp only [State.report, State.put_evt]
@[simp] theorem State.report_power (s : State) (p src kind addr detail : Nat) : (s.report p src kind addr detail).power = s.power := by
  simp only [State.report, State.put_power]
@[simp] theorem State.report_clock (s : State) (p src kind addr detail : Nat) : (s.report p src kind addr detail).clock = s.clock := by
  simp only [State.report, State.put_clock]
@[simp] theorem State.report_frisket (s : State) (p src kind addr detail : Nat) : (s.report p src kind addr detail).frisket = s.frisket := by
  simp only [State.report, State.put_frisket]
@[simp] theorem State.report_msixFmask (s : State) (p src kind addr detail : Nat) : (s.report p src kind addr detail).msixFmask = s.msixFmask := by
  simp only [State.report, State.put_msixFmask]
@[simp] theorem State.report_noc (s : State) (p src kind addr detail : Nat) : (s.report p src kind addr detail).noc = s.noc := by
  simp only [State.report, State.put_noc]
@[simp] theorem State.report_forme (s : State) (p src kind addr detail : Nat) : (s.report p src kind addr detail).forme = s.forme := by
  simp only [State.report, State.put_forme]
@[simp] theorem State.report_seq (s : State) (p src kind addr detail : Nat) : (s.report p src kind addr detail).seq = s.seq := by
  simp only [State.report, State.put_seq]
@[simp] theorem State.report_cstore (s : State) (p src kind addr detail : Nat) : (s.report p src kind addr detail).cstore = s.cstore := by
  simp only [State.report, State.put_cstore]
@[simp] theorem State.report_comp (s : State) (p src kind addr detail : Nat) : (s.report p src kind addr detail).comp = s.comp := by
  simp only [State.report, State.put_comp]
@[simp] theorem State.report_cores (s : State) (p src kind addr detail : Nat) : (s.report p src kind addr detail).cores = s.cores := by
  simp only [State.report, State.put_cores]
@[simp] theorem State.report_webs (s : State) (p src kind addr detail : Nat) : (s.report p src kind addr detail).webs = s.webs := by
  simp only [State.report, State.put_webs]
@[simp] theorem State.report_jobs (s : State) (p src kind addr detail : Nat) : (s.report p src kind addr detail).jobs = s.jobs := by
  simp only [State.report, State.put_jobs]
@[simp] theorem State.report_sp (s : State) (p src kind addr detail : Nat) : (s.report p src kind addr detail).sp = s.sp := by
  simp only [State.report, State.put_sp]
@[simp] theorem State.report_host (s : State) (p src kind addr detail : Nat) : (s.report p src kind addr detail).host = s.host := by
  simp only [State.report, State.put_host]
@[simp] theorem State.report_log (s : State) (p src kind addr detail : Nat) : (s.report p src kind addr detail).log = s.log := by
  simp only [State.report, State.put_log]
@[simp] theorem State.report_colo (s : State) (p src kind addr detail : Nat) : (s.report p src kind addr detail).colo = s.colo := by
  simp only [State.report, State.put_colo]
@[simp] theorem State.report_device (s : State) (p src kind addr detail : Nat) : (s.report p src kind addr detail).device = s.device := by
  simp only [State.report, State.put_device]

@[simp] theorem State.localFault_pending (s : State) (src kind addr detail : Nat) : (s.localFault src kind addr detail).pending = s.pending := by
  simp only [State.localFault, State.put_pending]
@[simp] theorem State.localFault_out (s : State) (src kind addr detail : Nat) : (s.localFault src kind addr detail).out = s.out := by
  simp only [State.localFault, State.put_out]
@[simp] theorem State.localFault_caps (s : State) (src kind addr detail : Nat) : (s.localFault src kind addr detail).caps = s.caps := by
  simp only [State.localFault, State.put_caps]
@[simp] theorem State.localFault_mono (s : State) (src kind addr detail : Nat) : (s.localFault src kind addr detail).mono = s.mono := by
  simp only [State.localFault, State.put_mono]
@[simp] theorem State.localFault_dev (s : State) (src kind addr detail : Nat) : (s.localFault src kind addr detail).dev = s.dev := by
  simp only [State.localFault, State.put_dev]
@[simp] theorem State.localFault_free (s : State) (src kind addr detail : Nat) : (s.localFault src kind addr detail).free = s.free := by
  simp only [State.localFault, State.put_free]
@[simp] theorem State.localFault_feed (s : State) (src kind addr detail : Nat) : (s.localFault src kind addr detail).feed = s.feed := by
  simp only [State.localFault, State.put_feed]
@[simp] theorem State.localFault_ptp (s : State) (src kind addr detail : Nat) : (s.localFault src kind addr detail).ptp = s.ptp := by
  simp only [State.localFault, State.put_ptp]
@[simp] theorem State.localFault_impose (s : State) (src kind addr detail : Nat) : (s.localFault src kind addr detail).impose = s.impose := by
  simp only [State.localFault, State.put_impose]
@[simp] theorem State.localFault_drive (s : State) (src kind addr detail : Nat) : (s.localFault src kind addr detail).drive = s.drive := by
  simp only [State.localFault, State.put_drive]
@[simp] theorem State.localFault_mem (s : State) (src kind addr detail : Nat) : (s.localFault src kind addr detail).mem = s.mem := by
  simp only [State.localFault, State.put_mem]
@[simp] theorem State.localFault_evt (s : State) (src kind addr detail : Nat) : (s.localFault src kind addr detail).evt = s.evt := by
  simp only [State.localFault, State.put_evt]
@[simp] theorem State.localFault_power (s : State) (src kind addr detail : Nat) : (s.localFault src kind addr detail).power = s.power := by
  simp only [State.localFault, State.put_power]
@[simp] theorem State.localFault_clock (s : State) (src kind addr detail : Nat) : (s.localFault src kind addr detail).clock = s.clock := by
  simp only [State.localFault, State.put_clock]
@[simp] theorem State.localFault_frisket (s : State) (src kind addr detail : Nat) : (s.localFault src kind addr detail).frisket = s.frisket := by
  simp only [State.localFault, State.put_frisket]
@[simp] theorem State.localFault_msixFmask (s : State) (src kind addr detail : Nat) : (s.localFault src kind addr detail).msixFmask = s.msixFmask := by
  simp only [State.localFault, State.put_msixFmask]
@[simp] theorem State.localFault_noc (s : State) (src kind addr detail : Nat) : (s.localFault src kind addr detail).noc = s.noc := by
  simp only [State.localFault, State.put_noc]
@[simp] theorem State.localFault_forme (s : State) (src kind addr detail : Nat) : (s.localFault src kind addr detail).forme = s.forme := by
  simp only [State.localFault, State.put_forme]
@[simp] theorem State.localFault_seq (s : State) (src kind addr detail : Nat) : (s.localFault src kind addr detail).seq = s.seq := by
  simp only [State.localFault, State.put_seq]
@[simp] theorem State.localFault_cstore (s : State) (src kind addr detail : Nat) : (s.localFault src kind addr detail).cstore = s.cstore := by
  simp only [State.localFault, State.put_cstore]
@[simp] theorem State.localFault_comp (s : State) (src kind addr detail : Nat) : (s.localFault src kind addr detail).comp = s.comp := by
  simp only [State.localFault, State.put_comp]
@[simp] theorem State.localFault_cores (s : State) (src kind addr detail : Nat) : (s.localFault src kind addr detail).cores = s.cores := by
  simp only [State.localFault, State.put_cores]
@[simp] theorem State.localFault_webs (s : State) (src kind addr detail : Nat) : (s.localFault src kind addr detail).webs = s.webs := by
  simp only [State.localFault, State.put_webs]
@[simp] theorem State.localFault_jobs (s : State) (src kind addr detail : Nat) : (s.localFault src kind addr detail).jobs = s.jobs := by
  simp only [State.localFault, State.put_jobs]
@[simp] theorem State.localFault_sp (s : State) (src kind addr detail : Nat) : (s.localFault src kind addr detail).sp = s.sp := by
  simp only [State.localFault, State.put_sp]
@[simp] theorem State.localFault_host (s : State) (src kind addr detail : Nat) : (s.localFault src kind addr detail).host = s.host := by
  simp only [State.localFault, State.put_host]
@[simp] theorem State.localFault_log (s : State) (src kind addr detail : Nat) : (s.localFault src kind addr detail).log = s.log := by
  simp only [State.localFault, State.put_log]
@[simp] theorem State.localFault_colo (s : State) (src kind addr detail : Nat) : (s.localFault src kind addr detail).colo = s.colo := by
  simp only [State.localFault, State.put_colo]
@[simp] theorem State.localFault_device (s : State) (src kind addr detail : Nat) : (s.localFault src kind addr detail).device = s.device := by
  simp only [State.localFault, State.put_device]

@[simp] theorem State.count64_pending (s : State) (p : Nat) (lo hi : Fld) (n : Nat) : (s.count64 p lo hi n).pending = s.pending := s.putPair_pending p lo hi _ 0
@[simp] theorem State.count64_out (s : State) (p : Nat) (lo hi : Fld) (n : Nat) : (s.count64 p lo hi n).out = s.out := s.putPair_out p lo hi _ 0
@[simp] theorem State.count64_caps (s : State) (p : Nat) (lo hi : Fld) (n : Nat) : (s.count64 p lo hi n).caps = s.caps := s.putPair_caps p lo hi _ 0
@[simp] theorem State.count64_mono (s : State) (p : Nat) (lo hi : Fld) (n : Nat) : (s.count64 p lo hi n).mono = s.mono := s.putPair_mono p lo hi _ 0
@[simp] theorem State.count64_dev (s : State) (p : Nat) (lo hi : Fld) (n : Nat) : (s.count64 p lo hi n).dev = s.dev := s.putPair_dev p lo hi _ 0
@[simp] theorem State.count64_free (s : State) (p : Nat) (lo hi : Fld) (n : Nat) : (s.count64 p lo hi n).free = s.free := s.putPair_free p lo hi _ 0
@[simp] theorem State.count64_feed (s : State) (p : Nat) (lo hi : Fld) (n : Nat) : (s.count64 p lo hi n).feed = s.feed := s.putPair_feed p lo hi _ 0
@[simp] theorem State.count64_ptp (s : State) (p : Nat) (lo hi : Fld) (n : Nat) : (s.count64 p lo hi n).ptp = s.ptp := s.putPair_ptp p lo hi _ 0
@[simp] theorem State.count64_impose (s : State) (p : Nat) (lo hi : Fld) (n : Nat) : (s.count64 p lo hi n).impose = s.impose := s.putPair_impose p lo hi _ 0
@[simp] theorem State.count64_drive (s : State) (p : Nat) (lo hi : Fld) (n : Nat) : (s.count64 p lo hi n).drive = s.drive := s.putPair_drive p lo hi _ 0
@[simp] theorem State.count64_mem (s : State) (p : Nat) (lo hi : Fld) (n : Nat) : (s.count64 p lo hi n).mem = s.mem := s.putPair_mem p lo hi _ 0
@[simp] theorem State.count64_evt (s : State) (p : Nat) (lo hi : Fld) (n : Nat) : (s.count64 p lo hi n).evt = s.evt := s.putPair_evt p lo hi _ 0
@[simp] theorem State.count64_fault (s : State) (p : Nat) (lo hi : Fld) (n : Nat) : (s.count64 p lo hi n).fault = s.fault := s.putPair_fault p lo hi _ 0
@[simp] theorem State.count64_power (s : State) (p : Nat) (lo hi : Fld) (n : Nat) : (s.count64 p lo hi n).power = s.power := s.putPair_power p lo hi _ 0
@[simp] theorem State.count64_clock (s : State) (p : Nat) (lo hi : Fld) (n : Nat) : (s.count64 p lo hi n).clock = s.clock := s.putPair_clock p lo hi _ 0
@[simp] theorem State.count64_frisket (s : State) (p : Nat) (lo hi : Fld) (n : Nat) : (s.count64 p lo hi n).frisket = s.frisket := s.putPair_frisket p lo hi _ 0
@[simp] theorem State.count64_msixFmask (s : State) (p : Nat) (lo hi : Fld) (n : Nat) : (s.count64 p lo hi n).msixFmask = s.msixFmask := s.putPair_msixFmask p lo hi _ 0
@[simp] theorem State.count64_noc (s : State) (p : Nat) (lo hi : Fld) (n : Nat) : (s.count64 p lo hi n).noc = s.noc := s.putPair_noc p lo hi _ 0
@[simp] theorem State.count64_forme (s : State) (p : Nat) (lo hi : Fld) (n : Nat) : (s.count64 p lo hi n).forme = s.forme := s.putPair_forme p lo hi _ 0
@[simp] theorem State.count64_seq (s : State) (p : Nat) (lo hi : Fld) (n : Nat) : (s.count64 p lo hi n).seq = s.seq := s.putPair_seq p lo hi _ 0
@[simp] theorem State.count64_cstore (s : State) (p : Nat) (lo hi : Fld) (n : Nat) : (s.count64 p lo hi n).cstore = s.cstore := s.putPair_cstore p lo hi _ 0
@[simp] theorem State.count64_comp (s : State) (p : Nat) (lo hi : Fld) (n : Nat) : (s.count64 p lo hi n).comp = s.comp := s.putPair_comp p lo hi _ 0
@[simp] theorem State.count64_cores (s : State) (p : Nat) (lo hi : Fld) (n : Nat) : (s.count64 p lo hi n).cores = s.cores := s.putPair_cores p lo hi _ 0
@[simp] theorem State.count64_webs (s : State) (p : Nat) (lo hi : Fld) (n : Nat) : (s.count64 p lo hi n).webs = s.webs := s.putPair_webs p lo hi _ 0
@[simp] theorem State.count64_jobs (s : State) (p : Nat) (lo hi : Fld) (n : Nat) : (s.count64 p lo hi n).jobs = s.jobs := s.putPair_jobs p lo hi _ 0
@[simp] theorem State.count64_sp (s : State) (p : Nat) (lo hi : Fld) (n : Nat) : (s.count64 p lo hi n).sp = s.sp := s.putPair_sp p lo hi _ 0
@[simp] theorem State.count64_host (s : State) (p : Nat) (lo hi : Fld) (n : Nat) : (s.count64 p lo hi n).host = s.host := s.putPair_host p lo hi _ 0
@[simp] theorem State.count64_log (s : State) (p : Nat) (lo hi : Fld) (n : Nat) : (s.count64 p lo hi n).log = s.log := s.putPair_log p lo hi _ 0
@[simp] theorem State.count64_colo (s : State) (p : Nat) (lo hi : Fld) (n : Nat) : (s.count64 p lo hi n).colo = s.colo := s.putPair_colo p lo hi _ 0
@[simp] theorem State.count64_device (s : State) (p : Nat) (lo hi : Fld) (n : Nat) : (s.count64 p lo hi n).device = s.device := s.putPair_device p lo hi _ 0

@[simp] theorem State.setDomain_pending (s : State) (d : Nat) (x : DomainSt) : (s.setDomain d x).pending = s.pending := rfl
@[simp] theorem State.setDomain_out (s : State) (d : Nat) (x : DomainSt) : (s.setDomain d x).out = s.out := rfl
@[simp] theorem State.setDomain_regs (s : State) (d : Nat) (x : DomainSt) : (s.setDomain d x).regs = s.regs := rfl
@[simp] theorem State.setDomain_caps (s : State) (d : Nat) (x : DomainSt) : (s.setDomain d x).caps = s.caps := rfl
@[simp] theorem State.setDomain_mono (s : State) (d : Nat) (x : DomainSt) : (s.setDomain d x).mono = s.mono := rfl
@[simp] theorem State.setDomain_dev (s : State) (d : Nat) (x : DomainSt) : (s.setDomain d x).dev = s.dev := rfl
@[simp] theorem State.setDomain_free (s : State) (d : Nat) (x : DomainSt) : (s.setDomain d x).free = s.free := rfl
@[simp] theorem State.setDomain_feed (s : State) (d : Nat) (x : DomainSt) : (s.setDomain d x).feed = s.feed := rfl
@[simp] theorem State.setDomain_ptp (s : State) (d : Nat) (x : DomainSt) : (s.setDomain d x).ptp = s.ptp := rfl
@[simp] theorem State.setDomain_impose (s : State) (d : Nat) (x : DomainSt) : (s.setDomain d x).impose = s.impose := rfl
@[simp] theorem State.setDomain_drive (s : State) (d : Nat) (x : DomainSt) : (s.setDomain d x).drive = s.drive := rfl
@[simp] theorem State.setDomain_mem (s : State) (d : Nat) (x : DomainSt) : (s.setDomain d x).mem = s.mem := rfl
@[simp] theorem State.setDomain_evt (s : State) (d : Nat) (x : DomainSt) : (s.setDomain d x).evt = s.evt := rfl
@[simp] theorem State.setDomain_fault (s : State) (d : Nat) (x : DomainSt) : (s.setDomain d x).fault = s.fault := rfl
@[simp] theorem State.setDomain_clock (s : State) (d : Nat) (x : DomainSt) : (s.setDomain d x).clock = s.clock := rfl
@[simp] theorem State.setDomain_frisket (s : State) (d : Nat) (x : DomainSt) : (s.setDomain d x).frisket = s.frisket := rfl
@[simp] theorem State.setDomain_msixFmask (s : State) (d : Nat) (x : DomainSt) : (s.setDomain d x).msixFmask = s.msixFmask := rfl
@[simp] theorem State.setDomain_noc (s : State) (d : Nat) (x : DomainSt) : (s.setDomain d x).noc = s.noc := rfl
@[simp] theorem State.setDomain_forme (s : State) (d : Nat) (x : DomainSt) : (s.setDomain d x).forme = s.forme := rfl
@[simp] theorem State.setDomain_seq (s : State) (d : Nat) (x : DomainSt) : (s.setDomain d x).seq = s.seq := rfl
@[simp] theorem State.setDomain_cstore (s : State) (d : Nat) (x : DomainSt) : (s.setDomain d x).cstore = s.cstore := rfl
@[simp] theorem State.setDomain_comp (s : State) (d : Nat) (x : DomainSt) : (s.setDomain d x).comp = s.comp := rfl
@[simp] theorem State.setDomain_cores (s : State) (d : Nat) (x : DomainSt) : (s.setDomain d x).cores = s.cores := rfl
@[simp] theorem State.setDomain_webs (s : State) (d : Nat) (x : DomainSt) : (s.setDomain d x).webs = s.webs := rfl
@[simp] theorem State.setDomain_jobs (s : State) (d : Nat) (x : DomainSt) : (s.setDomain d x).jobs = s.jobs := rfl
@[simp] theorem State.setDomain_sp (s : State) (d : Nat) (x : DomainSt) : (s.setDomain d x).sp = s.sp := rfl
@[simp] theorem State.setDomain_host (s : State) (d : Nat) (x : DomainSt) : (s.setDomain d x).host = s.host := rfl
@[simp] theorem State.setDomain_log (s : State) (d : Nat) (x : DomainSt) : (s.setDomain d x).log = s.log := rfl
@[simp] theorem State.setDomain_colo (s : State) (d : Nat) (x : DomainSt) : (s.setDomain d x).colo = s.colo := rfl
@[simp] theorem State.setDomain_device (s : State) (d : Nat) (x : DomainSt) : (s.setDomain d x).device = s.device := rfl

@[simp] theorem State.setCore_pending (s : State) (k : Nat) (c : CoreSt) : (s.setCore k c).pending = s.pending := rfl
@[simp] theorem State.setCore_out (s : State) (k : Nat) (c : CoreSt) : (s.setCore k c).out = s.out := rfl
@[simp] theorem State.setCore_regs (s : State) (k : Nat) (c : CoreSt) : (s.setCore k c).regs = s.regs := rfl
@[simp] theorem State.setCore_caps (s : State) (k : Nat) (c : CoreSt) : (s.setCore k c).caps = s.caps := rfl
@[simp] theorem State.setCore_mono (s : State) (k : Nat) (c : CoreSt) : (s.setCore k c).mono = s.mono := rfl
@[simp] theorem State.setCore_dev (s : State) (k : Nat) (c : CoreSt) : (s.setCore k c).dev = s.dev := rfl
@[simp] theorem State.setCore_free (s : State) (k : Nat) (c : CoreSt) : (s.setCore k c).free = s.free := rfl
@[simp] theorem State.setCore_feed (s : State) (k : Nat) (c : CoreSt) : (s.setCore k c).feed = s.feed := rfl
@[simp] theorem State.setCore_ptp (s : State) (k : Nat) (c : CoreSt) : (s.setCore k c).ptp = s.ptp := rfl
@[simp] theorem State.setCore_impose (s : State) (k : Nat) (c : CoreSt) : (s.setCore k c).impose = s.impose := rfl
@[simp] theorem State.setCore_drive (s : State) (k : Nat) (c : CoreSt) : (s.setCore k c).drive = s.drive := rfl
@[simp] theorem State.setCore_mem (s : State) (k : Nat) (c : CoreSt) : (s.setCore k c).mem = s.mem := rfl
@[simp] theorem State.setCore_evt (s : State) (k : Nat) (c : CoreSt) : (s.setCore k c).evt = s.evt := rfl
@[simp] theorem State.setCore_fault (s : State) (k : Nat) (c : CoreSt) : (s.setCore k c).fault = s.fault := rfl
@[simp] theorem State.setCore_power (s : State) (k : Nat) (c : CoreSt) : (s.setCore k c).power = s.power := rfl
@[simp] theorem State.setCore_clock (s : State) (k : Nat) (c : CoreSt) : (s.setCore k c).clock = s.clock := rfl
@[simp] theorem State.setCore_frisket (s : State) (k : Nat) (c : CoreSt) : (s.setCore k c).frisket = s.frisket := rfl
@[simp] theorem State.setCore_msixFmask (s : State) (k : Nat) (c : CoreSt) : (s.setCore k c).msixFmask = s.msixFmask := rfl
@[simp] theorem State.setCore_noc (s : State) (k : Nat) (c : CoreSt) : (s.setCore k c).noc = s.noc := rfl
@[simp] theorem State.setCore_forme (s : State) (k : Nat) (c : CoreSt) : (s.setCore k c).forme = s.forme := rfl
@[simp] theorem State.setCore_seq (s : State) (k : Nat) (c : CoreSt) : (s.setCore k c).seq = s.seq := rfl
@[simp] theorem State.setCore_cstore (s : State) (k : Nat) (c : CoreSt) : (s.setCore k c).cstore = s.cstore := rfl
@[simp] theorem State.setCore_comp (s : State) (k : Nat) (c : CoreSt) : (s.setCore k c).comp = s.comp := rfl
@[simp] theorem State.setCore_cores (s : State) (k : Nat) (c : CoreSt) : (s.setCore k c).cores = SMap.set CoreSt.reset s.cores k c := rfl
@[simp] theorem State.setCore_webs (s : State) (k : Nat) (c : CoreSt) : (s.setCore k c).webs = s.webs := rfl
@[simp] theorem State.setCore_jobs (s : State) (k : Nat) (c : CoreSt) : (s.setCore k c).jobs = s.jobs := rfl
@[simp] theorem State.setCore_sp (s : State) (k : Nat) (c : CoreSt) : (s.setCore k c).sp = s.sp := rfl
@[simp] theorem State.setCore_host (s : State) (k : Nat) (c : CoreSt) : (s.setCore k c).host = s.host := rfl
@[simp] theorem State.setCore_log (s : State) (k : Nat) (c : CoreSt) : (s.setCore k c).log = s.log := rfl
@[simp] theorem State.setCore_colo (s : State) (k : Nat) (c : CoreSt) : (s.setCore k c).colo = s.colo := rfl
@[simp] theorem State.setCore_device (s : State) (k : Nat) (c : CoreSt) : (s.setCore k c).device = s.device := rfl

@[simp] theorem State.probe_pending (s : State) (p ev m : Nat) : (s.probe p ev m).pending = s.pending := by
  unfold State.probe
  split
  · rfl
  · rfl
  · dsimp only
    split
    · split <;> simp only [State.put_pending, State.putPair_pending]
    · rfl
@[simp] theorem State.probe_out (s : State) (p ev m : Nat) : (s.probe p ev m).out = s.out := by
  unfold State.probe
  split
  · rfl
  · rfl
  · dsimp only
    split
    · split <;> simp only [State.put_out, State.putPair_out]
    · rfl
@[simp] theorem State.probe_caps (s : State) (p ev m : Nat) : (s.probe p ev m).caps = s.caps := by
  unfold State.probe
  split
  · rfl
  · rfl
  · dsimp only
    split
    · split <;> simp only [State.put_caps, State.putPair_caps]
    · rfl
@[simp] theorem State.probe_mono (s : State) (p ev m : Nat) : (s.probe p ev m).mono = s.mono := by
  unfold State.probe
  split
  · rfl
  · rfl
  · dsimp only
    split
    · split <;> simp only [State.put_mono, State.putPair_mono]
    · rfl
@[simp] theorem State.probe_dev (s : State) (p ev m : Nat) : (s.probe p ev m).dev = s.dev := by
  unfold State.probe
  split
  · rfl
  · rfl
  · dsimp only
    split
    · split <;> simp only [State.put_dev, State.putPair_dev]
    · rfl
@[simp] theorem State.probe_free (s : State) (p ev m : Nat) : (s.probe p ev m).free = s.free := by
  unfold State.probe
  split
  · rfl
  · rfl
  · dsimp only
    split
    · split <;> simp only [State.put_free, State.putPair_free]
    · rfl
@[simp] theorem State.probe_feed (s : State) (p ev m : Nat) : (s.probe p ev m).feed = s.feed := by
  unfold State.probe
  split
  · rfl
  · rfl
  · dsimp only
    split
    · split <;> simp only [State.put_feed, State.putPair_feed]
    · rfl
@[simp] theorem State.probe_ptp (s : State) (p ev m : Nat) : (s.probe p ev m).ptp = s.ptp := by
  unfold State.probe
  split
  · rfl
  · rfl
  · dsimp only
    split
    · split <;> simp only [State.put_ptp, State.putPair_ptp]
    · rfl
@[simp] theorem State.probe_impose (s : State) (p ev m : Nat) : (s.probe p ev m).impose = s.impose := by
  unfold State.probe
  split
  · rfl
  · rfl
  · dsimp only
    split
    · split <;> simp only [State.put_impose, State.putPair_impose]
    · rfl
@[simp] theorem State.probe_drive (s : State) (p ev m : Nat) : (s.probe p ev m).drive = s.drive := by
  unfold State.probe
  split
  · rfl
  · rfl
  · dsimp only
    split
    · split <;> simp only [State.put_drive, State.putPair_drive]
    · rfl
@[simp] theorem State.probe_mem (s : State) (p ev m : Nat) : (s.probe p ev m).mem = s.mem := by
  unfold State.probe
  split
  · rfl
  · rfl
  · dsimp only
    split
    · split <;> simp only [State.put_mem, State.putPair_mem]
    · rfl
@[simp] theorem State.probe_evt (s : State) (p ev m : Nat) : (s.probe p ev m).evt = s.evt := by
  unfold State.probe
  split
  · rfl
  · rfl
  · dsimp only
    split
    · split <;> simp only [State.put_evt, State.putPair_evt]
    · rfl
@[simp] theorem State.probe_fault (s : State) (p ev m : Nat) : (s.probe p ev m).fault = s.fault := by
  unfold State.probe
  split
  · rfl
  · rfl
  · dsimp only
    split
    · split <;> simp only [State.put_fault, State.putPair_fault]
    · rfl
@[simp] theorem State.probe_power (s : State) (p ev m : Nat) : (s.probe p ev m).power = s.power := by
  unfold State.probe
  split
  · rfl
  · rfl
  · dsimp only
    split
    · split <;> simp only [State.put_power, State.putPair_power]
    · rfl
@[simp] theorem State.probe_clock (s : State) (p ev m : Nat) : (s.probe p ev m).clock = s.clock := by
  unfold State.probe
  split
  · rfl
  · rfl
  · dsimp only
    split
    · split <;> simp only [State.put_clock, State.putPair_clock]
    · rfl
@[simp] theorem State.probe_frisket (s : State) (p ev m : Nat) : (s.probe p ev m).frisket = s.frisket := by
  unfold State.probe
  split
  · rfl
  · rfl
  · dsimp only
    split
    · split <;> simp only [State.put_frisket, State.putPair_frisket]
    · rfl
@[simp] theorem State.probe_msixFmask (s : State) (p ev m : Nat) : (s.probe p ev m).msixFmask = s.msixFmask := by
  unfold State.probe
  split
  · rfl
  · rfl
  · dsimp only
    split
    · split <;> simp only [State.put_msixFmask, State.putPair_msixFmask]
    · rfl
@[simp] theorem State.probe_noc (s : State) (p ev m : Nat) : (s.probe p ev m).noc = s.noc := by
  unfold State.probe
  split
  · rfl
  · rfl
  · dsimp only
    split
    · split <;> simp only [State.put_noc, State.putPair_noc]
    · rfl
@[simp] theorem State.probe_forme (s : State) (p ev m : Nat) : (s.probe p ev m).forme = s.forme := by
  unfold State.probe
  split
  · rfl
  · rfl
  · dsimp only
    split
    · split <;> simp only [State.put_forme, State.putPair_forme]
    · rfl
@[simp] theorem State.probe_seq (s : State) (p ev m : Nat) : (s.probe p ev m).seq = s.seq := by
  unfold State.probe
  split
  · rfl
  · rfl
  · dsimp only
    split
    · split <;> simp only [State.put_seq, State.putPair_seq]
    · rfl
@[simp] theorem State.probe_cstore (s : State) (p ev m : Nat) : (s.probe p ev m).cstore = s.cstore := by
  unfold State.probe
  split
  · rfl
  · rfl
  · dsimp only
    split
    · split <;> simp only [State.put_cstore, State.putPair_cstore]
    · rfl
@[simp] theorem State.probe_comp (s : State) (p ev m : Nat) : (s.probe p ev m).comp = s.comp := by
  unfold State.probe
  split
  · rfl
  · rfl
  · dsimp only
    split
    · split <;> simp only [State.put_comp, State.putPair_comp]
    · rfl
@[simp] theorem State.probe_cores (s : State) (p ev m : Nat) : (s.probe p ev m).cores = s.cores := by
  unfold State.probe
  split
  · rfl
  · rfl
  · dsimp only
    split
    · split <;> simp only [State.put_cores, State.putPair_cores]
    · rfl
@[simp] theorem State.probe_webs (s : State) (p ev m : Nat) : (s.probe p ev m).webs = s.webs := by
  unfold State.probe
  split
  · rfl
  · rfl
  · dsimp only
    split
    · split <;> simp only [State.put_webs, State.putPair_webs]
    · rfl
@[simp] theorem State.probe_jobs (s : State) (p ev m : Nat) : (s.probe p ev m).jobs = s.jobs := by
  unfold State.probe
  split
  · rfl
  · rfl
  · dsimp only
    split
    · split <;> simp only [State.put_jobs, State.putPair_jobs]
    · rfl
@[simp] theorem State.probe_sp (s : State) (p ev m : Nat) : (s.probe p ev m).sp = s.sp := by
  unfold State.probe
  split
  · rfl
  · rfl
  · dsimp only
    split
    · split <;> simp only [State.put_sp, State.putPair_sp]
    · rfl
@[simp] theorem State.probe_host (s : State) (p ev m : Nat) : (s.probe p ev m).host = s.host := by
  unfold State.probe
  split
  · rfl
  · rfl
  · dsimp only
    split
    · split <;> simp only [State.put_host, State.putPair_host]
    · rfl
@[simp] theorem State.probe_log (s : State) (p ev m : Nat) : (s.probe p ev m).log = s.log := by
  unfold State.probe
  split
  · rfl
  · rfl
  · dsimp only
    split
    · split <;> simp only [State.put_log, State.putPair_log]
    · rfl
@[simp] theorem State.probe_colo (s : State) (p ev m : Nat) : (s.probe p ev m).colo = s.colo := by
  unfold State.probe
  split
  · rfl
  · rfl
  · dsimp only
    split
    · split <;> simp only [State.put_colo, State.putPair_colo]
    · rfl
@[simp] theorem State.probe_device (s : State) (p ev m : Nat) : (s.probe p ev m).device = s.device := by
  unfold State.probe
  split
  · rfl
  · rfl
  · dsimp only
    split
    · split <;> simp only [State.put_device, State.putPair_device]
    · rfl

@[simp] theorem State.event_pending (s : State) (p k : Nat) : (s.event p k).pending = s.pending := by
  unfold State.event
  dsimp only
  split <;> simp only [State.raisePacket_pending, State.probe_pending, State.put_pending]
@[simp] theorem State.event_out (s : State) (p k : Nat) : (s.event p k).out = s.out := by
  unfold State.event
  dsimp only
  split <;> simp only [State.raisePacket_out, State.probe_out, State.put_out]
@[simp] theorem State.event_caps (s : State) (p k : Nat) : (s.event p k).caps = s.caps := by
  unfold State.event
  dsimp only
  split <;> simp only [State.raisePacket_caps, State.probe_caps, State.put_caps]
@[simp] theorem State.event_mono (s : State) (p k : Nat) : (s.event p k).mono = s.mono := by
  unfold State.event
  dsimp only
  split <;> simp only [State.raisePacket_mono, State.probe_mono, State.put_mono]
@[simp] theorem State.event_dev (s : State) (p k : Nat) : (s.event p k).dev = s.dev := by
  unfold State.event
  dsimp only
  split <;> simp only [State.raisePacket_dev, State.probe_dev, State.put_dev]
@[simp] theorem State.event_free (s : State) (p k : Nat) : (s.event p k).free = s.free := by
  unfold State.event
  dsimp only
  split <;> simp only [State.raisePacket_free, State.probe_free, State.put_free]
@[simp] theorem State.event_feed (s : State) (p k : Nat) : (s.event p k).feed = s.feed := by
  unfold State.event
  dsimp only
  split <;> simp only [State.raisePacket_feed, State.probe_feed, State.put_feed]
@[simp] theorem State.event_ptp (s : State) (p k : Nat) : (s.event p k).ptp = s.ptp := by
  unfold State.event
  dsimp only
  split <;> simp only [State.raisePacket_ptp, State.probe_ptp, State.put_ptp]
@[simp] theorem State.event_impose (s : State) (p k : Nat) : (s.event p k).impose = s.impose := by
  unfold State.event
  dsimp only
  split <;> simp only [State.raisePacket_impose, State.probe_impose, State.put_impose]
@[simp] theorem State.event_drive (s : State) (p k : Nat) : (s.event p k).drive = s.drive := by
  unfold State.event
  dsimp only
  split <;> simp only [State.raisePacket_drive, State.probe_drive, State.put_drive]
@[simp] theorem State.event_mem (s : State) (p k : Nat) : (s.event p k).mem = s.mem := by
  unfold State.event
  dsimp only
  split <;> simp only [State.raisePacket_mem, State.probe_mem, State.put_mem]
@[simp] theorem State.event_fault (s : State) (p k : Nat) : (s.event p k).fault = s.fault := by
  unfold State.event
  dsimp only
  split <;> simp only [State.raisePacket_fault, State.probe_fault, State.put_fault]
@[simp] theorem State.event_power (s : State) (p k : Nat) : (s.event p k).power = s.power := by
  unfold State.event
  dsimp only
  split <;> simp only [State.raisePacket_power, State.probe_power, State.put_power]
@[simp] theorem State.event_clock (s : State) (p k : Nat) : (s.event p k).clock = s.clock := by
  unfold State.event
  dsimp only
  split <;> simp only [State.raisePacket_clock, State.probe_clock, State.put_clock]
@[simp] theorem State.event_frisket (s : State) (p k : Nat) : (s.event p k).frisket = s.frisket := by
  unfold State.event
  dsimp only
  split <;> simp only [State.raisePacket_frisket, State.probe_frisket, State.put_frisket]
@[simp] theorem State.event_msixFmask (s : State) (p k : Nat) : (s.event p k).msixFmask = s.msixFmask := by
  unfold State.event
  dsimp only
  split <;> simp only [State.raisePacket_msixFmask, State.probe_msixFmask, State.put_msixFmask]
@[simp] theorem State.event_noc (s : State) (p k : Nat) : (s.event p k).noc = s.noc := by
  unfold State.event
  dsimp only
  split <;> simp only [State.raisePacket_noc, State.probe_noc, State.put_noc]
@[simp] theorem State.event_forme (s : State) (p k : Nat) : (s.event p k).forme = s.forme := by
  unfold State.event
  dsimp only
  split <;> simp only [State.raisePacket_forme, State.probe_forme, State.put_forme]
@[simp] theorem State.event_seq (s : State) (p k : Nat) : (s.event p k).seq = s.seq := by
  unfold State.event
  dsimp only
  split <;> simp only [State.raisePacket_seq, State.probe_seq, State.put_seq]
@[simp] theorem State.event_cstore (s : State) (p k : Nat) : (s.event p k).cstore = s.cstore := by
  unfold State.event
  dsimp only
  split <;> simp only [State.raisePacket_cstore, State.probe_cstore, State.put_cstore]
@[simp] theorem State.event_comp (s : State) (p k : Nat) : (s.event p k).comp = s.comp := by
  unfold State.event
  dsimp only
  split <;> simp only [State.raisePacket_comp, State.probe_comp, State.put_comp]
@[simp] theorem State.event_cores (s : State) (p k : Nat) : (s.event p k).cores = s.cores := by
  unfold State.event
  dsimp only
  split <;> simp only [State.raisePacket_cores, State.probe_cores, State.put_cores]
@[simp] theorem State.event_webs (s : State) (p k : Nat) : (s.event p k).webs = s.webs := by
  unfold State.event
  dsimp only
  split <;> simp only [State.raisePacket_webs, State.probe_webs, State.put_webs]
@[simp] theorem State.event_jobs (s : State) (p k : Nat) : (s.event p k).jobs = s.jobs := by
  unfold State.event
  dsimp only
  split <;> simp only [State.raisePacket_jobs, State.probe_jobs, State.put_jobs]
@[simp] theorem State.event_sp (s : State) (p k : Nat) : (s.event p k).sp = s.sp := by
  unfold State.event
  dsimp only
  split <;> simp only [State.raisePacket_sp, State.probe_sp, State.put_sp]
@[simp] theorem State.event_host (s : State) (p k : Nat) : (s.event p k).host = s.host := by
  unfold State.event
  dsimp only
  split <;> simp only [State.raisePacket_host, State.probe_host, State.put_host]
@[simp] theorem State.event_log (s : State) (p k : Nat) : (s.event p k).log = s.log := by
  unfold State.event
  dsimp only
  split <;> simp only [State.raisePacket_log, State.probe_log, State.put_log]
@[simp] theorem State.event_colo (s : State) (p k : Nat) : (s.event p k).colo = s.colo := by
  unfold State.event
  dsimp only
  split <;> simp only [State.raisePacket_colo, State.probe_colo, State.put_colo]
@[simp] theorem State.event_device (s : State) (p k : Nat) : (s.event p k).device = s.device := by
  unfold State.event
  dsimp only
  split <;> simp only [State.raisePacket_device, State.probe_device, State.put_device]

@[simp] theorem State.satEvent_pending (s : State) (p : Nat) : (s.satEvent p).pending = s.pending := by
  unfold State.satEvent
  split
  · split
    · exact State.event_pending _ _ _
    · rfl
  · rfl
@[simp] theorem State.satEvent_out (s : State) (p : Nat) : (s.satEvent p).out = s.out := by
  unfold State.satEvent
  split
  · split
    · exact State.event_out _ _ _
    · rfl
  · rfl
@[simp] theorem State.satEvent_caps (s : State) (p : Nat) : (s.satEvent p).caps = s.caps := by
  unfold State.satEvent
  split
  · split
    · exact State.event_caps _ _ _
    · rfl
  · rfl
@[simp] theorem State.satEvent_mono (s : State) (p : Nat) : (s.satEvent p).mono = s.mono := by
  unfold State.satEvent
  split
  · split
    · exact State.event_mono _ _ _
    · rfl
  · rfl
@[simp] theorem State.satEvent_dev (s : State) (p : Nat) : (s.satEvent p).dev = s.dev := by
  unfold State.satEvent
  split
  · split
    · exact State.event_dev _ _ _
    · rfl
  · rfl
@[simp] theorem State.satEvent_free (s : State) (p : Nat) : (s.satEvent p).free = s.free := by
  unfold State.satEvent
  split
  · split
    · exact State.event_free _ _ _
    · rfl
  · rfl
@[simp] theorem State.satEvent_feed (s : State) (p : Nat) : (s.satEvent p).feed = s.feed := by
  unfold State.satEvent
  split
  · split
    · exact State.event_feed _ _ _
    · rfl
  · rfl
@[simp] theorem State.satEvent_ptp (s : State) (p : Nat) : (s.satEvent p).ptp = s.ptp := by
  unfold State.satEvent
  split
  · split
    · exact State.event_ptp _ _ _
    · rfl
  · rfl
@[simp] theorem State.satEvent_impose (s : State) (p : Nat) : (s.satEvent p).impose = s.impose := by
  unfold State.satEvent
  split
  · split
    · exact State.event_impose _ _ _
    · rfl
  · rfl
@[simp] theorem State.satEvent_drive (s : State) (p : Nat) : (s.satEvent p).drive = s.drive := by
  unfold State.satEvent
  split
  · split
    · exact State.event_drive _ _ _
    · rfl
  · rfl
@[simp] theorem State.satEvent_mem (s : State) (p : Nat) : (s.satEvent p).mem = s.mem := by
  unfold State.satEvent
  split
  · split
    · exact State.event_mem _ _ _
    · rfl
  · rfl
@[simp] theorem State.satEvent_fault (s : State) (p : Nat) : (s.satEvent p).fault = s.fault := by
  unfold State.satEvent
  split
  · split
    · exact State.event_fault _ _ _
    · rfl
  · rfl
@[simp] theorem State.satEvent_power (s : State) (p : Nat) : (s.satEvent p).power = s.power := by
  unfold State.satEvent
  split
  · split
    · exact State.event_power _ _ _
    · rfl
  · rfl
@[simp] theorem State.satEvent_clock (s : State) (p : Nat) : (s.satEvent p).clock = s.clock := by
  unfold State.satEvent
  split
  · split
    · exact State.event_clock _ _ _
    · rfl
  · rfl
@[simp] theorem State.satEvent_frisket (s : State) (p : Nat) : (s.satEvent p).frisket = s.frisket := by
  unfold State.satEvent
  split
  · split
    · exact State.event_frisket _ _ _
    · rfl
  · rfl
@[simp] theorem State.satEvent_msixFmask (s : State) (p : Nat) : (s.satEvent p).msixFmask = s.msixFmask := by
  unfold State.satEvent
  split
  · split
    · exact State.event_msixFmask _ _ _
    · rfl
  · rfl
@[simp] theorem State.satEvent_noc (s : State) (p : Nat) : (s.satEvent p).noc = s.noc := by
  unfold State.satEvent
  split
  · split
    · exact State.event_noc _ _ _
    · rfl
  · rfl
@[simp] theorem State.satEvent_forme (s : State) (p : Nat) : (s.satEvent p).forme = s.forme := by
  unfold State.satEvent
  split
  · split
    · exact State.event_forme _ _ _
    · rfl
  · rfl
@[simp] theorem State.satEvent_seq (s : State) (p : Nat) : (s.satEvent p).seq = s.seq := by
  unfold State.satEvent
  split
  · split
    · exact State.event_seq _ _ _
    · rfl
  · rfl
@[simp] theorem State.satEvent_cstore (s : State) (p : Nat) : (s.satEvent p).cstore = s.cstore := by
  unfold State.satEvent
  split
  · split
    · exact State.event_cstore _ _ _
    · rfl
  · rfl
@[simp] theorem State.satEvent_comp (s : State) (p : Nat) : (s.satEvent p).comp = s.comp := by
  unfold State.satEvent
  split
  · split
    · exact State.event_comp _ _ _
    · rfl
  · rfl
@[simp] theorem State.satEvent_cores (s : State) (p : Nat) : (s.satEvent p).cores = s.cores := by
  unfold State.satEvent
  split
  · split
    · exact State.event_cores _ _ _
    · rfl
  · rfl
@[simp] theorem State.satEvent_webs (s : State) (p : Nat) : (s.satEvent p).webs = s.webs := by
  unfold State.satEvent
  split
  · split
    · exact State.event_webs _ _ _
    · rfl
  · rfl
@[simp] theorem State.satEvent_jobs (s : State) (p : Nat) : (s.satEvent p).jobs = s.jobs := by
  unfold State.satEvent
  split
  · split
    · exact State.event_jobs _ _ _
    · rfl
  · rfl
@[simp] theorem State.satEvent_sp (s : State) (p : Nat) : (s.satEvent p).sp = s.sp := by
  unfold State.satEvent
  split
  · split
    · exact State.event_sp _ _ _
    · rfl
  · rfl
@[simp] theorem State.satEvent_host (s : State) (p : Nat) : (s.satEvent p).host = s.host := by
  unfold State.satEvent
  split
  · split
    · exact State.event_host _ _ _
    · rfl
  · rfl
@[simp] theorem State.satEvent_log (s : State) (p : Nat) : (s.satEvent p).log = s.log := by
  unfold State.satEvent
  split
  · split
    · exact State.event_log _ _ _
    · rfl
  · rfl
@[simp] theorem State.satEvent_colo (s : State) (p : Nat) : (s.satEvent p).colo = s.colo := by
  unfold State.satEvent
  split
  · split
    · exact State.event_colo _ _ _
    · rfl
  · rfl
@[simp] theorem State.satEvent_device (s : State) (p : Nat) : (s.satEvent p).device = s.device := by
  unfold State.satEvent
  split
  · split
    · exact State.event_device _ _ _
    · rfl
  · rfl

@[simp] theorem State.count_pending (s : State) (p : Nat) (f : Fld) (n i : Nat) : (s.count p f n i).pending = s.pending := by
  unfold State.count
  dsimp only
  split <;> simp only [State.satEvent_pending, State.put_pending]
@[simp] theorem State.count_out (s : State) (p : Nat) (f : Fld) (n i : Nat) : (s.count p f n i).out = s.out := by
  unfold State.count
  dsimp only
  split <;> simp only [State.satEvent_out, State.put_out]
@[simp] theorem State.count_caps (s : State) (p : Nat) (f : Fld) (n i : Nat) : (s.count p f n i).caps = s.caps := by
  unfold State.count
  dsimp only
  split <;> simp only [State.satEvent_caps, State.put_caps]
@[simp] theorem State.count_mono (s : State) (p : Nat) (f : Fld) (n i : Nat) : (s.count p f n i).mono = s.mono := by
  unfold State.count
  dsimp only
  split <;> simp only [State.satEvent_mono, State.put_mono]
@[simp] theorem State.count_dev (s : State) (p : Nat) (f : Fld) (n i : Nat) : (s.count p f n i).dev = s.dev := by
  unfold State.count
  dsimp only
  split <;> simp only [State.satEvent_dev, State.put_dev]
@[simp] theorem State.count_free (s : State) (p : Nat) (f : Fld) (n i : Nat) : (s.count p f n i).free = s.free := by
  unfold State.count
  dsimp only
  split <;> simp only [State.satEvent_free, State.put_free]
@[simp] theorem State.count_feed (s : State) (p : Nat) (f : Fld) (n i : Nat) : (s.count p f n i).feed = s.feed := by
  unfold State.count
  dsimp only
  split <;> simp only [State.satEvent_feed, State.put_feed]
@[simp] theorem State.count_ptp (s : State) (p : Nat) (f : Fld) (n i : Nat) : (s.count p f n i).ptp = s.ptp := by
  unfold State.count
  dsimp only
  split <;> simp only [State.satEvent_ptp, State.put_ptp]
@[simp] theorem State.count_impose (s : State) (p : Nat) (f : Fld) (n i : Nat) : (s.count p f n i).impose = s.impose := by
  unfold State.count
  dsimp only
  split <;> simp only [State.satEvent_impose, State.put_impose]
@[simp] theorem State.count_drive (s : State) (p : Nat) (f : Fld) (n i : Nat) : (s.count p f n i).drive = s.drive := by
  unfold State.count
  dsimp only
  split <;> simp only [State.satEvent_drive, State.put_drive]
@[simp] theorem State.count_mem (s : State) (p : Nat) (f : Fld) (n i : Nat) : (s.count p f n i).mem = s.mem := by
  unfold State.count
  dsimp only
  split <;> simp only [State.satEvent_mem, State.put_mem]
@[simp] theorem State.count_fault (s : State) (p : Nat) (f : Fld) (n i : Nat) : (s.count p f n i).fault = s.fault := by
  unfold State.count
  dsimp only
  split <;> simp only [State.satEvent_fault, State.put_fault]
@[simp] theorem State.count_power (s : State) (p : Nat) (f : Fld) (n i : Nat) : (s.count p f n i).power = s.power := by
  unfold State.count
  dsimp only
  split <;> simp only [State.satEvent_power, State.put_power]
@[simp] theorem State.count_clock (s : State) (p : Nat) (f : Fld) (n i : Nat) : (s.count p f n i).clock = s.clock := by
  unfold State.count
  dsimp only
  split <;> simp only [State.satEvent_clock, State.put_clock]
@[simp] theorem State.count_frisket (s : State) (p : Nat) (f : Fld) (n i : Nat) : (s.count p f n i).frisket = s.frisket := by
  unfold State.count
  dsimp only
  split <;> simp only [State.satEvent_frisket, State.put_frisket]
@[simp] theorem State.count_msixFmask (s : State) (p : Nat) (f : Fld) (n i : Nat) : (s.count p f n i).msixFmask = s.msixFmask := by
  unfold State.count
  dsimp only
  split <;> simp only [State.satEvent_msixFmask, State.put_msixFmask]
@[simp] theorem State.count_noc (s : State) (p : Nat) (f : Fld) (n i : Nat) : (s.count p f n i).noc = s.noc := by
  unfold State.count
  dsimp only
  split <;> simp only [State.satEvent_noc, State.put_noc]
@[simp] theorem State.count_forme (s : State) (p : Nat) (f : Fld) (n i : Nat) : (s.count p f n i).forme = s.forme := by
  unfold State.count
  dsimp only
  split <;> simp only [State.satEvent_forme, State.put_forme]
@[simp] theorem State.count_seq (s : State) (p : Nat) (f : Fld) (n i : Nat) : (s.count p f n i).seq = s.seq := by
  unfold State.count
  dsimp only
  split <;> simp only [State.satEvent_seq, State.put_seq]
@[simp] theorem State.count_cstore (s : State) (p : Nat) (f : Fld) (n i : Nat) : (s.count p f n i).cstore = s.cstore := by
  unfold State.count
  dsimp only
  split <;> simp only [State.satEvent_cstore, State.put_cstore]
@[simp] theorem State.count_comp (s : State) (p : Nat) (f : Fld) (n i : Nat) : (s.count p f n i).comp = s.comp := by
  unfold State.count
  dsimp only
  split <;> simp only [State.satEvent_comp, State.put_comp]
@[simp] theorem State.count_cores (s : State) (p : Nat) (f : Fld) (n i : Nat) : (s.count p f n i).cores = s.cores := by
  unfold State.count
  dsimp only
  split <;> simp only [State.satEvent_cores, State.put_cores]
@[simp] theorem State.count_webs (s : State) (p : Nat) (f : Fld) (n i : Nat) : (s.count p f n i).webs = s.webs := by
  unfold State.count
  dsimp only
  split <;> simp only [State.satEvent_webs, State.put_webs]
@[simp] theorem State.count_jobs (s : State) (p : Nat) (f : Fld) (n i : Nat) : (s.count p f n i).jobs = s.jobs := by
  unfold State.count
  dsimp only
  split <;> simp only [State.satEvent_jobs, State.put_jobs]
@[simp] theorem State.count_sp (s : State) (p : Nat) (f : Fld) (n i : Nat) : (s.count p f n i).sp = s.sp := by
  unfold State.count
  dsimp only
  split <;> simp only [State.satEvent_sp, State.put_sp]
@[simp] theorem State.count_host (s : State) (p : Nat) (f : Fld) (n i : Nat) : (s.count p f n i).host = s.host := by
  unfold State.count
  dsimp only
  split <;> simp only [State.satEvent_host, State.put_host]
@[simp] theorem State.count_log (s : State) (p : Nat) (f : Fld) (n i : Nat) : (s.count p f n i).log = s.log := by
  unfold State.count
  dsimp only
  split <;> simp only [State.satEvent_log, State.put_log]
@[simp] theorem State.count_colo (s : State) (p : Nat) (f : Fld) (n i : Nat) : (s.count p f n i).colo = s.colo := by
  unfold State.count
  dsimp only
  split <;> simp only [State.satEvent_colo, State.put_colo]
@[simp] theorem State.count_device (s : State) (p : Nat) (f : Fld) (n i : Nat) : (s.count p f n i).device = s.device := by
  unfold State.count
  dsimp only
  split <;> simp only [State.satEvent_device, State.put_device]

@[simp] theorem State.ignored_pending (s : State) (p off : Nat) (r : Reason) : (s.ignored p off r).pending = s.pending := by
  simp only [State.ignored, State.probe_pending, State.put_pending]
@[simp] theorem State.ignored_out (s : State) (p off : Nat) (r : Reason) : (s.ignored p off r).out = s.out := by
  simp only [State.ignored, State.probe_out, State.put_out]
@[simp] theorem State.ignored_caps (s : State) (p off : Nat) (r : Reason) : (s.ignored p off r).caps = s.caps := by
  simp only [State.ignored, State.probe_caps, State.put_caps]
@[simp] theorem State.ignored_mono (s : State) (p off : Nat) (r : Reason) : (s.ignored p off r).mono = s.mono := by
  simp only [State.ignored, State.probe_mono, State.put_mono]
@[simp] theorem State.ignored_dev (s : State) (p off : Nat) (r : Reason) : (s.ignored p off r).dev = s.dev := by
  simp only [State.ignored, State.probe_dev, State.put_dev]
@[simp] theorem State.ignored_free (s : State) (p off : Nat) (r : Reason) : (s.ignored p off r).free = s.free := by
  simp only [State.ignored, State.probe_free, State.put_free]
@[simp] theorem State.ignored_feed (s : State) (p off : Nat) (r : Reason) : (s.ignored p off r).feed = s.feed := by
  simp only [State.ignored, State.probe_feed, State.put_feed]
@[simp] theorem State.ignored_ptp (s : State) (p off : Nat) (r : Reason) : (s.ignored p off r).ptp = s.ptp := by
  simp only [State.ignored, State.probe_ptp, State.put_ptp]
@[simp] theorem State.ignored_impose (s : State) (p off : Nat) (r : Reason) : (s.ignored p off r).impose = s.impose := by
  simp only [State.ignored, State.probe_impose, State.put_impose]
@[simp] theorem State.ignored_drive (s : State) (p off : Nat) (r : Reason) : (s.ignored p off r).drive = s.drive := by
  simp only [State.ignored, State.probe_drive, State.put_drive]
@[simp] theorem State.ignored_mem (s : State) (p off : Nat) (r : Reason) : (s.ignored p off r).mem = s.mem := by
  simp only [State.ignored, State.probe_mem, State.put_mem]
@[simp] theorem State.ignored_evt (s : State) (p off : Nat) (r : Reason) : (s.ignored p off r).evt = s.evt := by
  simp only [State.ignored, State.probe_evt, State.put_evt]
@[simp] theorem State.ignored_fault (s : State) (p off : Nat) (r : Reason) : (s.ignored p off r).fault = s.fault := by
  simp only [State.ignored, State.probe_fault, State.put_fault]
@[simp] theorem State.ignored_power (s : State) (p off : Nat) (r : Reason) : (s.ignored p off r).power = s.power := by
  simp only [State.ignored, State.probe_power, State.put_power]
@[simp] theorem State.ignored_clock (s : State) (p off : Nat) (r : Reason) : (s.ignored p off r).clock = s.clock := by
  simp only [State.ignored, State.probe_clock, State.put_clock]
@[simp] theorem State.ignored_frisket (s : State) (p off : Nat) (r : Reason) : (s.ignored p off r).frisket = s.frisket := by
  simp only [State.ignored, State.probe_frisket, State.put_frisket]
@[simp] theorem State.ignored_msixFmask (s : State) (p off : Nat) (r : Reason) : (s.ignored p off r).msixFmask = s.msixFmask := by
  simp only [State.ignored, State.probe_msixFmask, State.put_msixFmask]
@[simp] theorem State.ignored_noc (s : State) (p off : Nat) (r : Reason) : (s.ignored p off r).noc = s.noc := by
  simp only [State.ignored, State.probe_noc, State.put_noc]
@[simp] theorem State.ignored_forme (s : State) (p off : Nat) (r : Reason) : (s.ignored p off r).forme = s.forme := by
  simp only [State.ignored, State.probe_forme, State.put_forme]
@[simp] theorem State.ignored_seq (s : State) (p off : Nat) (r : Reason) : (s.ignored p off r).seq = s.seq := by
  simp only [State.ignored, State.probe_seq, State.put_seq]
@[simp] theorem State.ignored_cstore (s : State) (p off : Nat) (r : Reason) : (s.ignored p off r).cstore = s.cstore := by
  simp only [State.ignored, State.probe_cstore, State.put_cstore]
@[simp] theorem State.ignored_comp (s : State) (p off : Nat) (r : Reason) : (s.ignored p off r).comp = s.comp := by
  simp only [State.ignored, State.probe_comp, State.put_comp]
@[simp] theorem State.ignored_cores (s : State) (p off : Nat) (r : Reason) : (s.ignored p off r).cores = s.cores := by
  simp only [State.ignored, State.probe_cores, State.put_cores]
@[simp] theorem State.ignored_webs (s : State) (p off : Nat) (r : Reason) : (s.ignored p off r).webs = s.webs := by
  simp only [State.ignored, State.probe_webs, State.put_webs]
@[simp] theorem State.ignored_jobs (s : State) (p off : Nat) (r : Reason) : (s.ignored p off r).jobs = s.jobs := by
  simp only [State.ignored, State.probe_jobs, State.put_jobs]
@[simp] theorem State.ignored_sp (s : State) (p off : Nat) (r : Reason) : (s.ignored p off r).sp = s.sp := by
  simp only [State.ignored, State.probe_sp, State.put_sp]
@[simp] theorem State.ignored_host (s : State) (p off : Nat) (r : Reason) : (s.ignored p off r).host = s.host := by
  simp only [State.ignored, State.probe_host, State.put_host]
@[simp] theorem State.ignored_log (s : State) (p off : Nat) (r : Reason) : (s.ignored p off r).log = s.log := by
  simp only [State.ignored, State.probe_log, State.put_log]
@[simp] theorem State.ignored_colo (s : State) (p off : Nat) (r : Reason) : (s.ignored p off r).colo = s.colo := by
  simp only [State.ignored, State.probe_colo, State.put_colo]
@[simp] theorem State.ignored_device (s : State) (p off : Nat) (r : Reason) : (s.ignored p off r).device = s.device := by
  simp only [State.ignored, State.probe_device, State.put_device]

@[simp] theorem State.refuseAddress_pending (s : State) (m a : Nat) (w : Bool) : (s.refuseAddress m a w).pending = s.pending := by
  simp only [State.refuseAddress, State.report_pending]
@[simp] theorem State.refuseAddress_out (s : State) (m a : Nat) (w : Bool) : (s.refuseAddress m a w).out = s.out := by
  simp only [State.refuseAddress, State.report_out]
@[simp] theorem State.refuseAddress_caps (s : State) (m a : Nat) (w : Bool) : (s.refuseAddress m a w).caps = s.caps := by
  simp only [State.refuseAddress, State.report_caps]
@[simp] theorem State.refuseAddress_mono (s : State) (m a : Nat) (w : Bool) : (s.refuseAddress m a w).mono = s.mono := by
  simp only [State.refuseAddress, State.report_mono]
@[simp] theorem State.refuseAddress_dev (s : State) (m a : Nat) (w : Bool) : (s.refuseAddress m a w).dev = s.dev := by
  simp only [State.refuseAddress, State.report_dev]
@[simp] theorem State.refuseAddress_free (s : State) (m a : Nat) (w : Bool) : (s.refuseAddress m a w).free = s.free := by
  simp only [State.refuseAddress, State.report_free]
@[simp] theorem State.refuseAddress_feed (s : State) (m a : Nat) (w : Bool) : (s.refuseAddress m a w).feed = s.feed := by
  simp only [State.refuseAddress, State.report_feed]
@[simp] theorem State.refuseAddress_ptp (s : State) (m a : Nat) (w : Bool) : (s.refuseAddress m a w).ptp = s.ptp := by
  simp only [State.refuseAddress, State.report_ptp]
@[simp] theorem State.refuseAddress_impose (s : State) (m a : Nat) (w : Bool) : (s.refuseAddress m a w).impose = s.impose := by
  simp only [State.refuseAddress, State.report_impose]
@[simp] theorem State.refuseAddress_drive (s : State) (m a : Nat) (w : Bool) : (s.refuseAddress m a w).drive = s.drive := by
  simp only [State.refuseAddress, State.report_drive]
@[simp] theorem State.refuseAddress_mem (s : State) (m a : Nat) (w : Bool) : (s.refuseAddress m a w).mem = s.mem := by
  simp only [State.refuseAddress, State.report_mem]
@[simp] theorem State.refuseAddress_evt (s : State) (m a : Nat) (w : Bool) : (s.refuseAddress m a w).evt = s.evt := by
  simp only [State.refuseAddress, State.report_evt]
@[simp] theorem State.refuseAddress_power (s : State) (m a : Nat) (w : Bool) : (s.refuseAddress m a w).power = s.power := by
  simp only [State.refuseAddress, State.report_power]
@[simp] theorem State.refuseAddress_clock (s : State) (m a : Nat) (w : Bool) : (s.refuseAddress m a w).clock = s.clock := by
  simp only [State.refuseAddress, State.report_clock]
@[simp] theorem State.refuseAddress_frisket (s : State) (m a : Nat) (w : Bool) : (s.refuseAddress m a w).frisket = s.frisket := by
  simp only [State.refuseAddress, State.report_frisket]
@[simp] theorem State.refuseAddress_msixFmask (s : State) (m a : Nat) (w : Bool) : (s.refuseAddress m a w).msixFmask = s.msixFmask := by
  simp only [State.refuseAddress, State.report_msixFmask]
@[simp] theorem State.refuseAddress_noc (s : State) (m a : Nat) (w : Bool) : (s.refuseAddress m a w).noc = s.noc := by
  simp only [State.refuseAddress, State.report_noc]
@[simp] theorem State.refuseAddress_forme (s : State) (m a : Nat) (w : Bool) : (s.refuseAddress m a w).forme = s.forme := by
  simp only [State.refuseAddress, State.report_forme]
@[simp] theorem State.refuseAddress_seq (s : State) (m a : Nat) (w : Bool) : (s.refuseAddress m a w).seq = s.seq := by
  simp only [State.refuseAddress, State.report_seq]
@[simp] theorem State.refuseAddress_cstore (s : State) (m a : Nat) (w : Bool) : (s.refuseAddress m a w).cstore = s.cstore := by
  simp only [State.refuseAddress, State.report_cstore]
@[simp] theorem State.refuseAddress_comp (s : State) (m a : Nat) (w : Bool) : (s.refuseAddress m a w).comp = s.comp := by
  simp only [State.refuseAddress, State.report_comp]
@[simp] theorem State.refuseAddress_cores (s : State) (m a : Nat) (w : Bool) : (s.refuseAddress m a w).cores = s.cores := by
  simp only [State.refuseAddress, State.report_cores]
@[simp] theorem State.refuseAddress_webs (s : State) (m a : Nat) (w : Bool) : (s.refuseAddress m a w).webs = s.webs := by
  simp only [State.refuseAddress, State.report_webs]
@[simp] theorem State.refuseAddress_jobs (s : State) (m a : Nat) (w : Bool) : (s.refuseAddress m a w).jobs = s.jobs := by
  simp only [State.refuseAddress, State.report_jobs]
@[simp] theorem State.refuseAddress_sp (s : State) (m a : Nat) (w : Bool) : (s.refuseAddress m a w).sp = s.sp := by
  simp only [State.refuseAddress, State.report_sp]
@[simp] theorem State.refuseAddress_host (s : State) (m a : Nat) (w : Bool) : (s.refuseAddress m a w).host = s.host := by
  simp only [State.refuseAddress, State.report_host]
@[simp] theorem State.refuseAddress_log (s : State) (m a : Nat) (w : Bool) : (s.refuseAddress m a w).log = s.log := by
  simp only [State.refuseAddress, State.report_log]
@[simp] theorem State.refuseAddress_colo (s : State) (m a : Nat) (w : Bool) : (s.refuseAddress m a w).colo = s.colo := by
  simp only [State.refuseAddress, State.report_colo]
@[simp] theorem State.refuseAddress_device (s : State) (m a : Nat) (w : Bool) : (s.refuseAddress m a w).device = s.device := by
  simp only [State.refuseAddress, State.report_device]

@[simp] theorem State.refuseRegion_pending (s : State) (m a : Nat) (w : Bool) : (s.refuseRegion m a w).pending = s.pending := by
  simp only [State.refuseRegion, State.event_pending, State.put_pending, State.count_pending, State.report_pending]
@[simp] theorem State.refuseRegion_out (s : State) (m a : Nat) (w : Bool) : (s.refuseRegion m a w).out = s.out := by
  simp only [State.refuseRegion, State.event_out, State.put_out, State.count_out, State.report_out]
@[simp] theorem State.refuseRegion_caps (s : State) (m a : Nat) (w : Bool) : (s.refuseRegion m a w).caps = s.caps := by
  simp only [State.refuseRegion, State.event_caps, State.put_caps, State.count_caps, State.report_caps]
@[simp] theorem State.refuseRegion_mono (s : State) (m a : Nat) (w : Bool) : (s.refuseRegion m a w).mono = s.mono := by
  simp only [State.refuseRegion, State.event_mono, State.put_mono, State.count_mono, State.report_mono]
@[simp] theorem State.refuseRegion_dev (s : State) (m a : Nat) (w : Bool) : (s.refuseRegion m a w).dev = s.dev := by
  simp only [State.refuseRegion, State.event_dev, State.put_dev, State.count_dev, State.report_dev]
@[simp] theorem State.refuseRegion_free (s : State) (m a : Nat) (w : Bool) : (s.refuseRegion m a w).free = s.free := by
  simp only [State.refuseRegion, State.event_free, State.put_free, State.count_free, State.report_free]
@[simp] theorem State.refuseRegion_feed (s : State) (m a : Nat) (w : Bool) : (s.refuseRegion m a w).feed = s.feed := by
  simp only [State.refuseRegion, State.event_feed, State.put_feed, State.count_feed, State.report_feed]
@[simp] theorem State.refuseRegion_ptp (s : State) (m a : Nat) (w : Bool) : (s.refuseRegion m a w).ptp = s.ptp := by
  simp only [State.refuseRegion, State.event_ptp, State.put_ptp, State.count_ptp, State.report_ptp]
@[simp] theorem State.refuseRegion_impose (s : State) (m a : Nat) (w : Bool) : (s.refuseRegion m a w).impose = s.impose := by
  simp only [State.refuseRegion, State.event_impose, State.put_impose, State.count_impose, State.report_impose]
@[simp] theorem State.refuseRegion_drive (s : State) (m a : Nat) (w : Bool) : (s.refuseRegion m a w).drive = s.drive := by
  simp only [State.refuseRegion, State.event_drive, State.put_drive, State.count_drive, State.report_drive]
@[simp] theorem State.refuseRegion_mem (s : State) (m a : Nat) (w : Bool) : (s.refuseRegion m a w).mem = s.mem := by
  simp only [State.refuseRegion, State.event_mem, State.put_mem, State.count_mem, State.report_mem]
@[simp] theorem State.refuseRegion_power (s : State) (m a : Nat) (w : Bool) : (s.refuseRegion m a w).power = s.power := by
  simp only [State.refuseRegion, State.event_power, State.put_power, State.count_power, State.report_power]
@[simp] theorem State.refuseRegion_clock (s : State) (m a : Nat) (w : Bool) : (s.refuseRegion m a w).clock = s.clock := by
  simp only [State.refuseRegion, State.event_clock, State.put_clock, State.count_clock, State.report_clock]
@[simp] theorem State.refuseRegion_frisket (s : State) (m a : Nat) (w : Bool) : (s.refuseRegion m a w).frisket = s.frisket := by
  simp only [State.refuseRegion, State.event_frisket, State.put_frisket, State.count_frisket, State.report_frisket]
@[simp] theorem State.refuseRegion_msixFmask (s : State) (m a : Nat) (w : Bool) : (s.refuseRegion m a w).msixFmask = s.msixFmask := by
  simp only [State.refuseRegion, State.event_msixFmask, State.put_msixFmask, State.count_msixFmask, State.report_msixFmask]
@[simp] theorem State.refuseRegion_noc (s : State) (m a : Nat) (w : Bool) : (s.refuseRegion m a w).noc = s.noc := by
  simp only [State.refuseRegion, State.event_noc, State.put_noc, State.count_noc, State.report_noc]
@[simp] theorem State.refuseRegion_forme (s : State) (m a : Nat) (w : Bool) : (s.refuseRegion m a w).forme = s.forme := by
  simp only [State.refuseRegion, State.event_forme, State.put_forme, State.count_forme, State.report_forme]
@[simp] theorem State.refuseRegion_seq (s : State) (m a : Nat) (w : Bool) : (s.refuseRegion m a w).seq = s.seq := by
  simp only [State.refuseRegion, State.event_seq, State.put_seq, State.count_seq, State.report_seq]
@[simp] theorem State.refuseRegion_cstore (s : State) (m a : Nat) (w : Bool) : (s.refuseRegion m a w).cstore = s.cstore := by
  simp only [State.refuseRegion, State.event_cstore, State.put_cstore, State.count_cstore, State.report_cstore]
@[simp] theorem State.refuseRegion_comp (s : State) (m a : Nat) (w : Bool) : (s.refuseRegion m a w).comp = s.comp := by
  simp only [State.refuseRegion, State.event_comp, State.put_comp, State.count_comp, State.report_comp]
@[simp] theorem State.refuseRegion_cores (s : State) (m a : Nat) (w : Bool) : (s.refuseRegion m a w).cores = s.cores := by
  simp only [State.refuseRegion, State.event_cores, State.put_cores, State.count_cores, State.report_cores]
@[simp] theorem State.refuseRegion_webs (s : State) (m a : Nat) (w : Bool) : (s.refuseRegion m a w).webs = s.webs := by
  simp only [State.refuseRegion, State.event_webs, State.put_webs, State.count_webs, State.report_webs]
@[simp] theorem State.refuseRegion_jobs (s : State) (m a : Nat) (w : Bool) : (s.refuseRegion m a w).jobs = s.jobs := by
  simp only [State.refuseRegion, State.event_jobs, State.put_jobs, State.count_jobs, State.report_jobs]
@[simp] theorem State.refuseRegion_sp (s : State) (m a : Nat) (w : Bool) : (s.refuseRegion m a w).sp = s.sp := by
  simp only [State.refuseRegion, State.event_sp, State.put_sp, State.count_sp, State.report_sp]
@[simp] theorem State.refuseRegion_host (s : State) (m a : Nat) (w : Bool) : (s.refuseRegion m a w).host = s.host := by
  simp only [State.refuseRegion, State.event_host, State.put_host, State.count_host, State.report_host]
@[simp] theorem State.refuseRegion_log (s : State) (m a : Nat) (w : Bool) : (s.refuseRegion m a w).log = s.log := by
  simp only [State.refuseRegion, State.event_log, State.put_log, State.count_log, State.report_log]
@[simp] theorem State.refuseRegion_colo (s : State) (m a : Nat) (w : Bool) : (s.refuseRegion m a w).colo = s.colo := by
  simp only [State.refuseRegion, State.event_colo, State.put_colo, State.count_colo, State.report_colo]
@[simp] theorem State.refuseRegion_device (s : State) (m a : Nat) (w : Bool) : (s.refuseRegion m a w).device = s.device := by
  simp only [State.refuseRegion, State.event_device, State.put_device, State.count_device, State.report_device]

@[simp] theorem State.setByte_pending (s : State) (a : Nat) (b : Byte) : (s.setByte a b).pending = s.pending := by
  unfold State.setByte; split <;> rfl
@[simp] theorem State.setByte_out (s : State) (a : Nat) (b : Byte) : (s.setByte a b).out = s.out := by
  unfold State.setByte; split <;> rfl
@[simp] theorem State.setByte_regs (s : State) (a : Nat) (b : Byte) : (s.setByte a b).regs = s.regs := by
  unfold State.setByte; split <;> rfl
@[simp] theorem State.setByte_caps (s : State) (a : Nat) (b : Byte) : (s.setByte a b).caps = s.caps := by
  unfold State.setByte; split <;> rfl
@[simp] theorem State.setByte_mono (s : State) (a : Nat) (b : Byte) : (s.setByte a b).mono = s.mono := by
  unfold State.setByte; split <;> rfl
@[simp] theorem State.setByte_dev (s : State) (a : Nat) (b : Byte) : (s.setByte a b).dev = s.dev := by
  unfold State.setByte; split <;> rfl
@[simp] theorem State.setByte_free (s : State) (a : Nat) (b : Byte) : (s.setByte a b).free = s.free := by
  unfold State.setByte; split <;> rfl
@[simp] theorem State.setByte_feed (s : State) (a : Nat) (b : Byte) : (s.setByte a b).feed = s.feed := by
  unfold State.setByte; split <;> rfl
@[simp] theorem State.setByte_ptp (s : State) (a : Nat) (b : Byte) : (s.setByte a b).ptp = s.ptp := by
  unfold State.setByte; split <;> rfl
@[simp] theorem State.setByte_impose (s : State) (a : Nat) (b : Byte) : (s.setByte a b).impose = s.impose := by
  unfold State.setByte; split <;> rfl
@[simp] theorem State.setByte_drive (s : State) (a : Nat) (b : Byte) : (s.setByte a b).drive = s.drive := by
  unfold State.setByte; split <;> rfl
@[simp] theorem State.setByte_evt (s : State) (a : Nat) (b : Byte) : (s.setByte a b).evt = s.evt := by
  unfold State.setByte; split <;> rfl
@[simp] theorem State.setByte_fault (s : State) (a : Nat) (b : Byte) : (s.setByte a b).fault = s.fault := by
  unfold State.setByte; split <;> rfl
@[simp] theorem State.setByte_power (s : State) (a : Nat) (b : Byte) : (s.setByte a b).power = s.power := by
  unfold State.setByte; split <;> rfl
@[simp] theorem State.setByte_clock (s : State) (a : Nat) (b : Byte) : (s.setByte a b).clock = s.clock := by
  unfold State.setByte; split <;> rfl
@[simp] theorem State.setByte_frisket (s : State) (a : Nat) (b : Byte) : (s.setByte a b).frisket = s.frisket := by
  unfold State.setByte; split <;> rfl
@[simp] theorem State.setByte_msixFmask (s : State) (a : Nat) (b : Byte) : (s.setByte a b).msixFmask = s.msixFmask := by
  unfold State.setByte; split <;> rfl
@[simp] theorem State.setByte_noc (s : State) (a : Nat) (b : Byte) : (s.setByte a b).noc = s.noc := by
  unfold State.setByte; split <;> rfl
@[simp] theorem State.setByte_forme (s : State) (a : Nat) (b : Byte) : (s.setByte a b).forme = s.forme := by
  unfold State.setByte; split <;> rfl
@[simp] theorem State.setByte_seq (s : State) (a : Nat) (b : Byte) : (s.setByte a b).seq = s.seq := by
  unfold State.setByte; split <;> rfl
@[simp] theorem State.setByte_cstore (s : State) (a : Nat) (b : Byte) : (s.setByte a b).cstore = s.cstore := by
  unfold State.setByte; split <;> rfl
@[simp] theorem State.setByte_comp (s : State) (a : Nat) (b : Byte) : (s.setByte a b).comp = s.comp := by
  unfold State.setByte; split <;> rfl
@[simp] theorem State.setByte_cores (s : State) (a : Nat) (b : Byte) : (s.setByte a b).cores = s.cores := by
  unfold State.setByte; split <;> rfl
@[simp] theorem State.setByte_webs (s : State) (a : Nat) (b : Byte) : (s.setByte a b).webs = s.webs := by
  unfold State.setByte; split <;> rfl
@[simp] theorem State.setByte_jobs (s : State) (a : Nat) (b : Byte) : (s.setByte a b).jobs = s.jobs := by
  unfold State.setByte; split <;> rfl
@[simp] theorem State.setByte_sp (s : State) (a : Nat) (b : Byte) : (s.setByte a b).sp = s.sp := by
  unfold State.setByte; split <;> rfl
@[simp] theorem State.setByte_host (s : State) (a : Nat) (b : Byte) : (s.setByte a b).host = s.host := by
  unfold State.setByte; split <;> rfl
@[simp] theorem State.setByte_log (s : State) (a : Nat) (b : Byte) : (s.setByte a b).log = s.log := by
  unfold State.setByte; split <;> rfl
@[simp] theorem State.setByte_colo (s : State) (a : Nat) (b : Byte) : (s.setByte a b).colo = s.colo := by
  unfold State.setByte; split <;> rfl
@[simp] theorem State.setByte_device (s : State) (a : Nat) (b : Byte) : (s.setByte a b).device = s.device := by
  unfold State.setByte; split <;> rfl

@[simp] theorem State.setBytes_pending (s : State) (a : Nat) (bs : List Byte) : (s.setBytes a bs).pending = s.pending := by
  induction bs generalizing s a with
  | nil => rfl
  | cons b bs ih => simp only [State.setBytes, ih, State.setByte_pending]
@[simp] theorem State.setBytes_out (s : State) (a : Nat) (bs : List Byte) : (s.setBytes a bs).out = s.out := by
  induction bs generalizing s a with
  | nil => rfl
  | cons b bs ih => simp only [State.setBytes, ih, State.setByte_out]
@[simp] theorem State.setBytes_regs (s : State) (a : Nat) (bs : List Byte) : (s.setBytes a bs).regs = s.regs := by
  induction bs generalizing s a with
  | nil => rfl
  | cons b bs ih => simp only [State.setBytes, ih, State.setByte_regs]
@[simp] theorem State.setBytes_caps (s : State) (a : Nat) (bs : List Byte) : (s.setBytes a bs).caps = s.caps := by
  induction bs generalizing s a with
  | nil => rfl
  | cons b bs ih => simp only [State.setBytes, ih, State.setByte_caps]
@[simp] theorem State.setBytes_mono (s : State) (a : Nat) (bs : List Byte) : (s.setBytes a bs).mono = s.mono := by
  induction bs generalizing s a with
  | nil => rfl
  | cons b bs ih => simp only [State.setBytes, ih, State.setByte_mono]
@[simp] theorem State.setBytes_dev (s : State) (a : Nat) (bs : List Byte) : (s.setBytes a bs).dev = s.dev := by
  induction bs generalizing s a with
  | nil => rfl
  | cons b bs ih => simp only [State.setBytes, ih, State.setByte_dev]
@[simp] theorem State.setBytes_free (s : State) (a : Nat) (bs : List Byte) : (s.setBytes a bs).free = s.free := by
  induction bs generalizing s a with
  | nil => rfl
  | cons b bs ih => simp only [State.setBytes, ih, State.setByte_free]
@[simp] theorem State.setBytes_feed (s : State) (a : Nat) (bs : List Byte) : (s.setBytes a bs).feed = s.feed := by
  induction bs generalizing s a with
  | nil => rfl
  | cons b bs ih => simp only [State.setBytes, ih, State.setByte_feed]
@[simp] theorem State.setBytes_ptp (s : State) (a : Nat) (bs : List Byte) : (s.setBytes a bs).ptp = s.ptp := by
  induction bs generalizing s a with
  | nil => rfl
  | cons b bs ih => simp only [State.setBytes, ih, State.setByte_ptp]
@[simp] theorem State.setBytes_impose (s : State) (a : Nat) (bs : List Byte) : (s.setBytes a bs).impose = s.impose := by
  induction bs generalizing s a with
  | nil => rfl
  | cons b bs ih => simp only [State.setBytes, ih, State.setByte_impose]
@[simp] theorem State.setBytes_drive (s : State) (a : Nat) (bs : List Byte) : (s.setBytes a bs).drive = s.drive := by
  induction bs generalizing s a with
  | nil => rfl
  | cons b bs ih => simp only [State.setBytes, ih, State.setByte_drive]
@[simp] theorem State.setBytes_evt (s : State) (a : Nat) (bs : List Byte) : (s.setBytes a bs).evt = s.evt := by
  induction bs generalizing s a with
  | nil => rfl
  | cons b bs ih => simp only [State.setBytes, ih, State.setByte_evt]
@[simp] theorem State.setBytes_fault (s : State) (a : Nat) (bs : List Byte) : (s.setBytes a bs).fault = s.fault := by
  induction bs generalizing s a with
  | nil => rfl
  | cons b bs ih => simp only [State.setBytes, ih, State.setByte_fault]
@[simp] theorem State.setBytes_power (s : State) (a : Nat) (bs : List Byte) : (s.setBytes a bs).power = s.power := by
  induction bs generalizing s a with
  | nil => rfl
  | cons b bs ih => simp only [State.setBytes, ih, State.setByte_power]
@[simp] theorem State.setBytes_clock (s : State) (a : Nat) (bs : List Byte) : (s.setBytes a bs).clock = s.clock := by
  induction bs generalizing s a with
  | nil => rfl
  | cons b bs ih => simp only [State.setBytes, ih, State.setByte_clock]
@[simp] theorem State.setBytes_frisket (s : State) (a : Nat) (bs : List Byte) : (s.setBytes a bs).frisket = s.frisket := by
  induction bs generalizing s a with
  | nil => rfl
  | cons b bs ih => simp only [State.setBytes, ih, State.setByte_frisket]
@[simp] theorem State.setBytes_msixFmask (s : State) (a : Nat) (bs : List Byte) : (s.setBytes a bs).msixFmask = s.msixFmask := by
  induction bs generalizing s a with
  | nil => rfl
  | cons b bs ih => simp only [State.setBytes, ih, State.setByte_msixFmask]
@[simp] theorem State.setBytes_noc (s : State) (a : Nat) (bs : List Byte) : (s.setBytes a bs).noc = s.noc := by
  induction bs generalizing s a with
  | nil => rfl
  | cons b bs ih => simp only [State.setBytes, ih, State.setByte_noc]
@[simp] theorem State.setBytes_forme (s : State) (a : Nat) (bs : List Byte) : (s.setBytes a bs).forme = s.forme := by
  induction bs generalizing s a with
  | nil => rfl
  | cons b bs ih => simp only [State.setBytes, ih, State.setByte_forme]
@[simp] theorem State.setBytes_seq (s : State) (a : Nat) (bs : List Byte) : (s.setBytes a bs).seq = s.seq := by
  induction bs generalizing s a with
  | nil => rfl
  | cons b bs ih => simp only [State.setBytes, ih, State.setByte_seq]
@[simp] theorem State.setBytes_cstore (s : State) (a : Nat) (bs : List Byte) : (s.setBytes a bs).cstore = s.cstore := by
  induction bs generalizing s a with
  | nil => rfl
  | cons b bs ih => simp only [State.setBytes, ih, State.setByte_cstore]
@[simp] theorem State.setBytes_comp (s : State) (a : Nat) (bs : List Byte) : (s.setBytes a bs).comp = s.comp := by
  induction bs generalizing s a with
  | nil => rfl
  | cons b bs ih => simp only [State.setBytes, ih, State.setByte_comp]
@[simp] theorem State.setBytes_cores (s : State) (a : Nat) (bs : List Byte) : (s.setBytes a bs).cores = s.cores := by
  induction bs generalizing s a with
  | nil => rfl
  | cons b bs ih => simp only [State.setBytes, ih, State.setByte_cores]
@[simp] theorem State.setBytes_webs (s : State) (a : Nat) (bs : List Byte) : (s.setBytes a bs).webs = s.webs := by
  induction bs generalizing s a with
  | nil => rfl
  | cons b bs ih => simp only [State.setBytes, ih, State.setByte_webs]
@[simp] theorem State.setBytes_jobs (s : State) (a : Nat) (bs : List Byte) : (s.setBytes a bs).jobs = s.jobs := by
  induction bs generalizing s a with
  | nil => rfl
  | cons b bs ih => simp only [State.setBytes, ih, State.setByte_jobs]
@[simp] theorem State.setBytes_sp (s : State) (a : Nat) (bs : List Byte) : (s.setBytes a bs).sp = s.sp := by
  induction bs generalizing s a with
  | nil => rfl
  | cons b bs ih => simp only [State.setBytes, ih, State.setByte_sp]
@[simp] theorem State.setBytes_host (s : State) (a : Nat) (bs : List Byte) : (s.setBytes a bs).host = s.host := by
  induction bs generalizing s a with
  | nil => rfl
  | cons b bs ih => simp only [State.setBytes, ih, State.setByte_host]
@[simp] theorem State.setBytes_log (s : State) (a : Nat) (bs : List Byte) : (s.setBytes a bs).log = s.log := by
  induction bs generalizing s a with
  | nil => rfl
  | cons b bs ih => simp only [State.setBytes, ih, State.setByte_log]
@[simp] theorem State.setBytes_colo (s : State) (a : Nat) (bs : List Byte) : (s.setBytes a bs).colo = s.colo := by
  induction bs generalizing s a with
  | nil => rfl
  | cons b bs ih => simp only [State.setBytes, ih, State.setByte_colo]
@[simp] theorem State.setBytes_device (s : State) (a : Nat) (bs : List Byte) : (s.setBytes a bs).device = s.device := by
  induction bs generalizing s a with
  | nil => rfl
  | cons b bs ih => simp only [State.setBytes, ih, State.setByte_device]

end Sys2Proof.Machine
end

