-- ==== Sys2Proof/Laws/Regs.lean ====
section
/-!
SUPPORT. What a register and a field of a register read as after each way of writing one.
-/
namespace Sys2Proof.Machine

/-! ## Bit fields -/

theorem bits_eq (v hi lo : Nat) : bits v hi lo = v / 2 ^ lo % 2 ^ (hi - lo + 1) := rfl

theorem bits_lt (v hi lo : Nat) : bits v hi lo < 2 ^ (hi - lo + 1) := Nat.mod_lt _ (Nat.two_pow_pos _)

/-- A number split at a field: what is above it, the field, what is below it. -/
theorem split_field (v hi lo : Nat) :
    v = v / 2 ^ (hi - lo + 1 + lo) * 2 ^ (hi - lo + 1 + lo) + bits v hi lo * 2 ^ lo + v % 2 ^ lo := by
  have h1 := Nat.div_add_mod v (2 ^ lo)
  have h2 := Nat.div_add_mod (v / 2 ^ lo) (2 ^ (hi - lo + 1))
  rw [Nat.div_div_eq_div_mul, ← pow_add, Nat.add_comm lo] at h2
  have h3 : (2 : Nat) ^ (hi - lo + 1 + lo) = 2 ^ (hi - lo + 1) * 2 ^ lo := pow_add _ _ _
  simp only [bits]
  generalize v / 2 ^ (hi - lo + 1 + lo) = a at h2 ⊢
  rw [h3]
  generalize v / 2 ^ lo % 2 ^ (hi - lo + 1) = b at h2 ⊢
  rw [← h2] at h1
  calc v = _ := h1.symm
    _ = _ := by ring

theorem setBits_eq (v hi lo x : Nat) :
    setBits v hi lo x =
      v / 2 ^ (hi - lo + 1 + lo) * 2 ^ (hi - lo + 1 + lo) + x % 2 ^ (hi - lo + 1) * 2 ^ lo + v % 2 ^ lo := by
  have h := split_field v hi lo
  have h1 : v - bits v hi lo * 2 ^ lo = v / 2 ^ (hi - lo + 1 + lo) * 2 ^ (hi - lo + 1 + lo) + v % 2 ^ lo := by omega
  simp only [setBits, h1]
  omega

/-- A field that was set reads as what was set. -/
theorem bits_setBits (v hi lo x : Nat) : bits (setBits v hi lo x) hi lo = x % 2 ^ (hi - lo + 1) := by
  have hl : v % 2 ^ lo < 2 ^ lo := Nat.mod_lt _ (Nat.two_pow_pos _)
  have e : setBits v hi lo x =
      v % 2 ^ lo + 2 ^ lo * (x % 2 ^ (hi - lo + 1) + 2 ^ (hi - lo + 1) * (v / 2 ^ (hi - lo + 1 + lo))) := by
    rw [setBits_eq, pow_add]; ring
  rw [bits, e, Nat.add_mul_div_left _ _ (Nat.two_pow_pos _), Nat.div_eq_of_lt hl, Nat.zero_add, Nat.add_mul_mod_self_left,
    Nat.mod_mod]

/-- A field above the one that was set keeps. -/
theorem bits_setBits_above (v hi lo x hi' lo' : Nat) (h : hi < lo') (hl : lo ≤ hi) :
    bits (setBits v hi lo x) hi' lo' = bits v hi' lo' := by
  have hw : hi - lo + 1 + lo = hi + 1 := by omega
  obtain ⟨d, rfl⟩ : ∃ d, lo' = hi + 1 + d := ⟨lo' - (hi + 1), by omega⟩
  have key : setBits v hi lo x / 2 ^ (hi + 1) = v / 2 ^ (hi + 1) := by
    have hb : x % 2 ^ (hi - lo + 1) * 2 ^ lo + v % 2 ^ lo < 2 ^ (hi + 1) := by
      have h1 : x % 2 ^ (hi - lo + 1) < 2 ^ (hi - lo + 1) := Nat.mod_lt _ (Nat.two_pow_pos _)
      have h2 : v % 2 ^ lo < 2 ^ lo := Nat.mod_lt _ (Nat.two_pow_pos _)
      have h3 : (2 : Nat) ^ (hi + 1) = 2 ^ (hi - lo + 1) * 2 ^ lo := by rw [← pow_add, hw]
      rw [h3]
      calc _ < x % 2 ^ (hi - lo + 1) * 2 ^ lo + 2 ^ lo := by omega
        _ = (x % 2 ^ (hi - lo + 1) + 1) * 2 ^ lo := by ring
        _ ≤ 2 ^ (hi - lo + 1) * 2 ^ lo := Nat.mul_le_mul_right _ h1
    rw [setBits_eq, hw, Nat.add_assoc, Nat.add_comm, Nat.add_mul_div_right _ _ (Nat.two_pow_pos _), Nat.div_eq_of_lt hb,
      Nat.zero_add]
  simp only [bits, pow_add 2 (hi + 1) d, ← Nat.div_div_eq_div_mul, key]

/-- A field below the one that was set keeps. -/
theorem bits_setBits_below (v hi lo x hi' lo' : Nat) (h : hi' < lo) (hl : lo' ≤ hi') :
    bits (setBits v hi lo x) hi' lo' = bits v hi' lo' := by
  obtain ⟨d, hd⟩ : ∃ d, lo = lo' + (hi' - lo' + 1) + d := ⟨lo - (hi' + 1), by omega⟩
  have key : ∀ n, n % 2 ^ lo / 2 ^ lo' % 2 ^ (hi' - lo' + 1) = n / 2 ^ lo' % 2 ^ (hi' - lo' + 1) := by
    intro n
    rw [hd, pow_add, pow_add, Nat.mul_assoc, Nat.mod_mul_right_div_self, Nat.mod_mul_right_mod]
  have e : setBits v hi lo x % 2 ^ lo = v % 2 ^ lo := by
    rw [setBits_eq, pow_add, ← Nat.mul_assoc, ← Nat.add_mul, Nat.mul_comm, Nat.mul_add_mod, Nat.mod_mod]
  simp only [bits]
  rw [← key, e, key]

theorem setBits_lt (v hi lo x : Nat) (hv : v < 2 ^ 32) (hh : hi < 32) (hl : lo ≤ hi) : setBits v hi lo x < 2 ^ 32 := by
  have hw : hi - lo + 1 + lo = hi + 1 := by omega
  have h1 : x % 2 ^ (hi - lo + 1) < 2 ^ (hi - lo + 1) := Nat.mod_lt _ (Nat.two_pow_pos _)
  have h2 : v % 2 ^ lo < 2 ^ lo := Nat.mod_lt _ (Nat.two_pow_pos _)
  have h3 : (2 : Nat) ^ (hi + 1) = 2 ^ (hi - lo + 1) * 2 ^ lo := by rw [← pow_add, hw]
  have hb : x % 2 ^ (hi - lo + 1) * 2 ^ lo + v % 2 ^ lo < 2 ^ (hi + 1) := by
    rw [h3]
    calc _ < x % 2 ^ (hi - lo + 1) * 2 ^ lo + 2 ^ lo := by omega
      _ = (x % 2 ^ (hi - lo + 1) + 1) * 2 ^ lo := by ring
      _ ≤ 2 ^ (hi - lo + 1) * 2 ^ lo := Nat.mul_le_mul_right _ h1
  have h4 : (2 : Nat) ^ 32 = 2 ^ (31 - hi) * 2 ^ (hi + 1) := by rw [← pow_add]; congr 1; omega
  have h5 : v / 2 ^ (hi + 1) < 2 ^ (31 - hi) := by
    rw [Nat.div_lt_iff_lt_mul (Nat.two_pow_pos _), ← h4]; exact hv
  rw [setBits_eq, hw, h4]
  calc _ = v / 2 ^ (hi + 1) * 2 ^ (hi + 1) + (x % 2 ^ (hi - lo + 1) * 2 ^ lo + v % 2 ^ lo) := by ring
    _ < v / 2 ^ (hi + 1) * 2 ^ (hi + 1) + 2 ^ (hi + 1) := by omega
    _ = (v / 2 ^ (hi + 1) + 1) * 2 ^ (hi + 1) := by ring
    _ ≤ 2 ^ (31 - hi) * 2 ^ (hi + 1) := Nat.mul_le_mul_right _ h5

/-! ## Registers and fields -/

/-- Two registers are one: page, offset and index agree. -/
theorem rkey_inj {p off i q off' j : Nat} (hp : p < 0x4000) (hq : q < 0x4000) (ho : off < 0x1000) (ho' : off' < 0x1000)
    (h : rkey p off i = rkey q off' j) : p = q ∧ off = off' ∧ i = j := by
  unfold rkey at h; omega

/-- Registers of different offsets are different. -/
theorem rkey_ne_of_off {p off i q off' j : Nat} (ho : off < 0x1000) (ho' : off' < 0x1000) (h : off ≠ off') :
    rkey p off i ≠ rkey q off' j := by
  unfold rkey; omega

@[simp] theorem State.reg_setReg (s : State) (p off : Nat) (v : W32) (i : Nat) : (s.setReg p off v i).reg p off i = v := by
  simp [State.reg, State.setReg]

theorem State.reg_setReg_ne (s : State) {p off i q off' j : Nat} (v : W32) (h : rkey q off' j ≠ rkey p off i) :
    (s.setReg p off v i).reg q off' j = s.reg q off' j := by
  simp only [State.reg, State.setReg, SMap.set]
  split
  · rw [SMap.get_erase]; simp [h]
  · rw [SMap.get_ins, SMap.get_erase]
    · simp [h]
    · simp [SMap.erase]

/-- A field that was written reads as what was written. -/
theorem State.get_put (s : State) (p : Nat) (f : Fld) (v i : Nat) (hf : f.lo ≤ f.hi) (hh : f.hi < 32) :
    (s.put p f v i).get p f i = v % 2 ^ (f.hi - f.lo + 1) := by
  simp only [State.get, State.put, State.reg_setReg, BitVec.toNat_ofNat]
  rw [Nat.mod_eq_of_lt (setBits_lt _ _ _ _ (BitVec.isLt _) hh hf), bits_setBits]

/-- A field of another register keeps. -/
theorem State.get_put_ne (s : State) {p : Nat} {f : Fld} {v i q : Nat} {g : Fld} {j : Nat}
    (h : rkey q g.off j ≠ rkey p f.off i) : (s.put p f v i).get q g j = s.get q g j := by
  simp only [State.get, State.put, State.reg_setReg_ne _ _ h]

/-- Another field of the register keeps. -/
theorem State.get_put_disj (s : State) {p : Nat} {f g : Fld} {v i : Nat} (ho : g.off = f.off) (hf : f.lo ≤ f.hi)
    (hg : g.lo ≤ g.hi) (hh : f.hi < 32) (h : f.hi < g.lo ∨ g.hi < f.lo) : (s.put p f v i).get p g i = s.get p g i := by
  simp only [State.get, State.put, ho, State.reg_setReg, BitVec.toNat_ofNat]
  rw [Nat.mod_eq_of_lt (setBits_lt _ _ _ _ (BitVec.isLt _) hh hf)]
  rcases h with h | h
  · exact bits_setBits_above _ _ _ _ _ _ h hf
  · exact bits_setBits_below _ _ _ _ _ _ h hg

/-! ## The page header: what probes, events, reports and ignored writes leave of the block's registers -/

theorem State.reg_put_ne (s : State) {p : Nat} {f : Fld} {v i q off j : Nat} (h : rkey q off j ≠ rkey p f.off i) :
    (s.put p f v i).reg q off j = s.reg q off j := State.reg_setReg_ne _ _ h

theorem State.reg_put_off (s : State) {p : Nat} {f : Fld} {v i q off j : Nat} (hf : f.off < 0x040) (h : 0x040 ≤ off)
    (ho : off < 0x1000) : (s.put p f v i).reg q off j = s.reg q off j :=
  s.reg_put_ne (rkey_ne_of_off ho (by omega) (by omega))

theorem State.reg_putPair_off (s : State) {p : Nat} {f g : Fld} {v i q off j : Nat} (hf : f.off < 0x040)
    (hg : g.off < 0x040) (h : 0x040 ≤ off) (ho : off < 0x1000) : (s.putPair p f g v i).reg q off j = s.reg q off j := by
  rw [State.putPair, State.reg_put_off _ hg h ho, State.reg_put_off _ hf h ho]

/-- A probe writes its counter and its overflow flag alone. -/
theorem State.reg_probe_off (s : State) {p ev m q off j : Nat} (h1 : off ≠ 0x020) (h2 : off ≠ 0x028) (h3 : off ≠ 0x02C)
    (ho : off < 0x1000) : (s.probe p ev m).reg q off j = s.reg q off j := by
  have a : ∀ (s : State) v, (s.put p PROBE_SEL_OVF v).reg q off j = s.reg q off j := fun s v =>
    s.reg_put_ne (rkey_ne_of_off ho (by decide) h1)
  have b : ∀ (s : State) v, (s.putPair p PROBE_CNT_LO PROBE_CNT_HI v).reg q off j = s.reg q off j := fun s v => by
    rw [State.putPair, State.reg_put_ne _ (rkey_ne_of_off ho (by decide) h3),
      State.reg_put_ne _ (rkey_ne_of_off ho (by decide) h2)]
  unfold State.probe
  split
  · rfl
  · rfl
  · dsimp only
    split
    · split
      · rw [a, b]
      · rw [b]
    · rfl

theorem State.on_probe (s : State) {p ev m q : Nat} {f : Fld} {j : Nat} (h1 : f.off ≠ 0x020) (h2 : f.off ≠ 0x028)
    (h3 : f.off ≠ 0x02C) (ho : f.off < 0x1000) : (s.probe p ev m).on q f j = s.on q f j := by
  unfold State.on State.get
  rw [s.reg_probe_off h1 h2 h3 ho]

theorem State.reg_probe (s : State) {p ev m q off j : Nat} (h : 0x040 ≤ off) (ho : off < 0x1000) :
    (s.probe p ev m).reg q off j = s.reg q off j := by
  exact s.reg_probe_off (by omega) (by omega) (by omega) ho

theorem State.reg_raisePacket (s : State) (n q off j : Nat) : (s.raisePacket n).reg q off j = s.reg q off j := rfl

theorem State.reg_event (s : State) {p k q off j : Nat} (h : 0x040 ≤ off) (ho : off < 0x1000) :
    (s.event p k).reg q off j = s.reg q off j := by
  unfold State.event
  dsimp only
  split
  · rw [State.reg_raisePacket, State.reg_probe _ h ho, State.reg_put_off _ (by decide) h ho]
  · rw [State.reg_probe _ h ho, State.reg_put_off _ (by decide) h ho]

theorem State.reg_satEvent (s : State) {p q off j : Nat} (h : 0x040 ≤ off) (ho : off < 0x1000) :
    (s.satEvent p).reg q off j = s.reg q off j := by
  unfold State.satEvent
  split
  · split
    · exact State.reg_event _ h ho
    · rfl
  · rfl

theorem State.reg_report (s : State) {p src kind addr detail q off j : Nat} (h : 0x040 ≤ off) (ho : off < 0x1000) :
    (s.report p src kind addr detail).reg q off j = s.reg q off j := by
  have e : (s.report p src kind addr detail).reg q off j =
    ((s.put p FAULT_SUMMARY_COUNT (min (s.get p FAULT_SUMMARY_COUNT + 1) 0xFFFF)).put p FAULT_SUMMARY_LAST_KIND kind).reg
      q off j := rfl
  rw [e, State.reg_put_off _ (by decide) h ho, State.reg_put_off _ (by decide) h ho]

theorem State.reg_ignored (s : State) {p o q off j : Nat} {r : Reason} (h : 0x040 ≤ off) (ho : off < 0x1000) :
    (s.ignored p o r).reg q off j = s.reg q off j := by
  simp only [State.ignored]
  rw [State.reg_probe _ h ho, State.reg_put_off _ (by decide) h ho, State.reg_put_off _ (by decide) h ho,
    State.reg_put_off _ (by decide) h ho]

/-- A counter advances by n and stops at its maximum (R29). -/
theorem State.get_count (s : State) (p : Nat) (f : Fld) (n i : Nat) (hf : f.lo ≤ f.hi) (hh : f.hi < 32)
    (ho : 0x040 ≤ f.off) (ho' : f.off < 0x1000) :
    (s.count p f n i).get p f i = min (s.get p f i + n) (2 ^ f.width - 1) := by
  have hlt : min (s.get p f i + n) (2 ^ f.width - 1) < 2 ^ (f.hi - f.lo + 1) := by
    have := Nat.two_pow_pos (f.hi - f.lo + 1)
    simp only [Fld.width]; omega
  have e : ((s.put p f (min (s.get p f i + n) (2 ^ f.width - 1)) i).get p f i) = min (s.get p f i + n) (2 ^ f.width - 1) := by
    rw [State.get_put _ _ _ _ _ hf hh, Nat.mod_eq_of_lt hlt]
  simp only [State.count]
  split
  · simp only [State.get] at e ⊢
    rw [State.reg_satEvent _ ho ho', e]
  · exact e

/-- A counter of another register keeps. -/
theorem State.reg_count (s : State) {p : Nat} {f : Fld} {n i q off j : Nat} (hk : rkey q off j ≠ rkey p f.off i)
    (h : 0x040 ≤ off) (ho : off < 0x1000) : (s.count p f n i).reg q off j = s.reg q off j := by
  simp only [State.count]
  split
  · rw [State.reg_satEvent _ h ho, State.reg_put_ne _ hk]
  · exact State.reg_put_ne _ hk

/-! ## A write the page takes -/

theorem lowest_nil : lowest [] = none := rfl

/-- A write that its page takes has its effect (R882, R884). -/
theorem State.tryWrite_of_accepts (s : State) (m p off : Nat) (rs : List Reason) (k : State → State)
    (h : s.accepts m p off = true) (hrs : rs = []) : s.tryWrite m p off rs k = k (s.probe p 2 m) := by
  subst hrs
  unfold State.accepts at h
  simp only [Bool.and_eq_true, List.isEmpty_iff] at h
  have hr : (s.probe p 2 m).pageReasons p = s.pageReasons p := by
    rw [State.pageReasons, State.pageReasons, State.on_probe _ (by decide) (by decide) (by decide) (by decide),
      State.on_probe _ (by decide) (by decide) (by decide) (by decide)]
  simp [State.tryWrite, h.1, hr, h.2, lowest]

end Sys2Proof.Machine
end

