-- ==== Sys2Proof/WellFormed.lean ====
section
/-!
DEFINITION. Well-formed commands: every operand that names a unit, a register or a field lies within what the
specification gives (R24, R529, R736, R842 and the chapters' tables). The meanings take other operands too: a number above its
range is taken modulo the range or names nothing.
-/
namespace Sys2Proof

/-- A number below a bound. -/
def below (v n : Nat) : Bool := decide (v < n)

/-- A request through one of the three BARs (R56): it lies in the BAR, and BAR0 is 64 MiB, BAR2 64 MiB, BAR4 4 GiB. -/
def barOk (q : BarReq) : Bool :=
  let n := match q.data with
    | some bs => bs.length
    | none => q.len
  (q.bar == 0 && decide (q.off + n ≤ 0x4000000)) || (q.bar == 2 && decide (q.off + n ≤ 0x4000000)) ||
  (q.bar == 4 && decide (q.off + n ≤ 0x100000000))

/-- A frame: a header's bytes at least, no more bytes than its length holds beside the FCS (R79). -/
def frameOk (f : EthFrame) : Bool := decide (14 ≤ f.bytes.length) && decide (f.bytes.length + 4 ≤ f.length)

/-- A region register's fields (R530): a base and a size of 256-byte units within the 48-bit space. -/
def regionOk (g : Machine.Region) : Bool := decide (g.base < 2 ^ 48) && decide (g.base % 256 = 0) && decide (g.size < 2 ^ 40)

/-- A flow's fields (R596): endpoints of 8 bits and 0 to 127 slots. -/
def flowOk (f : Machine.Flow) : Bool := below f.src 256 && below f.dst 256 && below f.slots 128

/-- A memory request: one of the 18 masters and an address of 48 bits (R50, R529). -/
def reqOk (q : Machine.ReelReq) : Bool := below q.master 18 && below q.addr 0x1000000000000

/-- A well-formed command. -/
def Instr.wf : Instr → Bool
  | .porNAssert => true
  | .porNRelease mode _ _ => below mode 4
  | .sysRstNAssert => true
  | .sysRstNRelease _ => true
  | .brownoutTrip => true
  | .brownoutRelease mode _ => below mode 4
  | .thermalReset => true
  | .unitProofDone cls inst _ => below cls 15 && below inst 0x2310
  | .patchLoad _ _ => true
  | .makeReadyDone _ _ _ => true
  | .wakeNAssert _ => true
  | .perstAssert => true
  | .perstRelease => true
  | .functionLevelReset => true
  | .logPerstRelease k _ => below k 2
  | .registerWrite m p off _ _ => below m 18 && below p 0x4000 && below off 0x1000
  | .counterRead m p off => below m 18 && below p 0x4000 && below off 0x1000
  | .loCaptureRead m p off => below m 18 && below p 0x4000 && below off 0x1000
  | .quoinSet m p _ => below m 18 && below p 0x4000
  | .softReset m p _ => below m 18 && below p 0x4000
  | .softResetDone p => below p 0x4000
  | .probeClear m p _ => below m 18 && below p 0x4000
  | .probeWrap p _ => below p 0x4000
  | .hostBarRequest q _ => barOk q
  | .hostBar4BaseWrite m _ => below m 18
  | .hostRequestError n => below n 16
  | .msixUnmask vector => vector.all (below · 256)
  | .hostLinkChange _ speed width _ => below speed 6 && below width 17
  | .hostLinkL1Entry _ => true
  | .feedFrameReceive p f _ => below p 16 && frameOk f
  | .feedEnableWrite m p _ _ => below m 18 && below p 16
  | .feedPairingOpen m p => below m 18 && below p 16
  | .blockLockGain p _ => below p 16
  | .blockLockLoss p _ _ => below p 16
  | .speedWindowExpiry p => below p 16
  | .lockHoldExpiry p => below p 16
  | .lldpTransmit p => below p 16
  | .lldpReceive p _ => below p 16
  | .helloOffer p f _ => below p 16 && frameOk f
  | .helloConfirm p f _ => below p 16 && frameOk f
  | .helloLeave p f _ => below p 16 && frameOk f
  | .helloKeepalive p f _ => below p 16 && frameOk f
  | .helloPairRequest p f _ => below p 16 && frameOk f
  | .helloBadStep p f => below p 16 && frameOk f
  | .confirmTimeout i => below i 256
  | .feederLiveExpiry i _ => below i 256
  | .staleHoldExpiry i _ => below i 256
  | .ftIndexCapture m i _ => below m 18 && below i 256
  | .ftEvict m i _ => below m 18 && below i 256
  | .pairConfirmWrite m p code => below m 18 && below p 16 && below code 0xf4240
  | .pairingTimeout p => below p 16
  | .eapolReceive p _ _ _ _ => below p 16
  | .mkaHelloTransmit p => below p 16
  | .mkaLifeExpiry p _ => below p 16
  | .ptpFrameReceive p f _ _ => below p 16 && frameOk f
  | .ptpMessageSend p _ _ => below p 16
  | .ptpAdjFreqWrite m _ _ => below m 18
  | .ptpAdjStep m _ _ => below m 18
  | .ptpTimeCaptureRead m _ => below m 18
  | .ppsInEdge _ => true
  | .ppsTimeout _ => true
  | .ptpMasterLost _ => true
  | .deviceSecond _ => true
  | .sheetDataFrame p f _ => below p 16 && frameOk f
  | .stoneDataReady => true
  | .impressionTick _ => true
  | .reelCalSlot _ => true
  | .halfPressExceeded _ => true
  | .imposeCommit m => below m 18
  | .imposeValidationDone => true
  | .imposeTableScrub _ => true
  | .slotIndexCapture m k => below m 18 && below k 0x10000
  | .driveCommit m => below m 18
  | .driveValidationDone => true
  | .fadeReqWrite m _ _ => below m 18
  | .fadeFrameRepeat _ => true
  | .fadeDone _ => true
  | .fadeClear m _ _ => below m 18
  | .fmNop => true
  | .fmMov => true
  | .fmMovh => true
  | .fmSeti => true
  | .fmGetf => true
  | .fmAdd => true
  | .fmAddc => true
  | .fmSub => true
  | .fmSubc => true
  | .fmNeg => true
  | .fmAbs => true
  | .fmAdds => true
  | .fmSubs => true
  | .fmMul => true
  | .fmMac => true
  | .fmAnd => true
  | .fmOr => true
  | .fmXor => true
  | .fmAndn => true
  | .fmNot => true
  | .fmBool => true
  | .fmCmp => true
  | .fmTst => true
  | .fmFlag => true
  | .fmSel => true
  | .fmMax => true
  | .fmMin => true
  | .fmNews => true
  | .fmPlor => true
  | .fmPland => true
  | .fmPlabt => true
  | .fmPlcnt => true
  | .fmPlfst => true
  | .fmLdg => true
  | .fmStg => true
  | .fmWait => true
  | .fmWaitEnd _ => true
  | .customerRoutine _ => true
  | .platenResult _ => true
  | .galleyIoDone => true
  | .waitTimeout => true
  | .routineBudgetExpiry => true
  | .routineBoundary => true
  | .caseScrubDue => true
  | .eClearWrite m _ => below m 18
  | .migrationDone => true
  | .dbgAddrWrite r m _ => below r 16 && below m 18
  | .dbgDataWrite r m _ => below r 16 && below m 18
  | .dbgDone r => below r 16
  | .impEndWrite m _ => below m 18
  | .executionEnd _ => true
  | .xcheckPass => true
  | .spareCoreProof _ => true
  | .seqRearm m _ => below m 18
  | .seqFlush m _ => below m 18
  | .seqEnableWrite m _ => below m 18
  | .cstoreWindowWrite m _ _ => below m 18
  | .dispatchEntryWrite m _ => below m 18
  | .cstoreMatchWrite m _ => below m 18
  | .qAdd k => below k 2
  | .qSub k => below k 2
  | .qAnd k => below k 2
  | .qOr k => below k 2
  | .qXor k => below k 2
  | .qAndn k => below k 2
  | .qSll k => below k 2
  | .qSrl k => below k 2
  | .qSra k => below k 2
  | .qSlli k => below k 2
  | .qSrli k => below k 2
  | .qSrai k => below k 2
  | .qCmpeq k => below k 2
  | .qCmplt k => below k 2
  | .qCmpltu k => below k 2
  | .qSel k => below k 2
  | .qAddx k => below k 2
  | .qCarx k => below k 2
  | .qSubx k => below k 2
  | .qBorx k => below k 2
  | .qMul k => below k 2
  | .qMulh k => below k 2
  | .qMulhu k => below k 2
  | .qMulw k => below k 2
  | .qMulwu k => below k 2
  | .qDiv k => below k 2
  | .qDivu k => below k 2
  | .qRem k => below k 2
  | .qRemu k => below k 2
  | .qDivw k => below k 2
  | .qDivwu k => below k 2
  | .qClz k => below k 2
  | .qCtz k => below k 2
  | .qPopc k => below k 2
  | .qBswap k => below k 2
  | .qAddi k => below k 2
  | .qAndi k => below k 2
  | .qOri k => below k 2
  | .qXori k => below k 2
  | .qLdhi k => below k 2
  | .qCmpeqi k => below k 2
  | .qCmplti k => below k 2
  | .qCmpltui k => below k 2
  | .qLdb k => below k 2
  | .qLdbu k => below k 2
  | .qLdh k => below k 2
  | .qLdhu k => below k 2
  | .qLdw k => below k 2
  | .qStb k => below k 2
  | .qSth k => below k 2
  | .qStw k => below k 2
  | .qFld k => below k 2
  | .qFst k => below k 2
  | .qVld k => below k 2
  | .qVst k => below k 2
  | .qLdwx k => below k 2
  | .qStwx k => below k 2
  | .qLdbux k => below k 2
  | .qStbx k => below k 2
  | .qVlds k => below k 2
  | .qVsts k => below k 2
  | .quireLoadData k => below k 2
  | .storeDrain k => below k 2
  | .qBez k => below k 2
  | .qBnz k => below k 2
  | .qJ k => below k 2
  | .qJl k => below k 2
  | .qJr k => below k 2
  | .qJlr k => below k 2
  | .qFadd k => below k 2
  | .qFsub k => below k 2
  | .qFmul k => below k 2
  | .qFdiv k => below k 2
  | .qFsqrt k => below k 2
  | .qFmin k => below k 2
  | .qFmax k => below k 2
  | .qFabs k => below k 2
  | .qFneg k => below k 2
  | .qFmov k => below k 2
  | .qFeq k => below k 2
  | .qFlt k => below k 2
  | .qFle k => below k 2
  | .qFcvtws k => below k 2
  | .qFcvtwus k => below k 2
  | .qFcvtwsz k => below k 2
  | .qFcvtsw k => below k 2
  | .qFcvtswu k => below k 2
  | .qFmvgf k => below k 2
  | .qFmvfg k => below k 2
  | .qFmadd k => below k 2
  | .qFmsub k => below k 2
  | .qFnmsub k => below k 2
  | .qFnmadd k => below k 2
  | .qVadd k => below k 2
  | .qVsub k => below k 2
  | .qVmul k => below k 2
  | .qVfma k => below k 2
  | .qVmin k => below k 2
  | .qVmax k => below k 2
  | .qVabs k => below k 2
  | .qVneg k => below k 2
  | .qVcmplt k => below k 2
  | .qVcmpeq k => below k 2
  | .qVand k => below k 2
  | .qVor k => below k 2
  | .qVxor k => below k 2
  | .qVandn k => below k 2
  | .qVbcast k => below k 2
  | .qVsum k => below k 2
  | .qVcvtsw k => below k 2
  | .qVcvtws k => below k 2
  | .qVmov k => below k 2
  | .qTrap k => below k 2
  | .qBrk k => below k 2
  | .qRfe k => below k 2
  | .qRff k => below k 2
  | .qMfc k _ => below k 2
  | .qMtc k => below k 2
  | .qFence k => below k 2
  | .qWait k => below k 2
  | .waitRelease k => below k 2
  | .qSegld k => below k 2
  | .qSegst k => below k 2
  | .qEnq k => below k 2
  | .qEnqv k => below k 2
  | .qIllegal k => below k 2
  | .interruptEntryNormal k => below k 2
  | .interruptEntryFast k => below k 2
  | .webSubmit w m _ => below w 8 && below m 18
  | .jobChainSubmit w => below w 8
  | .chainStart w => below w 8
  | .chainDiscard w _ _ _ => below w 8
  | .chainEnd w _ _ => below w 8
  | .webFlush w m _ => below w 8 && below m 18
  | .webEnableWrite w m _ => below w 8 && below m 18
  | .stoneAccess b claims _ => below b 32 && claims.all reqOk
  | .stoneCorrectionRewrite _ => true
  | .stoneScrubDue _ => true
  | .stoneScrubOverdue b => below b 32
  | .reelAccess claims _ => claims.all reqOk
  | .reelCorrectionRewrite _ => true
  | .reelRefresh k => below k 4
  | .reelTempReading k _ => below k 4
  | .reelRetrainDue k _ => below k 4
  | .reelRetrainEnd k _ => below k 4
  | .reelPatrolScrub k _ _ => below k 4
  | .reelStackLost k => below k 4
  | .regionRightsWrite m _ => below m 18
  | .regionSelect m _ => below m 18
  | .ledgerCommit m => below m 18
  | .ledgerCheckDone => true
  | .linkUnitReceive r p errors _ => below r 64 && below p 8 && errors.all (below · 277)
  | .packetHop r out _ _ => below r 64 && below out 4
  | .packetEject r p vn vc _ => below r 64 && below p 8 && below vn 4 && below vc 2
  | .creditReturn r p vn vc => below r 64 && below p 8 && below vn 4 && below vc 2
  | .respTimeout ep tag _ => below ep 256 && below tag 1024
  | .flowCommit m => below m 18
  | .flowCheckDone => true
  | .flowPlacementApply => true
  | .eventRaise k _ => below k 512
  | .coalesceTimeout k _ => below k 512
  | .evtLineChange n _ _ => below n 16
  | .evtFilterSettle n _ => below n 16
  | .softRaise m idx _ => below m 18 && below idx 64
  | .evtAcceptance proc _ => below proc 2
  | .eoiWrite m proc level => below m 18 && below proc 2 && below level 16
  | .stackReset m proc => below m 18 && below proc 2
  | .evtConfigScrub hits => hits.all fun h => below h.source 512
  | .faultMessage _ _ => true
  | .localFaultMessage _ => true
  | .faultLogWriteDone => true
  | .faultSevScrub hits => hits.all fun h => below h.1 64
  | .firstClear m _ => below m 18
  | .faultLogCapture m _ => below m 18
  | .tallyWindowExpiry unit _ _ => below unit 4
  | .aliveToggle _ => true
  | .aliveEnableWrite m _ _ => below m 18
  | .heartbeatKick m _ _ => below m 18
  | .hbTimeoutWrite m _ _ => below m 18
  | .heartbeatDeadline _ => true
  | .sensorSample k _ _ => below k 76
  | .pmbusPoll _ _ => true
  | .drbgHealthFail => true
  | .mbGetCert box => below box 2
  | .mbAttest box => below box 2
  | .mbRegionSet box m r g => below box 2 && below m 18 && below r 16 && regionOk g
  | .mbFlowSet box k f => below box 2 && below k 64 && flowOk f
  | .mbEnrol box _ _ _ _ => below box 2
  | .mbRelease box _ _ => below box 2
  | .mbLoadImage box _ _ _ => below box 2
  | .frisketLoadDone _ => true
  | .mbUpdateBegin box => below box 2
  | .mbUpdateData box => below box 2
  | .mbUpdateSwitch box _ _ => below box 2
  | .mbUpdateConfirm box => below box 2
  | .mbRecordOpen box _ => below box 2
  | .mbRecordClose box _ => below box 2
  | .mbReadLog box k what _ _ _ _ => below box 2 && below k 2 && below what 2
  | .mbReadJournal box _ _ => below box 2
  | .mbBadOpcode box => below box 2
  | .recordBlockClose _ => true
  | .signatureTimer _ => true
  | .nvmeCompletion k _ _ _ => below k 2
  | .nvmeTimeout k _ _ => below k 2
  | .logReleaseWrite k m _ => below k 2 && below m 18
  | .journalProgramDone => true
  | .journalEraseDone => true
  | .jobsTailDoorbell n m _ => below n 16 && below m 18
  | .jobsHeadWrite n m _ => below n 16 && below m 18
  | .ringEnableWrite n m _ => below n 16 && below m 18
  | .ticketFetch _ => true
  | .ticketNop n => below n 16
  | .ticketCopy n _ _ => below n 16
  | .ticketChain n => below n 16
  | .ticketCall n => below n 16
  | .ticketBadKind n => below n 16
  | .ticketComplete n => below n 16
  | .callDoneWrite m _ => below m 18
  | .spStart m _ _ => below m 18
  | .spStop m _ => below m 18
  | .frisketEventLine i _ => below i 32
  | .frisketFadeRequest _ => true
  | .frisketReset1 m => below m 18
  | .frisketConfigScrub _ _ _ => true
  | .frisketWakeRelease => true
  | .gpioInputChange n _ _ => below n 64
  | .powerRunRequest m _ => below m 18
  | .powerNapRequest m wake _ => below m 18 && wake.all (below · 9)
  | .powerHoldRequest m wake _ => below m 18 && wake.all (below · 9)
  | .powerEntryStep d _ => below d 52
  | .domainWakeComplete d _ => below d 52
  | .idleEntry d _ => below d 52
  | .holdAll m _ _ => below m 18
  | .coloReady m _ _ => below m 18
  | .coloReadyTimeout _ => true
  | .holdL1Timeout _ => true
  | .wakeAll m _ _ => below m 18
  | .powerAlarmFire _ => true
  | .signalDetect p _ => below p 16
  | .pllLockLoss k => below k 76
  | .refClockLoss k => below k 3
  | .thermalResetRelease mode _ => below mode 4
  | .hostLinkL1Exit _ => true
  | .colophonCrossCheck => true
  | .flagCopyMismatch row p q r => below row 16 && below p 17 && below q 33 && below r 32
  | .evtStackUpset proc => below proc 2
  | .referenceClockReturn k => below k 3
  | .uartReceive _ => true
  | .jtagTapInstruction _ _ => true
  | .hostConfigRequest => true
  | .flrComplete => true

end Sys2Proof
end

