-- ==== Sys2Proof/Tests/Slice0.lean ====
section
/-!
SUPPORT. Tests of the model: an ill-formed command for each check of WellFormed, and for the statements of
Certificates/Slice0/Obligations.lean concrete states that meet their conditions, with one step from them.
-/
namespace Sys2Proof.Tests
open Sys2Proof Sys2Proof.Machine Sys2Proof.Claims

-- The theorems below are checked one after another: side by side their threads would need more memory than a build has.
set_option Elab.async false

def tHead : FwHead := { key := [], verifies := true, rev := 0, rollback := 0, version := 1 }
def tBoot : BootSlots := { a := tHead, b := tHead }
def tPatch : PatchSlot := { image := none, key := [], tagged := false, body := [] }
def tBar : BarReq := { bar := 0, off := 0, len := 4, data := none }
def tReq : ReelReq := { master := 0, addr := 0, len := 4, data := none }
def tRegion : Region := { base := 0, size := 1, r := true, w := true, whole := false }
def tFlow : Flow := { src := 0, dst := 0, valid := true, slots := 1 }
def tFound : SecTag := { known := false, serial := 0, pn := 0, icvOk := false }
def tFrame : EthFrame :=
  { length := 64, fcsOk := true, bytes := List.replicate 14 0, found := tFound, fecCorrected := 0, fecUncorr := 0 }
def tHello : Hello :=
  { step := 1, reason := 0, handle := 0, serial := 0, caps := 0, streams := 0, entries := [], bodyLen := 32, key := [] }

/-- The state a result goes on to meets a test. -/
def goes (r : Result) (p : State → Bool) : Bool :=
  match r with
  | .next t => p t
  | _ => false

/-- The machine after reset with the units of some pages in service. -/
def up (ps : List Nat) : State := ps.foldl (fun s p => s.put p PAGE_STATUS_IN_SERVICE 1) State.reset

/-- A master may reach everything. -/
def free (s : State) (m : Nat) : State :=
  let all : Region := { base := 0, size := 0, r := true, w := true, whole := true }
  { s with mem := { s.mem with regions := SMap.set (regionReset (16 * m)) s.mem.regions (16 * m) all } }
/-! ## Well-formedness: an ill-formed command for each check -/

theorem test_ill_formed_0 : ([.porNRelease 4 true tBoot, .brownoutRelease 4 tBoot, .unitProofDone 15 0 true,
   .unitProofDone 0 8976 true, .logPerstRelease 2 true, .registerWrite 18 0 0 [] 0,
   .registerWrite 0 16384 0 [] 0, .registerWrite 0 0 4096 [] 0, .counterRead 18 0 0,
   .counterRead 0 16384 0, .counterRead 0 0 4096, .loCaptureRead 18 0 0,
   .loCaptureRead 0 16384 0, .loCaptureRead 0 0 4096, .quoinSet 18 0 0,
   .quoinSet 0 16384 0, .softReset 18 0 0, .softReset 0 16384 0,
   .softResetDone 16384, .probeClear 18 0 0, .probeClear 0 16384 0,
   .probeWrap 16384 0, .hostBarRequest ⟨0, 0x3FFFFFD, 4, none⟩ 0, .hostBarRequest ⟨1, 0, 4, none⟩ 0] :
    List Instr).all (fun c => !c.wf) = true := by decide

theorem test_ill_formed_1 : ([.hostBarRequest ⟨4, 0x100000000, 1, none⟩ 0, .hostBarRequest ⟨2, 0x4000000, 0, some [0#8]⟩ 0, .hostBar4BaseWrite 18 0,
   .hostRequestError 16, .msixUnmask (some 256), .hostLinkChange true 6 0 0,
   .hostLinkChange true 0 17 0, .feedFrameReceive 16 tFrame 0, .feedFrameReceive 0 { tFrame with bytes := [] } 0,
   .feedFrameReceive 0 { tFrame with length := 17 } 0, .feedEnableWrite 18 0 true 0, .feedEnableWrite 0 16 true 0,
   .feedPairingOpen 18 0, .feedPairingOpen 0 16, .blockLockGain 16 0,
   .blockLockLoss 16 true 0, .speedWindowExpiry 16, .lockHoldExpiry 16,
   .lldpTransmit 16, .lldpReceive 16 [], .helloOffer 16 tFrame 0,
   .helloOffer 0 { tFrame with bytes := [] } 0, .helloOffer 0 { tFrame with length := 17 } 0, .helloConfirm 16 tFrame 0] :
    List Instr).all (fun c => !c.wf) = true := by decide

theorem test_ill_formed_2 : ([.helloConfirm 0 { tFrame with bytes := [] } 0, .helloConfirm 0 { tFrame with length := 17 } 0, .helloLeave 16 tFrame 0,
   .helloLeave 0 { tFrame with bytes := [] } 0, .helloLeave 0 { tFrame with length := 17 } 0, .helloKeepalive 16 tFrame 0,
   .helloKeepalive 0 { tFrame with bytes := [] } 0, .helloKeepalive 0 { tFrame with length := 17 } 0, .helloPairRequest 16 tFrame 0,
   .helloPairRequest 0 { tFrame with bytes := [] } 0, .helloPairRequest 0 { tFrame with length := 17 } 0, .helloBadStep 16 tFrame,
   .helloBadStep 0 { tFrame with bytes := [] }, .helloBadStep 0 { tFrame with length := 17 }, .confirmTimeout 256,
   .feederLiveExpiry 256 0, .staleHoldExpiry 256 0, .ftIndexCapture 18 0 0,
   .ftIndexCapture 0 256 0, .ftEvict 18 0 0, .ftEvict 0 256 0,
   .pairConfirmWrite 18 0 0, .pairConfirmWrite 0 16 0, .pairConfirmWrite 0 0 1000000] :
    List Instr).all (fun c => !c.wf) = true := by decide

theorem test_ill_formed_3 : ([.pairingTimeout 16, .eapolReceive 16 0 true true 0, .mkaHelloTransmit 16,
   .mkaLifeExpiry 16 0, .ptpFrameReceive 16 tFrame none 0, .ptpFrameReceive 0 { tFrame with bytes := [] } none 0,
   .ptpFrameReceive 0 { tFrame with length := 17 } none 0, .ptpMessageSend 16 [] 0, .ptpAdjFreqWrite 18 0 0,
   .ptpAdjStep 18 0 0, .ptpTimeCaptureRead 18 0, .sheetDataFrame 16 tFrame 0,
   .sheetDataFrame 0 { tFrame with bytes := [] } 0, .sheetDataFrame 0 { tFrame with length := 17 } 0, .imposeCommit 18,
   .slotIndexCapture 18 0, .slotIndexCapture 0 65536, .driveCommit 18,
   .fadeReqWrite 18 0 0, .fadeClear 18 0 0, .eClearWrite 18 0,
   .dbgAddrWrite 16 0 0, .dbgAddrWrite 0 18 0, .dbgDataWrite 16 0 0] :
    List Instr).all (fun c => !c.wf) = true := by decide

theorem test_ill_formed_4 : ([.dbgDataWrite 0 18 0, .dbgDone 16, .impEndWrite 18 0,
   .seqRearm 18 0, .seqFlush 18 0, .seqEnableWrite 18 0,
   .cstoreWindowWrite 18 0 [], .dispatchEntryWrite 18 0, .cstoreMatchWrite 18 0,
   .qAdd 2, .qSub 2, .qAnd 2,
   .qOr 2, .qXor 2, .qAndn 2,
   .qSll 2, .qSrl 2, .qSra 2,
   .qSlli 2, .qSrli 2, .qSrai 2,
   .qCmpeq 2, .qCmplt 2, .qCmpltu 2] :
    List Instr).all (fun c => !c.wf) = true := by decide

theorem test_ill_formed_5 : ([.qSel 2, .qAddx 2, .qCarx 2,
   .qSubx 2, .qBorx 2, .qMul 2,
   .qMulh 2, .qMulhu 2, .qMulw 2,
   .qMulwu 2, .qDiv 2, .qDivu 2,
   .qRem 2, .qRemu 2, .qDivw 2,
   .qDivwu 2, .qClz 2, .qCtz 2,
   .qPopc 2, .qBswap 2, .qAddi 2,
   .qAndi 2, .qOri 2, .qXori 2] :
    List Instr).all (fun c => !c.wf) = true := by decide

theorem test_ill_formed_6 : ([.qLdhi 2, .qCmpeqi 2, .qCmplti 2,
   .qCmpltui 2, .qLdb 2, .qLdbu 2,
   .qLdh 2, .qLdhu 2, .qLdw 2,
   .qStb 2, .qSth 2, .qStw 2,
   .qFld 2, .qFst 2, .qVld 2,
   .qVst 2, .qLdwx 2, .qStwx 2,
   .qLdbux 2, .qStbx 2, .qVlds 2,
   .qVsts 2, .quireLoadData 2, .storeDrain 2] :
    List Instr).all (fun c => !c.wf) = true := by decide

theorem test_ill_formed_7 : ([.qBez 2, .qBnz 2, .qJ 2,
   .qJl 2, .qJr 2, .qJlr 2,
   .qFadd 2, .qFsub 2, .qFmul 2,
   .qFdiv 2, .qFsqrt 2, .qFmin 2,
   .qFmax 2, .qFabs 2, .qFneg 2,
   .qFmov 2, .qFeq 2, .qFlt 2,
   .qFle 2, .qFcvtws 2, .qFcvtwus 2,
   .qFcvtwsz 2, .qFcvtsw 2, .qFcvtswu 2] :
    List Instr).all (fun c => !c.wf) = true := by decide

theorem test_ill_formed_8 : ([.qFmvgf 2, .qFmvfg 2, .qFmadd 2,
   .qFmsub 2, .qFnmsub 2, .qFnmadd 2,
   .qVadd 2, .qVsub 2, .qVmul 2,
   .qVfma 2, .qVmin 2, .qVmax 2,
   .qVabs 2, .qVneg 2, .qVcmplt 2,
   .qVcmpeq 2, .qVand 2, .qVor 2,
   .qVxor 2, .qVandn 2, .qVbcast 2,
   .qVsum 2, .qVcvtsw 2, .qVcvtws 2] :
    List Instr).all (fun c => !c.wf) = true := by decide

theorem test_ill_formed_9 : ([.qVmov 2, .qTrap 2, .qBrk 2,
   .qRfe 2, .qRff 2, .qMfc 2 0,
   .qMtc 2, .qFence 2, .qWait 2,
   .waitRelease 2, .qSegld 2, .qSegst 2,
   .qEnq 2, .qEnqv 2, .qIllegal 2,
   .interruptEntryNormal 2, .interruptEntryFast 2, .webSubmit 8 0 0,
   .webSubmit 0 18 0, .jobChainSubmit 8, .chainStart 8,
   .chainDiscard 8 0 0 0, .chainEnd 8 0 0, .webFlush 8 0 0] :
    List Instr).all (fun c => !c.wf) = true := by decide

theorem test_ill_formed_10 : ([.webFlush 0 18 0, .webEnableWrite 8 0 0, .webEnableWrite 0 18 0,
   .stoneAccess 32 [] 0, .stoneAccess 0 [{ tReq with master := 18 }] 0, .stoneScrubOverdue 32,
   .reelAccess [{ tReq with master := 18 }] 0, .reelRefresh 4, .reelTempReading 4 0,
   .reelRetrainDue 4 0, .reelRetrainEnd 4 0, .reelPatrolScrub 4 0 0,
   .reelStackLost 4, .regionRightsWrite 18 0, .regionSelect 18 0,
   .ledgerCommit 18, .linkUnitReceive 64 0 [] 0, .linkUnitReceive 0 8 [] 0,
   .linkUnitReceive 0 0 [277] 0, .packetHop 64 0 0 none, .packetHop 0 4 0 none,
   .packetEject 64 0 0 0 0, .packetEject 0 8 0 0 0, .packetEject 0 0 4 0 0] :
    List Instr).all (fun c => !c.wf) = true := by decide

theorem test_ill_formed_11 : ([.packetEject 0 0 0 2 0, .creditReturn 64 0 0 0, .creditReturn 0 8 0 0,
   .creditReturn 0 0 4 0, .creditReturn 0 0 0 2, .respTimeout 256 0 0,
   .respTimeout 0 1024 0, .flowCommit 18, .eventRaise 512 0,
   .coalesceTimeout 512 0, .evtLineChange 16 true 0, .evtFilterSettle 16 0,
   .softRaise 18 0 0, .softRaise 0 64 0, .evtAcceptance 2 true,
   .eoiWrite 18 0 0, .eoiWrite 0 2 0, .eoiWrite 0 0 16,
   .stackReset 18 0, .stackReset 0 2, .evtConfigScrub [⟨512, 0, 0⟩],
   .faultSevScrub [(64, 0, 0)], .firstClear 18 0, .faultLogCapture 18 0] :
    List Instr).all (fun c => !c.wf) = true := by decide

theorem test_ill_formed_12 : ([.tallyWindowExpiry 4 0 0, .aliveEnableWrite 18 0 0, .heartbeatKick 18 0 0,
   .hbTimeoutWrite 18 0 0, .sensorSample 76 0 0, .mbGetCert 2,
   .mbAttest 2, .mbRegionSet 2 0 0 tRegion, .mbRegionSet 0 18 0 tRegion,
   .mbRegionSet 0 0 16 tRegion, .mbRegionSet 0 0 0 { tRegion with base := 2 ^ 48 }, .mbRegionSet 0 0 0 { tRegion with base := 255 },
   .mbRegionSet 0 0 0 { tRegion with size := 2 ^ 40 }, .mbFlowSet 2 0 tFlow, .mbFlowSet 0 64 tFlow,
   .mbFlowSet 0 0 { tFlow with src := 256 }, .mbFlowSet 0 0 { tFlow with dst := 256 }, .mbFlowSet 0 0 { tFlow with slots := 128 },
   .mbEnrol 2 [] [] [] [], .mbRelease 2 [] [], .mbLoadImage 2 [] [] [],
   .mbUpdateBegin 2, .mbUpdateData 2, .mbUpdateSwitch 2 tHead 0] :
    List Instr).all (fun c => !c.wf) = true := by decide

theorem test_ill_formed_13 : ([.mbUpdateConfirm 2, .mbRecordOpen 2 0, .mbRecordClose 2 0,
   .mbReadLog 2 0 0 0 0 0 [], .mbReadLog 0 2 0 0 0 0 [], .mbReadLog 0 0 2 0 0 0 [],
   .mbReadJournal 2 0 0, .mbBadOpcode 2, .nvmeCompletion 2 0 0 0,
   .nvmeTimeout 2 0 0, .logReleaseWrite 2 0 0, .logReleaseWrite 0 18 0,
   .jobsTailDoorbell 16 0 0, .jobsTailDoorbell 0 18 0, .jobsHeadWrite 16 0 0,
   .jobsHeadWrite 0 18 0, .ringEnableWrite 16 0 0, .ringEnableWrite 0 18 0,
   .ticketNop 16, .ticketCopy 16 0 none, .ticketChain 16,
   .ticketCall 16, .ticketBadKind 16, .ticketComplete 16] :
    List Instr).all (fun c => !c.wf) = true := by decide

theorem test_ill_formed_14 : ([.callDoneWrite 18 0, .spStart 18 0 0, .spStop 18 0,
   .frisketEventLine 32 0, .frisketReset1 18, .gpioInputChange 64 true 0,
   .powerRunRequest 18 0, .powerNapRequest 18 none 0, .powerNapRequest 0 (some 9) 0,
   .powerHoldRequest 18 none 0, .powerHoldRequest 0 (some 9) 0, .powerEntryStep 52 0,
   .domainWakeComplete 52 0, .idleEntry 52 0, .holdAll 18 0 0,
   .coloReady 18 0 0, .wakeAll 18 0 0, .signalDetect 16 0,
   .pllLockLoss 76, .refClockLoss 3, .thermalResetRelease 4 tBoot,
   .flagCopyMismatch 16 0 0 0, .flagCopyMismatch 0 17 0 0, .flagCopyMismatch 0 0 33 0] :
    List Instr).all (fun c => !c.wf) = true := by decide

theorem test_ill_formed_15 : ([.flagCopyMismatch 0 0 0 32, .evtStackUpset 2, .referenceClockReturn 3] :
    List Instr).all (fun c => !c.wf) = true := by decide

/-- The same commands with every operand in its range are well formed. -/
theorem test_well_formed_0 : ([.porNAssert, .porNRelease 0 true tBoot, .sysRstNAssert, .sysRstNRelease tBoot,
   .brownoutTrip, .brownoutRelease 0 tBoot, .thermalReset, .unitProofDone 0 0 true,
   .patchLoad tPatch tPatch, .makeReadyDone [] [] [], .wakeNAssert 0, .perstAssert,
   .perstRelease, .functionLevelReset, .logPerstRelease 0 true, .registerWrite 0 0 0 [] 0,
   .counterRead 0 0 0, .loCaptureRead 0 0 0, .quoinSet 0 0 0, .softReset 0 0 0,
   .softResetDone 0, .probeClear 0 0 0, .probeWrap 0 0, .hostBarRequest tBar 0,
   .hostBar4BaseWrite 0 0, .hostRequestError 0, .msixUnmask none, .hostLinkChange true 0 0 0,
   .hostLinkL1Entry 0, .feedFrameReceive 0 tFrame 0, .feedEnableWrite 0 0 true 0, .feedPairingOpen 0 0,
   .blockLockGain 0 0, .blockLockLoss 0 true 0, .speedWindowExpiry 0, .lockHoldExpiry 0,
   .lldpTransmit 0, .lldpReceive 0 [], .helloOffer 0 tFrame 0, .helloConfirm 0 tFrame 0,
   .helloLeave 0 tFrame 0, .helloKeepalive 0 tFrame 0, .helloPairRequest 0 tFrame 0, .helloBadStep 0 tFrame,
   .confirmTimeout 0, .feederLiveExpiry 0 0, .staleHoldExpiry 0 0, .ftIndexCapture 0 0 0,
   .ftEvict 0 0 0, .pairConfirmWrite 0 0 0, .pairingTimeout 0, .eapolReceive 0 0 true true 0,
   .mkaHelloTransmit 0, .mkaLifeExpiry 0 0, .ptpFrameReceive 0 tFrame none 0, .ptpMessageSend 0 [] 0,
   .ptpAdjFreqWrite 0 0 0, .ptpAdjStep 0 0 0, .ptpTimeCaptureRead 0 0, .ppsInEdge 0,
   .ppsTimeout 0, .ptpMasterLost 0, .deviceSecond 0, .sheetDataFrame 0 tFrame 0,
   .stoneDataReady, .impressionTick 0, .reelCalSlot 0, .halfPressExceeded 0,
   .imposeCommit 0, .imposeValidationDone, .imposeTableScrub [], .slotIndexCapture 0 0,
   .driveCommit 0, .driveValidationDone, .fadeReqWrite 0 0 0, .fadeFrameRepeat 0,
   .fadeDone 0, .fadeClear 0 0 0, .fmNop, .fmMov,
   .fmMovh, .fmSeti, .fmGetf, .fmAdd,
   .fmAddc, .fmSub, .fmSubc, .fmNeg,
   .fmAbs, .fmAdds, .fmSubs, .fmMul,
   .fmMac, .fmAnd, .fmOr, .fmXor,
   .fmAndn, .fmNot, .fmBool, .fmCmp] :
    List Instr).all (·.wf) = true := by decide

theorem test_well_formed_1 : ([.fmNot, .fmBool, .fmCmp, .fmTst,
   .fmFlag, .fmSel, .fmMax, .fmMin,
   .fmNews, .fmPlor, .fmPland, .fmPlabt,
   .fmPlcnt, .fmPlfst, .fmLdg, .fmStg,
   .fmWait, .fmWaitEnd 0, .customerRoutine 0, .platenResult 0,
   .galleyIoDone, .waitTimeout, .routineBudgetExpiry, .routineBoundary,
   .caseScrubDue, .eClearWrite 0 0, .migrationDone, .dbgAddrWrite 0 0 0,
   .dbgDataWrite 0 0 0, .dbgDone 0, .impEndWrite 0 0, .executionEnd 0,
   .xcheckPass, .spareCoreProof none, .seqRearm 0 0, .seqFlush 0 0,
   .seqEnableWrite 0 0, .cstoreWindowWrite 0 0 [], .dispatchEntryWrite 0 0, .cstoreMatchWrite 0 0,
   .qAdd 0, .qSub 0, .qAnd 0, .qOr 0,
   .qXor 0, .qAndn 0, .qSll 0, .qSrl 0,
   .qSra 0, .qSlli 0, .qSrli 0, .qSrai 0,
   .qCmpeq 0, .qCmplt 0, .qCmpltu 0, .qSel 0,
   .qAddx 0, .qCarx 0, .qSubx 0, .qBorx 0,
   .qMul 0, .qMulh 0, .qMulhu 0, .qMulw 0,
   .qMulwu 0, .qDiv 0, .qDivu 0, .qRem 0,
   .qRemu 0, .qDivw 0, .qDivwu 0, .qClz 0,
   .qCtz 0, .qPopc 0, .qBswap 0, .qAddi 0,
   .qAndi 0, .qOri 0, .qXori 0, .qLdhi 0,
   .qCmpeqi 0, .qCmplti 0, .qCmpltui 0, .qLdb 0,
   .qLdbu 0, .qLdh 0, .qLdhu 0, .qLdw 0,
   .qStb 0, .qSth 0, .qStw 0, .qFld 0,
   .qFst 0, .qVld 0, .qVst 0, .qLdwx 0,
   .qStwx 0, .qLdbux 0, .qStbx 0, .qVlds 0] :
    List Instr).all (·.wf) = true := by decide

theorem test_well_formed_2 : ([.qLdbux 0, .qStbx 0, .qVlds 0, .qVsts 0,
   .quireLoadData 0, .storeDrain 0, .qBez 0, .qBnz 0,
   .qJ 0, .qJl 0, .qJr 0, .qJlr 0,
   .qFadd 0, .qFsub 0, .qFmul 0, .qFdiv 0,
   .qFsqrt 0, .qFmin 0, .qFmax 0, .qFabs 0,
   .qFneg 0, .qFmov 0, .qFeq 0, .qFlt 0,
   .qFle 0, .qFcvtws 0, .qFcvtwus 0, .qFcvtwsz 0,
   .qFcvtsw 0, .qFcvtswu 0, .qFmvgf 0, .qFmvfg 0,
   .qFmadd 0, .qFmsub 0, .qFnmsub 0, .qFnmadd 0,
   .qVadd 0, .qVsub 0, .qVmul 0, .qVfma 0,
   .qVmin 0, .qVmax 0, .qVabs 0, .qVneg 0,
   .qVcmplt 0, .qVcmpeq 0, .qVand 0, .qVor 0,
   .qVxor 0, .qVandn 0, .qVbcast 0, .qVsum 0,
   .qVcvtsw 0, .qVcvtws 0, .qVmov 0, .qTrap 0,
   .qBrk 0, .qRfe 0, .qRff 0, .qMfc 0 0,
   .qMtc 0, .qFence 0, .qWait 0, .waitRelease 0,
   .qSegld 0, .qSegst 0, .qEnq 0, .qEnqv 0,
   .qIllegal 0, .interruptEntryNormal 0, .interruptEntryFast 0, .webSubmit 0 0 0,
   .jobChainSubmit 0, .chainStart 0, .chainDiscard 0 0 0 0, .chainEnd 0 0 0,
   .webFlush 0 0 0, .webEnableWrite 0 0 0, .stoneAccess 0 [] 0, .stoneCorrectionRewrite 0,
   .stoneScrubDue 0, .stoneScrubOverdue 0, .reelAccess [] 0, .reelCorrectionRewrite 0,
   .reelRefresh 0, .reelTempReading 0 0, .reelRetrainDue 0 0, .reelRetrainEnd 0 0,
   .reelPatrolScrub 0 0 0, .reelStackLost 0, .regionRightsWrite 0 0, .regionSelect 0 0,
   .ledgerCommit 0, .ledgerCheckDone, .linkUnitReceive 0 0 [] 0, .packetHop 0 0 0 none,
   .packetEject 0 0 0 0 0, .creditReturn 0 0 0 0, .respTimeout 0 0 0, .flowCommit 0] :
    List Instr).all (·.wf) = true := by decide

theorem test_well_formed_3 : ([.creditReturn 0 0 0 0, .respTimeout 0 0 0, .flowCommit 0, .flowCheckDone,
   .flowPlacementApply, .eventRaise 0 0, .coalesceTimeout 0 0, .evtLineChange 0 true 0,
   .evtFilterSettle 0 0, .softRaise 0 0 0, .evtAcceptance 0 true, .eoiWrite 0 0 0,
   .stackReset 0 0, .evtConfigScrub [], .faultMessage 0 0, .localFaultMessage 0,
   .faultLogWriteDone, .faultSevScrub [], .firstClear 0 0, .faultLogCapture 0 0,
   .tallyWindowExpiry 0 0 0, .aliveToggle 0, .aliveEnableWrite 0 0 0, .heartbeatKick 0 0 0,
   .hbTimeoutWrite 0 0 0, .heartbeatDeadline 0, .sensorSample 0 0 0, .pmbusPoll [] 0,
   .drbgHealthFail, .mbGetCert 0, .mbAttest 0, .mbRegionSet 0 0 0 tRegion,
   .mbFlowSet 0 0 tFlow, .mbEnrol 0 [] [] [] [], .mbRelease 0 [] [], .mbLoadImage 0 [] [] [],
   .frisketLoadDone true, .mbUpdateBegin 0, .mbUpdateData 0, .mbUpdateSwitch 0 tHead 0,
   .mbUpdateConfirm 0, .mbRecordOpen 0 0, .mbRecordClose 0 0, .mbReadLog 0 0 0 0 0 0 [],
   .mbReadJournal 0 0 0, .mbBadOpcode 0, .recordBlockClose 0, .signatureTimer 0,
   .nvmeCompletion 0 0 0 0, .nvmeTimeout 0 0 0, .logReleaseWrite 0 0 0, .journalProgramDone,
   .journalEraseDone, .jobsTailDoorbell 0 0 0, .jobsHeadWrite 0 0 0, .ringEnableWrite 0 0 0,
   .ticketFetch none, .ticketNop 0, .ticketCopy 0 0 none, .ticketChain 0,
   .ticketCall 0, .ticketBadKind 0, .ticketComplete 0, .callDoneWrite 0 0,
   .spStart 0 0 0, .spStop 0 0, .frisketEventLine 0 0, .frisketFadeRequest 0,
   .frisketReset1 0, .frisketConfigScrub 0 true 0, .frisketWakeRelease, .gpioInputChange 0 true 0,
   .powerRunRequest 0 0, .powerNapRequest 0 none 0, .powerHoldRequest 0 none 0, .powerEntryStep 0 0,
   .domainWakeComplete 0 0, .idleEntry 0 0, .holdAll 0 0 0, .coloReady 0 0 0,
   .coloReadyTimeout 0, .holdL1Timeout 0, .wakeAll 0 0 0, .powerAlarmFire 0,
   .signalDetect 0 0, .pllLockLoss 0, .refClockLoss 0, .thermalResetRelease 0 tBoot,
   .hostLinkL1Exit 0, .colophonCrossCheck, .flagCopyMismatch 0 0 0 0, .evtStackUpset 0,
   .referenceClockReturn 0, .uartReceive [], .jtagTapInstruction 0 true, .hostConfigRequest,
   .flrComplete] :
    List Instr).all (·.wf) = true := by decide

/-! ## Quire -/

/-- The Colophon's cores both at c. -/
def tQ (c : CoreSt) : State :=
  { State.reset with device := { State.reset.device with stage := 1 }, cores := [(3, c), (4, c)] }

/-- A core at pc 0 that holds the lines of its code: w first. -/
def code (w : Nat) (c : CoreSt) : CoreSt :=
  { c with pc := 0, lines := [(0, bytesLE 4 w), (64, [])], seg := SMap.set Seg.none c.seg 8 { base := 0, limit := 0x1000, rights := 4 } }

/-- The conditions of the statements about one instruction, as a test. -/
def readyB (c : CoreSt) (w : Nat) : Bool :=
  !c.halted && !c.waiting && c.load.isNone &&
  decide ((tQ (code w c)).fetchCheck 1 (code w c) matches .ok 0) &&
  decide (wordIn (code w c).lines 0 = w) && !(tQ (code w c)).qPending 1 (code w c) w &&
  !(tQ (code w c)).takesFast 1 (code w c) && !(tQ (code w c)).takesNormal 1 (code w c)

theorem ready_meets (c : CoreSt) (w : Nat) (h : readyB c w = true) :
    Lockstep (tQ (code w c)) 1 (code w c) ∧ Fetches (tQ (code w c)) 1 (code w c) w (code w c) [] := by
  simp only [readyB, Bool.and_eq_true, Bool.not_eq_true', decide_eq_true_eq, Option.isNone_iff_eq_none] at h
  obtain ⟨⟨⟨⟨⟨⟨⟨h1, h2⟩, h3⟩, h4⟩, h5⟩, h6⟩, h7⟩, h8⟩ := h
  refine ⟨⟨List.cons_ne_nil _ _, ?_, h1, h2, h3, (by decide : (0 : W32) = alignPc 0),
    fun h => absurd h (by decide), h7, h8⟩, 0, (code w c).lines, [], ?_, rfl, h5, h6,
    ?_, rfl⟩
  · intro n hn
    have : n = 3 ∨ n = 4 := (by simpa [State.complexCores, tQ] using hn : _ ∧ (n = 3 ∨ n = 4)).2
    rcases this with rfl | rfl <;> rfl
  · revert h4
    cases (tQ (code w c)).fetchCheck 1 (code w c) with
    | error e => simp
    | ok a => cases a <;> simp
  · rw [show loadTime 1 [] * (tQ (code w c)).periodFc 1 = 0 from Nat.zero_mul _]
    rfl

/-- Encodings of spec/07: format I (major, rd, ra, imm16) and format R (major, rd, ra, rb, rc, fn). -/
def wI (m rd ra imm : Nat) : Nat := m * 2 ^ 26 + rd * 2 ^ 21 + ra * 2 ^ 16 + imm
def wR (m rd ra rb rc fn : Nat) : Nat := wI m rd ra (rb * 2 ^ 11 + rc * 2 ^ 6 + fn)

/-- g1 = 7, g2 = 5, g4 = 1, g5 = -2, g6 = 16, g7 = 0x11223344, g8 = 0x2000. -/
def tInt : CoreSt :=
  { CoreSt.reset with g := [(1, 7), (2, 5), (4, 1), (5, 0xFFFFFFFE), (6, 16), (7, 0x11223344), (8, 0x2000)] }

/-- The instruction meets the conditions and leaves both cores as the test says, one instruction retired and pc at 4. -/
def runs (c : CoreSt) (i : Instr) (w : Nat) (key : Nat × Nat) (p : CoreSt → Bool) : Bool :=
  readyB c w && qKey w == key && goes (exec i (tQ (code w c))) fun t =>
    decide (t.core 3 = t.core 4) && (t.core 3).pc == 4 && (t.core 3).instret == 1 && p (t.core 3)

/-- The values the table of R442 gives. -/
theorem test_integer : [
    runs tInt (.qAdd 1) (wR 1 3 1 2 0 0x00) (1, 0x00) (·.getG 3 == 12),
    runs tInt (.qSub 1) (wR 1 3 1 2 0 0x01) (1, 0x01) (·.getG 3 == 2),
    runs tInt (.qAnd 1) (wR 1 3 1 2 0 0x02) (1, 0x02) (·.getG 3 == 5),
    runs tInt (.qOr 1) (wR 1 3 1 6 0 0x03) (1, 0x03) (·.getG 3 == 23),
    runs tInt (.qXor 1) (wR 1 3 1 2 0 0x04) (1, 0x04) (·.getG 3 == 2),
    runs tInt (.qAndn 1) (wR 1 3 1 2 0 0x05) (1, 0x05) (·.getG 3 == 2),
    runs tInt (.qSll 1) (wR 1 3 1 2 0 0x06) (1, 0x06) (·.getG 3 == 224),
    runs tInt (.qSrl 1) (wR 1 3 5 2 0 0x07) (1, 0x07) (·.getG 3 == 0x07FFFFFF),
    runs tInt (.qSra 1) (wR 1 3 5 2 0 0x08) (1, 0x08) (·.getG 3 == 0xFFFFFFFF),
    runs tInt (.qSlli 1) (wR 1 3 1 31 0 0x09) (1, 0x09) (·.getG 3 == 0x80000000),
    runs tInt (.qSrli 1) (wR 1 3 1 1 0 0x0A) (1, 0x0A) (·.getG 3 == 3),
    runs tInt (.qSrai 1) (wR 1 3 5 1 0 0x0B) (1, 0x0B) (·.getG 3 == 0xFFFFFFFF),
    runs tInt (.qCmpeq 1) (wR 1 3 1 1 0 0x0C) (1, 0x0C) (·.getG 3 == 1),
    runs tInt (.qCmplt 1) (wR 1 3 5 1 0 0x0D) (1, 0x0D) (·.getG 3 == 1),
    runs tInt (.qCmpltu 1) (wR 1 3 2 1 0 0x0E) (1, 0x0E) (·.getG 3 == 1),
    runs tInt (.qSel 1) (wR 1 3 1 2 4 0x0F) (1, 0x0F) (·.getG 3 == 7),
    runs tInt (.qAddx 1) (wR 1 3 1 2 4 0x10) (1, 0x10) (·.getG 3 == 13),
    runs tInt (.qCarx 1) (wR 1 3 5 4 4 0x11) (1, 0x11) (·.getG 3 == 1)].all id = true := by decide +kernel

theorem test_integer_more : [
    runs tInt (.qSubx 1) (wR 1 3 1 2 4 0x12) (1, 0x12) (·.getG 3 == 1),
    runs tInt (.qBorx 1) (wR 1 3 1 1 4 0x13) (1, 0x13) (·.getG 3 == 1),
    runs tInt (.qMul 1) (wR 1 3 1 2 0 0x14) (1, 0x14) (·.getG 3 == 35),
    runs tInt (.qMulh 1) (wR 1 3 5 1 0 0x15) (1, 0x15) (·.getG 3 == 0xFFFFFFFF),
    runs tInt (.qMulhu 1) (wR 1 3 5 1 0 0x16) (1, 0x16) (·.getG 3 == 6),
    runs tInt (.qMulw 1) (wR 1 10 5 1 0 0x17) (1, 0x17) (fun c => c.getG 10 == 0xFFFFFFF2 && c.getG 11 == 0xFFFFFFFF),
    runs tInt (.qMulwu 1) (wR 1 0 5 1 0 0x18) (1, 0x18) (fun c => c.getG 0 == 0 && c.getG 1 == 6),
    runs tInt (.qDiv 1) (wR 1 3 5 2 0 0x19) (1, 0x19) (·.getG 3 == 0),
    runs tInt (.qDivu 1) (wR 1 3 5 1 0 0x1A) (1, 0x1A) (·.getG 3 == 613566756),
    runs tInt (.qRem 1) (wR 1 3 5 1 0 0x1B) (1, 0x1B) (·.getG 3 == 0xFFFFFFFE),
    runs tInt (.qRemu 1) (wR 1 3 1 0 0 0x1C) (1, 0x1C) (·.getG 3 == 7),
    runs tInt (.qDivw 1) (wR 1 10 1 0 0 0x1D) (1, 0x1D) (fun c => c.getG 10 == 0xFFFFFFFF && c.getG 11 == 7 && c.cycle == 36),
    runs tInt (.qDivwu 1) (wR 1 10 1 2 0 0x1E) (1, 0x1E) (fun c => c.getG 10 == 1 && c.getG 11 == 2),
    runs tInt (.qClz 1) (wR 1 3 1 0 0 0x1F) (1, 0x1F) (·.getG 3 == 29),
    runs tInt (.qCtz 1) (wR 1 3 6 0 0 0x20) (1, 0x20) (·.getG 3 == 4),
    runs tInt (.qPopc 1) (wR 1 3 1 0 0 0x21) (1, 0x21) (·.getG 3 == 3),
    runs tInt (.qBswap 1) (wR 1 3 7 0 0 0x22) (1, 0x22) (·.getG 3 == 0x44332211)].all id = true := by decide +kernel

/-- The values the table of R444 gives. -/
theorem test_immediates : [
    runs tInt (.qAddi 1) (wI 0x02 3 1 0xFFFF) (2, 0) (·.getG 3 == 6),
    runs tInt (.qAndi 1) (wI 0x03 3 5 0xFFFF) (3, 0) (·.getG 3 == 0xFFFE),
    runs tInt (.qOri 1) (wI 0x04 3 1 0x8000) (4, 0) (·.getG 3 == 0x8007),
    runs tInt (.qXori 1) (wI 0x05 3 1 0xFFFF) (5, 0) (·.getG 3 == 0xFFF8),
    runs tInt (.qLdhi 1) (wI 0x06 3 31 0x8000) (6, 0) (·.getG 3 == 0x80000000),
    runs tInt (.qCmpeqi 1) (wI 0x07 3 5 0xFFFE) (7, 0) (·.getG 3 == 1),
    runs tInt (.qCmplti 1) (wI 0x08 3 5 0xFFFF) (8, 0) (·.getG 3 == 1),
    runs tInt (.qCmpltui 1) (wI 0x09 3 1 0xFFFF) (9, 0) (·.getG 3 == 1)].all id = true := by decide +kernel

/-- An odd rd of a pair operation (R442): ILLEGAL, EPC at the instruction. -/
theorem test_pair_odd : readyB { tInt with hvecExc := 0x40 } (wR 1 3 1 2 0 0x17) = true ∧
    goes (exec (.qMulw 1) (tQ (code (wR 1 3 1 2 0 0x17) { tInt with hvecExc := 0x40 }))) (fun t =>
      (t.core 4).pc == 0x40 && (t.core 4).ecause == 1 && (t.core 4).exl && (t.core 4).epc == 0) = true := by decide +kernel
/-- Encodings: format F (fd, fa, fb, fn), FM (fd, fa, fb, fc, fn) and V (vd, va, vb, vc, sr, fn). -/
def wF (fd fa fb fn : Nat) : Nat := 0x28 * 2 ^ 26 + fd * 2 ^ 20 + fa * 2 ^ 14 + fb * 2 ^ 8 + fn
def wFM (fd fa fb fc fn : Nat) : Nat := 0x29 * 2 ^ 26 + fd * 2 ^ 20 + fa * 2 ^ 14 + fb * 2 ^ 8 + fc * 2 ^ 2 + fn
def wV (vd va vb vc sr fn : Nat) : Nat :=
  0x2C * 2 ^ 26 + vd * 2 ^ 23 + va * 2 ^ 20 + vb * 2 ^ 17 + vc * 2 ^ 14 + sr * 2 ^ 8 + fn

/-- f1 = 1.5, f2 = 2, f3 = 4, f4 = -1.5; v1, v2, v3 hold eight lanes of 1.5, 2 and 4; g1 = 7, g5 = -2. -/
def tFlt : CoreSt :=
  { tInt with f := [(1, 0x3FC00000), (2, 0x40000000), (3, 0x40800000), (4, 0xBFC00000)] ++
      ((List.range 8).map fun i => (8 + i, 0x3FC00000)) ++ ((List.range 8).map fun i => (16 + i, 0x40000000)) ++
      ((List.range 8).map fun i => (24 + i, 0x40800000)) }

/-- Hand-computed results of the operations of R447. -/
theorem test_float : [
    runs tFlt (.qFadd 1) (wF 9 1 2 0x00) (0x28, 0x00) (·.getF 9 == 0x40600000),
    runs tFlt (.qFsub 1) (wF 9 1 2 0x01) (0x28, 0x01) (·.getF 9 == 0xBF000000),
    runs tFlt (.qFmul 1) (wF 9 1 2 0x02) (0x28, 0x02) (·.getF 9 == 0x40400000),
    runs tFlt (.qFdiv 1) (wF 9 1 2 0x03) (0x28, 0x03) (·.getF 9 == 0x3F400000),
    runs tFlt (.qFsqrt 1) (wF 9 3 0 0x04) (0x28, 0x04) (·.getF 9 == 0x40000000),
    runs tFlt (.qFmin 1) (wF 9 1 4 0x05) (0x28, 0x05) (·.getF 9 == 0xBFC00000),
    runs tFlt (.qFmax 1) (wF 9 1 4 0x06) (0x28, 0x06) (·.getF 9 == 0x3FC00000),
    runs tFlt (.qFabs 1) (wF 9 4 0 0x07) (0x28, 0x07) (·.getF 9 == 0x3FC00000),
    runs tFlt (.qFneg 1) (wF 9 1 0 0x08) (0x28, 0x08) (·.getF 9 == 0xBFC00000),
    runs tFlt (.qFmov 1) (wF 9 1 0 0x09) (0x28, 0x09) (·.getF 9 == 0x3FC00000),
    runs tFlt (.qFeq 1) (wF 9 1 1 0x10) (0x28, 0x10) (·.getG 9 == 1),
    runs tFlt (.qFlt 1) (wF 9 1 2 0x11) (0x28, 0x11) (·.getG 9 == 1),
    runs tFlt (.qFle 1) (wF 9 2 1 0x12) (0x28, 0x12) (·.getG 9 == 0),
    runs tFlt (.qFcvtws 1) (wF 9 1 0 0x18) (0x28, 0x18) (·.getG 9 == 2),
    runs tFlt (.qFcvtwus 1) (wF 9 3 0 0x19) (0x28, 0x19) (·.getG 9 == 4),
    runs tFlt (.qFcvtwsz 1) (wF 9 1 0 0x1A) (0x28, 0x1A) (·.getG 9 == 1),
    runs tFlt (.qFcvtsw 1) (wF 9 5 0 0x1B) (0x28, 0x1B) (·.getF 9 == 0xC0000000),
    runs tFlt (.qFcvtswu 1) (wF 9 1 0 0x1C) (0x28, 0x1C) (·.getF 9 == 0x40E00000),
    runs tFlt (.qFmvgf 1) (wF 9 1 0 0x1D) (0x28, 0x1D) (·.getG 9 == 0x3FC00000),
    runs tFlt (.qFmvfg 1) (wF 9 1 0 0x1E) (0x28, 0x1E) (·.getF 9 == 7),
    runs tFlt (.qFmadd 1) (wFM 9 1 2 3 0) (0x29, 0) (·.getF 9 == 0x40E00000),
    runs tFlt (.qFmsub 1) (wFM 9 1 2 3 1) (0x29, 1) (·.getF 9 == 0xBF800000),
    runs tFlt (.qFnmsub 1) (wFM 9 1 2 3 2) (0x29, 2) (·.getF 9 == 0x3F800000),
    runs tFlt (.qFnmadd 1) (wFM 9 1 2 3 3) (0x29, 3) (·.getF 9 == 0xC0E00000)].all id = true := by decide +kernel

/-- The first and the last lane of a vector register. -/
def ends (v : Nat) (x : W32) (c : CoreSt) : Bool := c.getF (8 * v) == x && c.getF (8 * v + 7) == x && c.getF (8 * v + 8) == 0

theorem test_vector : [
    runs tFlt (.qVadd 1) (wV 4 1 2 0 0 0x00) (0x2C, 0x00) (ends 4 0x40600000),
    runs tFlt (.qVsub 1) (wV 4 1 2 0 0 0x01) (0x2C, 0x01) (ends 4 0xBF000000),
    runs tFlt (.qVmul 1) (wV 4 1 2 0 0 0x02) (0x2C, 0x02) (ends 4 0x40400000),
    runs tFlt (.qVfma 1) (wV 4 1 2 3 0 0x03) (0x2C, 0x03) (ends 4 0x40E00000),
    runs tFlt (.qVmin 1) (wV 4 1 2 0 0 0x04) (0x2C, 0x04) (ends 4 0x3FC00000),
    runs tFlt (.qVmax 1) (wV 4 1 2 0 0 0x05) (0x2C, 0x05) (ends 4 0x40000000),
    runs tFlt (.qVabs 1) (wV 4 1 0 0 0 0x06) (0x2C, 0x06) (ends 4 0x3FC00000),
    runs tFlt (.qVneg 1) (wV 4 1 0 0 0 0x07) (0x2C, 0x07) (ends 4 0xBFC00000),
    runs tFlt (.qVcmplt 1) (wV 4 1 2 0 0 0x08) (0x2C, 0x08) (ends 4 0xFFFFFFFF),
    runs tFlt (.qVcmpeq 1) (wV 4 1 1 0 0 0x09) (0x2C, 0x09) (ends 4 0xFFFFFFFF),
    runs tFlt (.qVand 1) (wV 4 1 2 0 0 0x0A) (0x2C, 0x0A) (ends 4 0),
    runs tFlt (.qVor 1) (wV 4 1 2 0 0 0x0B) (0x2C, 0x0B) (ends 4 0x7FC00000),
    runs tFlt (.qVxor 1) (wV 4 2 3 0 0 0x0C) (0x2C, 0x0C) (ends 4 0x00800000),
    runs tFlt (.qVandn 1) (wV 4 1 2 0 0 0x0D) (0x2C, 0x0D) (ends 4 0x3FC00000),
    runs tFlt (.qVbcast 1) (wV 4 0 0 0 1 0x0E) (0x2C, 0x0E) (ends 4 0x3FC00000),
    runs tFlt (.qVsum 1) (wV 0 1 0 0 40 0x0F) (0x2C, 0x0F) (·.getF 40 == 0x41400000),
    runs tFlt (.qVcvtsw 1) (wV 4 5 0 0 0 0x10) (0x2C, 0x10) (ends 4 0),
    runs tFlt (.qVcvtws 1) (wV 4 3 0 0 0 0x11) (0x2C, 0x11) (ends 4 4),
    runs tFlt (.qVmov 1) (wV 4 3 0 0 0 0x12) (0x2C, 0x12) (ends 4 0x40800000)].all id = true := by decide +kernel

/-- The instruction meets the conditions and the state after it meets the test. -/
def meets (c : CoreSt) (i : Instr) (w : Nat) (key : Nat × Nat) (p : State → Bool) : Bool :=
  readyB c w && qKey w == key && goes (exec i (tQ (code w c))) fun t => decide (t.core 3 = t.core 4) && p t

/-- An exception taken: its cause, EPC and EADDR. -/
def took (cause epc eaddr : W32) (t : State) : Bool :=
  (t.core 3).ecause == cause && (t.core 3).epc == epc && (t.core 3).eaddr == eaddr && (t.core 3).exl && (t.core 3).pc == 0x40 &&
    (t.core 3).wbuf == [] && (t.core 3).load == none

/-- A general register field above 31 (R441): ILLEGAL. -/
theorem test_float_illegal : [
    meets { tFlt with hvecExc := 0x40 } (.qFeq 1) (wF 32 1 1 0x10) (0x28, 0x10) (took 1 0 0),
    meets { tFlt with hvecExc := 0x40 } (.qFmvfg 1) (wF 9 32 1 0x1E) (0x28, 0x1E) (took 1 0 0)].all id = true := by decide +kernel

/-- Format M: major, rd, ra, segment, 13-bit offset. -/
def wM (m rd ra seg off : Nat) : Nat := wI m rd ra (seg * 2 ^ 13 + off)
/-- Format X: rd, ra, rb, segment, fn. -/
def wX (rd ra rb seg fn : Nat) : Nat := wI 0x1E rd ra (rb * 2 ^ 11 + seg * 2 ^ 8 + fn)

/-- s0 grants reads and writes of 0x1000 bytes from 0x10000 on; handlers at 0x40. -/
def tSeg : CoreSt :=
  { tFlt with seg := [(0, { base := 0x10000, limit := 0x1000, rights := 3 })], hvecExc := 0x40 }

/-- A load issued: where its data goes and the addresses read. -/
def waits (d : LoadDst) (size : Nat) (as : List Nat) (t : State) : Bool :=
  decide ((t.core 3).load = some { dst := d, size := size, addrs := as }) && (t.core 3).pc == 0

theorem test_loads : [
    meets tSeg (.qLdb 1) (wM 0x10 3 1 0 0) (0x10, 0) (waits (.g 3 1 true) 1 [0x10007]),
    meets tSeg (.qLdbu 1) (wM 0x11 3 1 0 0x1FFF) (0x11, 0) (waits (.g 3 1 false) 1 [0x10006]),
    meets tSeg (.qLdh 1) (wM 0x12 3 1 0 1) (0x12, 0) (waits (.g 3 2 true) 2 [0x10008]),
    meets tSeg (.qLdhu 1) (wM 0x13 3 1 0 1) (0x13, 0) (waits (.g 3 2 false) 2 [0x10008]),
    meets tSeg (.qLdw 1) (wM 0x14 3 0 0 0xFFC) (0x14, 0) (waits (.g 3 4 false) 4 [0x10FFC]),
    meets tSeg (.qFld 1) (wM 0x18 3 0 0 4) (0x18, 0) (waits (.f 3) 4 [0x10004]),
    meets tSeg (.qFld 1) (wM 0x19 3 0 0 4) (0x19, 0) (waits (.f 35) 4 [0x10004]),
    meets tSeg (.qLdwx 1) (wX 3 1 2 0 0x00) (0x1E, 0) (waits (.g 3 4 false) 4 [0x1000C]),
    meets tSeg (.qLdbux 1) (wX 3 1 4 0 0x02) (0x1E, 2) (waits (.g 3 1 false) 1 [0x10008]),
    meets tSeg (.qVld 1) (wM 0x1C 8 0 0 0) (0x1C, 0)
      (waits (.v 2) 4 [0x10000, 0x10004, 0x10008, 0x1000C, 0x10010, 0x10014, 0x10018, 0x1001C]),
    meets tSeg (.qVlds 1) (wX 7 0 6 0 0x10) (0x1E, 0x10)
      (waits (.v 7) 4 [0x10000, 0x10010, 0x10020, 0x10030, 0x10040, 0x10050, 0x10060, 0x10070])].all id = true := by decide +kernel

/-- A store in the write buffer. -/
def buffered (e : List (Nat × List Byte)) (t : State) : Bool := decide ((t.core 3).wbuf = [e]) && (t.core 3).pc == 4

theorem test_stores : [
    meets tSeg (.qStb 1) (wM 0x15 7 1 0 0) (0x15, 0) (buffered [(0x10007, [0x44])]),
    meets tSeg (.qSth 1) (wM 0x16 7 0 0 2) (0x16, 0) (buffered [(0x10002, [0x44, 0x33])]),
    meets tSeg (.qStw 1) (wM 0x17 7 0 0 4) (0x17, 0) (buffered [(0x10004, [0x44, 0x33, 0x22, 0x11])]),
    meets tSeg (.qFst 1) (wM 0x1A 1 0 0 8) (0x1A, 0) (buffered [(0x10008, [0, 0, 0xC0, 0x3F])]),
    meets tSeg (.qFst 1) (wM 0x1B 1 0 0 8) (0x1B, 0) (buffered [(0x10008, [0, 0, 0, 0])]),
    meets tSeg (.qStwx 1) (wX 7 1 2 0 0x01) (0x1E, 1) (buffered [(0x1000C, [0x44, 0x33, 0x22, 0x11])]),
    meets tSeg (.qStbx 1) (wX 7 1 2 0 0x03) (0x1E, 3) (buffered [(0x1000C, [0x44])]),
    meets tSeg (.qVst 1) (wM 0x1D 4 0 0 0) (0x1D, 0)
      (buffered ((List.range 8).map fun i => (0x10000 + 4 * i, [0, 0, 0xC0, 0x3F]))),
    meets tSeg (.qVsts 1) (wX 1 0 6 0 0x11) (0x1E, 0x11)
      (buffered ((List.range 8).map fun i => (0x10000 + 16 * i, [0, 0, 0xC0, 0x3F])))].all id = true := by decide +kernel

/-- Each check of R428 that fails, in its order: rights 3, limit 2, alignment 4; a vector access with its lane; a full write
buffer and an overlap with it stall. -/
theorem test_access_checks : [
    meets tSeg (.qLdw 1) (wM 0x14 3 0 1 2) (0x14, 0) (took 3 0 2),
    meets tSeg (.qStw 1) (wM 0x17 3 0 0 0xFFD) (0x17, 0) (took 2 0 0xFFD),
    meets tSeg (.qLdw 1) (wM 0x14 3 0 0 2) (0x14, 0) (took 4 0 2),
    meets tSeg (.qVld 1) (wM 0x1C 8 0 0 0xFF4) (0x1C, 0) (took (2 + 3 * 2 ^ 8 + 2 ^ 11) 0 0x1000),
    meets tSeg (.qVld 1) (wM 0x1C 9 0 0 0) (0x1C, 0) (took (1 + 2 ^ 11) 0 0),
    meets tSeg (.qVsts 1) (wX 8 0 6 0 0x11) (0x1E, 0x11) (took (1 + 2 ^ 11) 0 0),
    meets { tSeg with wbuf := [[(0x10004, [0, 0, 0, 0])]] } (.qLdw 1) (wM 0x14 3 0 0 4) (0x14, 0)
      (fun t => (t.core 3).load == none && (t.core 3).pc == 0),
    meets { tSeg with wbuf := List.replicate 8 [(0x10004, [0])] } (.qStw 1) (wM 0x17 3 0 0 4) (0x17, 0)
      (fun t => (t.core 3).wbuf.length == 8 && (t.core 3).pc == 0)].all id = true := by decide +kernel
/-- The pc and what a test says of the lead core. -/
def at_ (pc : W32) (p : CoreSt → Bool) (t : State) : Bool := (t.core 3).pc == pc && p (t.core 3)

theorem test_control : [
    meets tSeg (.qBez 1) (0x20 * 2 ^ 26 + 0 * 2 ^ 21 + 4) (0x20, 0) (at_ 16 fun c => c.cycle == 12),
    meets tSeg (.qBez 1) (0x20 * 2 ^ 26 + 1 * 2 ^ 21 + 4) (0x20, 0) (at_ 4 fun c => c.cycle == 6),
    meets tSeg (.qBnz 1) (0x21 * 2 ^ 26 + 1 * 2 ^ 21 + 0x1FFFFF) (0x21, 0) (at_ 0xFFFFFFFC fun c => c.cycle == 12),
    meets tSeg (.qJ 1) (0x22 * 2 ^ 26 + 8) (0x22, 0) (at_ 32 fun c => c.instret == 1),
    meets tSeg (.qJl 1) (0x23 * 2 ^ 26 + 8) (0x23, 0) (at_ 32 fun c => c.getG 31 == 4),
    meets tSeg (.qJr 1) (wR 0x30 0 8 0 0 0x08) (0x30, 0x08) (at_ 0x2000 fun c => c.ecause == 0),
    meets tSeg (.qJlr 1) (wR 0x30 8 8 0 0 0x09) (0x30, 0x09) (at_ 0x2000 fun c => c.getG 8 == 4),
    meets tSeg (.qJr 1) (wR 0x30 0 1 0 0 0x08) (0x30, 0x08) (took 4 7 7),
    meets tSeg (.qJlr 1) (wR 0x30 9 1 0 0 0x09) (0x30, 0x09) (fun t => took 4 7 7 t && (t.core 3).getG 9 == 4)].all id = true := by
  decide +kernel

/-- System instructions: rd, ra and a 10-bit field. -/
def wS (rd ra f10 fn : Nat) : Nat := wI 0x30 rd ra (f10 * 2 ^ 6 + fn)

/-- A core inside a handler: EXL = 1, EPC 0x80, ESTATUS with IE; FEPC 0xC0. -/
def tSys : CoreSt :=
  { tSeg with qstatus := 0x20, epc := 0x80, estatus := 0x08, fepc := 0xC0, festatus := 0x10, eaddr := 0x1234, instret := 3, cycle := 9 }

theorem test_system : [
    meets tSys (.qRfe 1) (wS 0 0 0 0x02) (0x30, 0x02) (at_ 0x80 fun c => c.qstatus == 0x08),
    meets { tSys with qstatus := 0x40 } (.qRff 1) (wS 0 0 0 0x03) (0x30, 0x03) (at_ 0xC0 fun c => c.qstatus == 0x10),
    meets tSeg (.qRff 1) (wS 0 0 0 0x03) (0x30, 0x03) (took 1 0 0),
    meets tSys (.qMfc 1 0) (wR 0x30 3 0 0 0 0x04 + 4 * 2 ^ 6) (0x30, 0x04) (at_ 4 fun c => c.getG 3 == 0x1234),
    meets tSys (.qMfc 1 100) (wS 3 0 10 0x04) (0x30, 0x04) (at_ 4 fun c => c.getG 3 == 100),
    meets tSys (.qMfc 1 0) (wS 3 0 12 0x04) (0x30, 0x04) (at_ 4 fun c => c.getG 3 == 3),
    meets tSys (.qMfc 1 0) (wS 3 0 14 0x04) (0x30, 0x04) (at_ 4 fun c => c.getG 3 == 1),
    meets tSeg (.qMfc 1 0) (wS 3 0 15 0x04) (0x30, 0x04) (took 1 0 0),
    meets tSys (.qMtc 1) (wS 0 5 0 0x05) (0x30, 0x05) (at_ 4 fun c => c.qstatus == 0x1F3E),
    meets tSys (.qMtc 1) (wS 0 1 1 0x05) (0x30, 0x05) (at_ 4 fun c => c.epc == 7),
    meets tSys (.qMtc 1) (wS 0 1 14 0x05) (0x30, 0x05) (at_ 4 fun c => c.epc == 0x80),
    meets tSeg (.qMtc 1) (wS 0 1 255 0x05) (0x30, 0x05) (took 1 0 0),
    meets tSeg (.qFence 1) (wS 0 0 0 0x06) (0x30, 0x06) (at_ 4 fun c => c.lines == []),
    meets { tSeg with wbuf := [[(0x10000, [0])]] } (.qFence 1) (wS 0 0 0 0x06) (0x30, 0x06) (at_ 0 fun c => c.wbuf.length == 1),
    meets tSeg (.qWait 1) (wS 0 0 0 0x07) (0x30, 0x07) (at_ 4 fun c => c.waiting),
    meets tSeg (.qTrap 1) (wS 0 0 1023 0x00) (0x30, 0x00) (took 0xFFC00009 4 0),
    meets tSeg (.qBrk 1) (wS 0 0 0 0x01) (0x30, 0x01) (took 10 0 0),
    meets tSeg (.qIllegal 1) 0 (0, 0) (took 1 0 0),
    meets tSys (.qBrk 1) (wS 0 0 0 0x01) (0x30, 0x01) (at_ 0 fun c => c.halted && c.epc == 0x80)].all id = true := by
  decide +kernel

/-- Segment instructions: sd, the segment of the descriptor, the base register. -/
def wG (sd ss rb pc fn : Nat) : Nat := 0x30 * 2 ^ 26 + sd * 2 ^ 22 + ss * 2 ^ 19 + rb * 2 ^ 14 + pc * 2 ^ 9 + fn

theorem test_segments : [
    meets tSeg (.qSegld 1) (wG 8 0 6 1 0x10) (0x30, 0x10) (waits (.seg 8 7 16) 4 [0x10010, 0x10014, 0x10018, 0x1001C]),
    meets tSeg (.qSegst 1) (wG 0 0 6 0 0x11) (0x30, 0x11)
      (buffered [(0x10010, [0, 0, 1, 0]), (0x10014, [0, 0, 0, 0]), (0x10018, [0, 0x10, 0, 0]), (0x1001C, [3, 0, 0, 0])]),
    meets tSeg (.qSegld 1) (wG 9 0 6 1 0x10) (0x30, 0x10) (took 1 0 0),
    meets tSeg (.qEnq 1) (wS 0 4 0 0x20) (0x30, 0x20) (took 1 0 0),
    meets tSeg (.qEnqv 1) (wS 0 1 0 0x21) (0x30, 0x21) (took 1 0 0)].all id = true := by decide +kernel

/-- The Compositor's pair executes, both cores at c. -/
def tC (c : CoreSt) : State :=
  { State.reset with comp := { State.reset.comp with cores := [0, 1], phase := 1 }, cores := [(0, c), (1, c)]
                     mem := { State.reset.mem with regions := [(0, { base := 0, size := 0, r := true, w := true, whole := true })] } }

/-- ENQ and ENQV on the Compositor: the instruction joins the queue; a full queue stalls, and with a store in the write buffer ENQ
waits. -/
theorem test_enq :
    let c := code (wS 0 4 0 0x20) tSeg
    let v := code (wS 0 1 0 0x21) tSeg
    let s := tC c
    let full := { s with seq := { s.seq with queue := List.replicate 64 0 } }
    (s.complexCores 0 = [0, 1] ∧ s.seq.discard = false ∧ s.fetchCheck 0 c matches .ok 0) ∧
    goes (exec (.qEnq 0) s) (fun t => t.seq.queue == [1 + 0xFFFFFFFE * 2 ^ 32 + 16 * 2 ^ 64 + 0x11223344 * 2 ^ 96] &&
      (t.core 1).pc == 4) = true ∧
    goes (exec (.qEnqv 0) (tC v)) (fun t => t.seq.queue.length == 1 && (t.core 0).pc == 4) = true ∧
    goes (exec (.qEnq 0) full) (fun t => (t.core 0).pc == 0 && t.seq.queue.length == 64) = true := by decide +kernel

/-- The data of a load of the Colophon arrives. -/
def tLoad (l : Load) : State :=
  { tQ { tSeg with load := some l } with mem := { State.reset.mem with stone := [(0x10001, 0x80), (0x10008, 0x10), (0x1000C, 7)] } }

theorem test_load_data : [
    goes (exec (.quireLoadData 1) (tLoad { dst := .g 3 1 true, size := 1, addrs := [0x10001] }))
      (fun t => (t.core 3).getG 3 == 0xFFFFFF80 && (t.core 4).pc == 4 && (t.core 4).instret == 1),
    goes (exec (.quireLoadData 1) (tLoad { dst := .g 3 1 false, size := 1, addrs := [0x10001] })) (fun t => (t.core 3).getG 3 == 0x80),
    goes (exec (.quireLoadData 1) (tLoad { dst := .g 3 2 true, size := 2, addrs := [0x10000] })) (fun t => (t.core 3).getG 3 == 0xFFFF8000),
    goes (exec (.quireLoadData 1) (tLoad { dst := .f 9, size := 4, addrs := [0x10000] })) (fun t => (t.core 3).getF 9 == 0x8000),
    goes (exec (.quireLoadData 1) (tLoad { dst := .v 7, size := 4, addrs := (List.range 8).map (0x10000 + 4 * ·) }))
      (fun t => (t.core 3).getF 56 == 0x8000 && (t.core 3).getF 58 == 0x10),
    goes (exec (.quireLoadData 1) (tLoad { dst := .seg 1 0 0, size := 4, addrs := [0x10000, 0x10004, 0x10008, 0x1000C] }))
      (fun t => (t.core 3).getSeg 1 == { base := 0x8000, limit := 0x10, rights := 7 }),
    goes (exec (.quireLoadData 1) (tLoad { dst := .seg 8 0x20 0, size := 4, addrs := [0x10000, 0x10004, 0x10008, 0x1000C] }))
      (fun t => (t.core 3).getSeg 8 == { base := 0x8000, limit := 0x10, rights := 7 } && (t.core 3).pc == 0x20),
    goes (exec (.quireLoadData 1) (tLoad { dst := .seg 8 0x20 4, size := 4, addrs := [0x10010, 0x10014, 0x10018, 0x1001C] })) (took 8 0 4),
    goes (exec (.quireLoadData 1) (tLoad { dst := .v 7, size := 4, addrs := [0x10000, 0x08000000] }))
      (took (7 + 2 ^ 8 + 2 ^ 11) 0 0x08000000)].all id = true := by decide +kernel

/-- A source of the Event Controller that requests the Colophon: source 5, priority 3, normal or fast. -/
def tIrq (fast : Nat) (q : W32) : State :=
  let s := (((tQ { tSeg with qstatus := q, hvecNormal := 0x100, hvecFast := 0x200, waiting := true }).put pgEVTCFG
    (EVT_SRC_CFG_TARGET.at 5) 2).put pgEVTCFG (EVT_SRC_CFG_PRIO.at 5) 3).put pgEVTCFG (EVT_SRC_CFG_CLASS.at 5) fast
  ((s.put pgEVTCFG EVT_SRC_EN 0x20).put pgEVTCFG EVT_SRC_PEND 0x20)

theorem test_interrupts :
    ((tIrq 0 0x08).presented 1 false).isSome = true ∧ ((tIrq 1 0x10).presented 1 true).isSome = true ∧
    goes (exec (.interruptEntryNormal 1) (tIrq 0 0x08)) (fun t => (t.core 3).pc == 0x100 && (t.core 3).ecause == 16 && (t.core 4).exl)
      = true ∧
    goes (exec (.interruptEntryNormal 1) (tIrq 0 0x28)) (fun t => (t.core 3).pc == 0) = true ∧
    goes (exec (.interruptEntryFast 1) (tIrq 1 0x10)) (fun t => (t.core 3).pc == 0x200 && (t.core 4).fast) = true ∧
    goes (exec (.interruptEntryFast 1) (tIrq 1 0x50)) (fun t => (t.core 3).pc == 0) = true ∧
    goes (exec (.waitRelease 1) (tIrq 0 0)) (fun t => !(t.core 3).waiting) = true ∧
    goes (exec (.waitRelease 1) (tQ { tSeg with waiting := true })) (fun t => (t.core 3).waiting) = true := by decide +kernel

theorem test_store_drain :
    let s := tQ { tSeg with wbuf := [[(0x10000, [1, 2])], [(0x10004, [3])]] }
    (s.drainCores 1 = [3, 4] ∧ s.memOk 0x10000 2 = true ∧ s.mem.badStone = [] ∧ s.mem.badReel = []) ∧
    goes (exec (.storeDrain 1) s) (fun t => t.mem.stone == [(0x10000, 1), (0x10001, 2)] && (t.core 4).wbuf == [[(0x10004, [3])]]) =
      true := by decide +kernel

/-- No word of memory is uncorrectable while none is listed. -/
theorem test_isBad (s : State) (h1 : s.mem.badStone = []) (h2 : s.mem.badReel = []) : ∀ w, s.isBad w = false := by
  intro w; unfold State.isBad; rw [h1, h2]; split <;> rfl

theorem test_register_file :
    let c := { tInt with qstatus := 0x40 }
    c.fast = true ∧ (c.setG 31 9).getG 31 = 9 ∧ (c.setG 31 9).g = c.g ∧ (c.setG 0 9).getG 0 = 0 ∧ (c.setG 15 9).g ≠ c.g := by
  decide +kernel

/-- The invariants hold at reset and in a state with cores and memory in use. -/
theorem test_invariants : State.reset.memWf = true ∧ (tLoad { dst := .g 3 1 true, size := 1, addrs := [0x10001] }).memWf = true ∧
    (State.reset.core 3).pc = alignPc (State.reset.core 3).pc ∧
    goes (step { tQ { tSeg with wbuf := [[(0x10000, [1, 2])]] } with pending := [.storeDrain 1, .qAdd 1] })
      (fun t => t.memWf && t.pending == [.qAdd 1]) = true := by decide +kernel
/-! ## The Forme array and the sequencer -/

/-- The word of a Forme instruction (R297). -/
def fm (op mod greg scalar : Nat) (fa fb fd : Nat × Nat) (ctx : Nat := 0) : Nat :=
  op + mod * 2 ^ 10 + ctx * 2 ^ 26 + greg * 2 ^ 28 + fa.2 * 2 ^ 33 + fa.1 * 2 ^ 40 + fb.2 * 2 ^ 54 + fb.1 * 2 ^ 61 +
    fd.2 * 2 ^ 75 + fd.1 * 2 ^ 82 + scalar * 2 ^ 96

def tRoutine (i : Nat) : Routine :=
  { instr := i, micro := false, uaddr := 0x8000, cycles := 0, lc0 := 0, lc1 := 0, bi := 0, pa := 0, pb := 0, pw := 0, stack := [], wait := none,
    ticked := false, budget := 0x10000 }

/-- One row of the array in service and a routine running. -/
def tForme (i : Nat) : State :=
  let s := (up [pgFORME, pgCOMPOSITOR, pgCSTORE, pgGALLEY 0, pgDRIVE]).put pgFORME FORME_STATUS_ROWS 1
  { s with seq := { s.seq with cur := some (tRoutine i) } }

/-- The conditions of the ROM routines hold with a row in service. -/
theorem test_routine_ready (i : Nat) (cycles : Nat → Nat) (h : cycles i ≤ 0x10000) : RoutineReady (tForme i) (fmOp i) cycles i :=
  ⟨⟨tRoutine i, rfl, rfl, rfl, rfl, h⟩, ⟨rfl, rfl, rfl, rfl, rfl, rfl, fun _ => ⟨rfl, rfl, rfl⟩⟩,
    fun _ _ => ⟨rfl, rfl, (by decide : SortSt.reset.stickBad = false), rfl⟩⟩

theorem test_row_map (i : Nat) : RowMapInjective (tForme i) := by
  intro a b ha hb _
  have h : (tForme i).rows = 1 := by
    show (((up [pgFORME, pgCOMPOSITOR, pgCSTORE, pgGALLEY 0, pgDRIVE]).put pgFORME FORME_STATUS_ROWS 1).rows) = 1
    decide +kernel
  omega

/-- A sort with C = 1, T0 = 1 and the bytes 0x90, 0x85 and 3 in its first three words. -/
def tSort : SortSt := { SortSt.reset with mem := [(0, 0x90), (1, 0x85), (2, 3)], flags := 0x13 }

/-- The word of an instruction on the three fields of that sort, each 8 bits wide. -/
def fm8 (mod scalar : Nat) (op : Nat := 0) : Nat := fm op mod 0 scalar (0, 8) (32, 8) (64, 8)

/-- What a routine forms: D and the flags written. -/
def forms (o : RomOut) (d : Option Nat) (fs : List (Nat × Bool)) : Bool := o.d == d && o.flags == fs

/-- R313 to R316 by hand: A = 0x90, B = 0x85. -/
theorem test_rom_arithmetic : [
    forms (romMov (fm8 0 1) tSort) (some 0x20) [],
    forms (romMovh (fm8 0 1) tSort) (some 0x90) [],
    forms (romSeti (fm8 0 0x1FF) tSort) (some 0xFF) [],
    forms (romGetf (fm8 (1 * 2 ^ 8 + 8) 0) tSort) (some 0xFF) [],
    forms (romAdd (fm8 0 0) tSort) (some 0x15) [(0, true)],
    forms (romAddc (fm8 0 0) tSort) (some 0x16) [(0, true)],
    forms (romSub (fm8 0 0) tSort) (some 0x0B) [(0, true)],
    forms (romSubc (fm8 0 0) tSort) (some 0x0B) [(0, true)],
    forms (romNeg (fm8 0 0) tSort) (some 0x70) [(0, false)],
    forms (romAbs (fm8 8 0) tSort) (some 0x70) [(7, true), (0, false)],
    forms (romAdds (fm8 14 0) tSort) (some 0x80) [(7, true), (0, false)],
    forms (romSubs (fm8 14 0) tSort) (some 0x0B) [(7, false), (0, false)],
    forms (romMul (fm8 0 0) tSort) (some 0xD0) [(0, false)],
    forms (romMac (fm8 0 0) tSort) (some 0xD3) [(0, false)]].all id = true := by decide +kernel

/-- R318 to R321 by hand. -/
theorem test_rom_logic : [
    forms (romAnd (fm8 0 0) tSort) (some 0x80) [],
    forms (romOr (fm8 0 0) tSort) (some 0x95) [],
    forms (romXor (fm8 0 0) tSort) (some 0x15) [],
    forms (romAndn (fm8 0 0) tSort) (some 0x10) [],
    forms (romNot (fm8 0 0) tSort) (some 0x6F) [],
    forms (romBool (fm8 0 0x80) tSort) (some 0x80) [],
    forms (romCmp (fm8 (2 * 2 ^ 13 + 1 * 2 ^ 8) 0) tSort) none [(0, false), (4, false)],
    forms (romTst (fm8 (1 * 2 ^ 8) 0) tSort) none [(4, true)],
    forms (romFlag (fm8 (1 * 2 ^ 8) 0x19) tSort) none [(4, false)],
    forms (romSel (fm8 (1 * 2 ^ 8) 0) tSort) (some 0x90) [],
    forms (romMax (fm8 12 0) tSort) (some 0x90) [(7, true), (0, false)],
    forms (romMin (fm8 0 0) tSort) (some 0x85) [(7, false), (0, false)]].all id = true := by decide +kernel

/-- R302: a field store leaves the bits beside it. -/
theorem test_field_store : (tSort.setField 4 40 0xAB12345678).mem = [(0, 0x23456780 + 0), (1, 0x00000AB1), (2, 3)] := by decide +kernel

/-- The compositor's pair, no row in service: what a routine leaves beside the array. -/
def tSeq (i : Nat) : State :=
  let s := up [pgFORME, pgCOMPOSITOR, pgCSTORE, pgGALLEY 0, pgDRIVE]
  { s with seq := { s.seq with cur := some (tRoutine i) } }

theorem test_routine_ends : [
    goes (exec .fmNop (tSeq (fm 0 0 0 0 (0, 0) (0, 0) (0, 0)))) (fun t => t.seq.cur == none && t.seq.fc == 1),
    goes (exec .fmAdd (tSeq (fm8 0 0 0x008))) (fun t => t.seq.cur == none && t.seq.fc == 12),
    goes (exec .fmMul (tSeq (fm8 0 0 0x010))) (fun t => t.seq.fc == 86),
    goes (exec .fmNews (tSeq (fm8 0x80 0 0x028))) (fun t => t.seq.fc == 11),
    goes (exec .fmNews (tSeq (fm8 0 0 0x008))) (fun t => t.seq.cur.isSome && t.seq.fc == 0)].all id = true := by decide +kernel

/-- R246, R323: the source of a NEWS transfer, at the edges of the array and of a galley. -/
theorem test_news_source :
    (tForme 0).newsSource 0 true 5 31 = some (5, 0) ∧ (tForme 0).newsSource 1 true 0 3 = some (511, 3) ∧
    (tForme 0).newsSource 3 true 7 0 = some (7, 31) ∧ (tForme 0).newsSource 2 false 31 3 = none ∧
    (tForme 0).newsSource 2 false 30 3 = some (31, 3) := by decide +kernel

theorem test_platen : [
    goes (exec .fmPlor (tSeq (fm 0x030 0 5 0 (0, 0) (0, 0) (0, 0)))) (fun t =>
      t.seq.platen == [{ op := 1, greg := 5, result := 0, due := 21, overtaken := false }] && t.seq.fc == 1 && t.seq.cur == none),
    goes (exec .fmPland (tSeq (fm 0x031 0 5 0 (0, 0) (0, 0) (0, 0)))) (fun t => (t.seq.platen.map (·.result)) == [1]),
    goes (exec .fmPlabt (tSeq (fm 0x032 0 0 0 (0, 0) (0, 0) (0, 0)))) (fun t => (t.seq.platen.map (·.op)) == [3]),
    goes (exec .fmPlcnt (tSeq (fm 0x033 0 5 0 (0, 0) (0, 0) (0, 0)))) (fun t => (t.seq.platen.map (·.due)) == [41]),
    goes (exec .fmPlfst (tSeq (fm 0x034 0 5 0 (0, 0) (0, 0) (0, 0)))) (fun t => (t.seq.platen.map (·.result)) == [0x40000])].all id =
      true := by decide +kernel

/-- A due Platen result, nothing else running. -/
def tDue (op r v : Nat) : State :=
  let s := up [pgFORME, pgCOMPOSITOR, pgDRIVE]
  { s with seq := { s.seq with platen := [{ op := op, greg := r, result := v, due := 3, overtaken := false }], marked := [r] }
           comp := { s.comp with cores := [0, 1], phase := 1 } }

theorem test_platen_result : [
    goes (exec (.platenResult 100) (tDue 4 5 9)) (fun t => (t.core 1).getG 5 == 9 && t.seq.platen == [] && t.seq.marked == []),
    goes (exec (.platenResult 100) (tDue 1 17 1)) (fun t => bit (t.get pgFORME FORME_TAPS_TAP) 1),
    goes (exec (.platenResult 100) (tDue 3 0 1)) (fun t => t.drive.abortPlane && t.get pgDRIVE DRIVE_FADE_STATUS_STATE == 1 &&
      t.drive.fadeCause == 2 && t.cores == [])].all id = true := by decide +kernel

/-- Galley transfers: the conditions of each case at a boundary, and their outcome. -/
def ldg (op mode base : Nat) : Nat := fm op mode 0 base (0, 0) (0, 0) (0, 0)

theorem test_galley_start :
    let i := ldg 0x038 0 0x1000
    let s := tForme i
    let tr := transferOf i true
    (s.outsideStone tr.base (s.transferLen tr) = none ∧ s.regionOk 10 tr.base (s.transferLen tr) false = false ∧
      goes (exec .fmLdg s) (fun t => t.forme.io == none && t.fault.net == [⟨0x031, 18, 0x1000, 10⟩]) = true) ∧
    (let s1 : State := { s with mem := { s.mem with regions := [(160, { base := 0, size := 0, r := true, w := true, whole := true })] } }
     s1.regionOk 10 tr.base (s1.transferLen tr) false = true ∧
      goes (exec .fmLdg s1) (fun t => t.forme.io == some tr && t.seq.fc == 4) = true) ∧
    (let j := ldg 0x039 0 0x03FFFFFC
     (tForme j).outsideStone 0x03FFFFFC ((tForme j).transferLen (transferOf j false)) = some 0x04000000 ∧
      goes (exec .fmStg (tForme j)) (fun t => t.fault.net == [⟨0x031, 18, 0x04000000, 10 + 96⟩]) = true) ∧
    goes (exec .fmLdg (tSeq (ldg 0x038 2 0))) (fun t => t.forme.io.isSome) = true := by decide +kernel

/-- A transfer under way: FM.LDG waits. One galley word of WORD mode inbound, and outbound with no row. -/
theorem test_galley_done :
    let tr := transferOf (ldg 0x038 0 0x1000) true
    let s := tSeq (ldg 0x038 0 0)
    goes (exec .fmLdg { s with forme := { s.forme with io := some tr } }) (fun t => t.seq.cur.isSome) = true ∧
    (tr.base + (16 * 1 - 1) * 4 * tr.stride + 4 * tr.words ≤ 0x04000000 ∧ tr.colFirst + tr.colCount ≤ 32 ∧ tr.moved = 0 ∧
      (tForme 0).memOk 0 0x04000000 = true) ∧
    goes (exec .galleyIoDone { s with forme := { s.forme with io := some tr } }) (fun t => t.forme.io == none) = true ∧
    goes (exec .galleyIoDone { s with forme := { s.forme with io := some { tr with inbound := false } } }) (fun t => t.forme.io == none) =
      true := by decide +kernel

/-- FM.WAIT (R340): codes 0 to 4, ended, waiting, abandoned. -/
def tWait (code scalar : Nat) (c : Routine → Routine := id) (q : SeqSt → SeqSt := id) : State :=
  let s := tSeq (fm 0x03C code 0 scalar (0, 0) (0, 0) (0, 0))
  { s with seq := q { s.seq with cur := some (c (tRoutine (fm 0x03C code 0 scalar (0, 0) (0, 0) (0, 0)))) } }

theorem test_waits :
    let busy : SeqSt → SeqSt := fun q => { q with platen := [{ op := 1, greg := 1, result := 0, due := 30, overtaken := false }] }
    let w : Routine → Routine := fun c => { c with wait := some 0 }
    let short : Routine → Routine := fun c => { c with wait := some 0, budget := 8 }
    goes (exec .fmWait (tWait 0 10)) (fun t => t.seq.cur == none && t.seq.fc == 2) = true ∧
    goes (exec .fmWait (tWait 0 10 id busy)) (fun t => (t.seq.cur.bind (·.wait)) == some 0) = true ∧
    goes (exec .fmWait (tWait 1 10)) (fun t => t.seq.cur == none) = true ∧
    goes (exec .fmWait (tWait 3 10 (fun c => { c with ticked := true }))) (fun t => t.seq.cur == none) = true ∧
    goes (exec .fmWait (tWait 4 10)) (fun t => t.seq.cur.isSome) = true ∧
    goes (exec (.fmWaitEnd 9) (tWait 0 10 w)) (fun t => t.seq.cur == none && t.seq.fc == 11) = true ∧
    (((tWait 0 10 w busy).seq.cur.map fun c => (tWait 0 10 w busy).fmWaitHolds c 9) = some false ∧
      goes (exec .waitTimeout (tWait 0 10 w busy)) (fun _ => true) = true) ∧
    (((tWait 0 8 short busy).seq.cur.map fun c => (tWait 0 8 short busy).fmWaitHolds c 7) = some false ∧
      goes (exec .routineBudgetExpiry (tWait 0 8 short busy)) (fun _ => true) = true) := by decide +kernel

/-- The sequencer between routines with a queue. -/
def tQueue (q : List Nat) (on : Nat := 1) : State :=
  let s := (up [pgFORME, pgCOMPOSITOR, pgCSTORE]).put pgCOMPOSITOR COMP_SEQ_CTRL_ENABLE on
  { s with seq := { s.seq with queue := q }, comp := { s.comp with phase := 1, cores := [0, 1] } }

theorem test_dispatch :
    (tQueue []).refusal (fm8 0 0 0x008) = none ∧ (tQueue []).refusal (fm8 0 0 0x2FF) = some 1 ∧
    (tQueue []).refusal (fm8 0 0 0x300) = some 2 ∧
    goes (exec .routineBoundary (tQueue [fm8 0 0 0x008, 7])) (fun t =>
      (t.seq.cur.map (·.instr)) == some (fm8 0 0 0x008) && t.seq.queue == [7] && (t.seq.cur.map (·.pb)) == some 1) = true ∧
    goes (exec .routineBoundary (tQueue [fm8 0 0 0x2FF])) (fun t => t.seq.queue == [] && t.get pgCOMPOSITOR COMP_REFUSED == 1 &&
      t.fault.net == [⟨0x010, 2, 0, 1 * 2 ^ 24 + 0x2FF⟩]) = true ∧
    goes (exec .routineBoundary (tQueue [fm8 0 0 0x008] 0)) (fun t => t.seq.cur == none && t.seq.queue.length == 1) = true := by
  decide +kernel

/-- A customer routine at its word: DISPATCH with TT_C = 0xFF, a reserved word, an uncorrectable one. -/
def tCustomer (w : Nat) (bad : List Nat := []) : State :=
  let s := tSeq (fm 0x300 0 0 0 (0, 8) (0, 8) (64, 8))
  let c := { tRoutine (fm 0x300 0 0 0 (0, 8) (0, 8) (64, 8)) with micro := true }
  { s with seq := { s.seq with cur := some c }, cstore := { s.cstore with words := [(0x8000, w)], bad := bad } }

theorem test_customer :
    let w := 5 * 2 ^ 159 + 0xFF * 2 ^ 31
    (mwReserved w = false ∧ bits w 142 137 = 0 ∧ bits w 30 27 = 0 ∧ mwReserved (7 * 2 ^ 159) = true) ∧
    goes (exec (.customerRoutine 0) (tCustomer w)) (fun t => t.seq.cur == none && t.seq.fc == 1 && !t.seq.discard) = true ∧
    goes (exec (.customerRoutine 0) (tCustomer (7 * 2 ^ 159))) (fun t => t.seq.discard && t.get pgCOMPOSITOR COMP_ABANDON_CAUSE == 3 &&
      t.get pgCOMPOSITOR COMP_ABANDON_OPCODE == 0x300 && t.get pgCOMPOSITOR COMP_ABANDON_UADDR == 0x8000) = true ∧
    goes (exec (.customerRoutine 0) (tCustomer w [0x8000])) (fun t => t.get pgCOMPOSITOR COMP_ABANDON_CAUSE == 6) = true := by
  decide +kernel

theorem test_sequencer_control :
    let s := free (tQueue [5]) 0
    let d : State := { s with seq := { s.seq with discard := true } }
    let r := free (tSeq 0) 0
    (s.accepts 0 pgCOMPOSITOR 0x048 = true ∧ d.accepts 0 pgCOMPOSITOR 0x048 = true) ∧
    goes (exec (.seqEnableWrite 0 0) s) (fun t => !t.on pgCOMPOSITOR COMP_SEQ_CTRL_ENABLE && t.seq == s.seq) = true ∧
    goes (exec (.seqRearm 0 5) d) (fun t => !t.seq.discard) = true ∧
    goes (exec (.seqFlush 0 3) s) (fun t => t.seq.discard && t.seq.queue == []) = true ∧
    goes (exec (.seqFlush 0 3) r) (fun t => t.seq.flush && t.seq.cur.isSome) = true := by decide +kernel

def tStore : State := free (up [pgCSTORE]) 1
def tBytes : List Byte := List.replicate 24 1

theorem test_control_store :
    let run : State := { tStore with seq := { tStore.seq with cur := some (tRoutine 0) } }
    (tStore.regionOk 1 (cstoreBase + 32 * 0x9FFF) 24 true = true ∧ tStore.regionOk 1 (cstoreBase + 32 * 0x7FFF) 24 true = true) ∧
    goes (exec (.cstoreWindowWrite 1 (cstoreBase + 32 * 0x8000) tBytes) run) (fun t =>
      t.cstore.words == [] && t.cstore.staging.isSome && t.on pgCSTORE CSTORE_STATUS_STAGED) = true ∧
    goes (exec (.cstoreWindowWrite 1 (cstoreBase + 32 * 0x7FFF) tBytes) tStore) (fun t => t.get pgCSTORE IGNORED_CAUSE_REASON == 5) = true := by
  decide +kernel

theorem test_dispatch_entry :
    let e := tStore.put pgCSTORE CSTORE_DISPATCH_INDEX_INDEX 768
    e.accepts 1 pgCSTORE 0x048 = true ∧
    goes (exec (.dispatchEntryWrite 1 0x80009FFF) e) (fun t => t.reg pgCSTORE 0x048 769 == 0x80009FFF) = true := by decide +kernel

theorem test_match_write : tStore.accepts 1 pgCSTORE 0x050 = true ∧ tStore.quoined pgCSTORE = false ∧
    goes (exec (.cstoreMatchWrite 1 0xFFFF7FFF) tStore) (fun t => t.reg pgCSTORE 0x050 1 == 0x83FF7FFF) = true := by decide +kernel

def tArray : State := free (up [pgFORME, pgGALLEY 0]) 1

theorem test_flag_copies : (tArray.sort (sortKey 15 16 32 31)).e = false ∧ tArray.on pgFORME FORME_E_FIRST_VALID = false ∧
    15 * 17 + 16 ∉ tArray.forme.told ∧ tArray.seq.cur = none := by decide +kernel

theorem test_e_clear :
    let d := tArray.setSort (sortKey 15 16 32 31) { SortSt.reset with e := true }
    (d.sort (sortKey 15 16 32 31)).e = true ∧ d.accepts 1 pgFORME 0x040 = true ∧
    SMap.wf (fun _ => SortSt.reset) d.forme.sorts = true ∧
    goes (exec (.flagCopyMismatch 15 16 32 31) d) (fun t => t.fault.net == []) = true ∧
    goes (exec (.eClearWrite 1 2) d) (fun t => !(t.sort (sortKey 15 16 32 31)).e && t.forme.told == []) = true := by decide +kernel

theorem test_e_clear_waits : goes (exec (.eClearWrite 1 2) (free (tSeq 0) 1)) (fun t => t.forme.eClear) = true := by decide +kernel

theorem test_scrub :
    goes (exec .caseScrubDue { tArray with forme := { tArray.forme with scrubAddr := 511 } }) (fun t => t.forme.scrubAddr == 0) = true ∧
    goes (exec .caseScrubDue (tSeq 0)) (fun t => t.forme.scrubDue) = true := by decide +kernel

theorem test_debug_window :
    let s := (free (up [pgFORME, pgGALLEY 15]) 1).put pgFORME FORME_CTRL_DEBUG_EN 1
    (s.accepts 1 (pgGALLEY 15) 0x090 = true ∧ s.accepts 1 (pgGALLEY 15) 0x094 = true ∧
      s.on (pgGALLEY 15) GALLEY_DBG_STATUS_BUSY = false) ∧
    goes (exec (.dbgAddrWrite 15 1 0x00000003) s) (fun t => t.on (pgGALLEY 15) GALLEY_DBG_STATUS_BUSY &&
      goes (exec (.dbgDone 15) t) (fun u => !u.on (pgGALLEY 15) GALLEY_DBG_STATUS_BUSY)) = true ∧
    goes (exec (.dbgDataWrite 15 1 0x12345678) s) (fun t =>
      goes (exec (.dbgDone 15) t) (fun u => u.forme.sorts.length == 1 && u.forme.dbg == [])) = true := by decide +kernel

/-! ## Impressions and the standing program -/

/-- Three Compositor cores in service, the pair 0 and 1, a standing program with its time set. -/
def tComp (phase after : Nat) : State :=
  let s := up [pgCOMPOSITOR, pgFORME, pgJOBS, pgPTP, pgDRIVE, pgEVT]
  let s := (s.put pgCOMPOSITOR COMP_PAIR_FIRST 0).put pgCOMPOSITOR COMP_PAIR_SECOND 1
  let s := (s.put pgCOMPOSITOR COMP_PAIR_SPARE 2).put pgCOMPOSITOR COMP_PAIR_PAIR_OK 1
  let s := (List.range 3).foldl (fun s k => s.put pgCOMPOSITOR (coreStateFld k) (if k = 2 then 1 else 2)) s
  let s := (s.put pgJOBS JOBS_SP_STATUS_LOADED 1).put pgPTP PTP_STATUS_TIME_SET 1
  { s with comp := { s.comp with phase := phase, after := after, cores := [0, 1] } }

def told (s : State) : State := { s with sp := { s.sp with told := true } }

theorem test_quiet : Quiet (told (tComp 2 0)) ∧ Quiet (free (tComp 3 2) 0) := by
  unfold Quiet
  decide +kernel

theorem test_end_of_execution :
    let s := free (tComp 1 0) 0
    (s.accepts 0 pgCOMPOSITOR 0x064 = true ∧ (free (tComp 0 0) 0).accepts 0 pgCOMPOSITOR 0x064 = true) ∧
    goes (exec (.impEndWrite 0 1) s) (fun t => t.comp.phase == 2) = true ∧
    goes (exec (.impEndWrite 0 1) (free (tComp 0 0) 0)) (fun t => t.get pgCOMPOSITOR IGNORED_CAUSE_REASON == 10) = true ∧
    goes (exec (.impEndWrite 0 2) s) (fun t => t.comp == s.comp) = true := by decide +kernel

theorem test_execution_ends :
    let s := told (tComp 2 0)
    let v := (free s 0).put pgCOMPOSITOR COMP_IMP_STATUS_VOID 2
    let r := v.put pgCOMPOSITOR COMP_IMP_STATUS_RECOMPUTING 1
    (s.seq.queue = [] ∧ s.on pgCOMPOSITOR COMP_PAIR_TRIO = false ∧ s.eAny = false ∧ s.migrating = false ∧
      s.on pgFAULT FAULT_STATUS_FATAL = false) ∧
    goes (exec (.executionEnd 700) s) (fun t => t.comp.phase == 0 && t.comp.ended && t.get pgJOBS JOBS_IMP_LAST_NS == 700 &&
      t.get pgJOBS JOBS_IMP_MAX_NS == 700) = true ∧
    goes (exec (.executionEnd 700) v) (fun t => t.on pgCOMPOSITOR COMP_IMP_STATUS_RECOMPUTING && t.comp.phase == 1 &&
      t.comp.cores == [0, 1] && t.get pgCOMPOSITOR COMP_VOIDS == 1) = true ∧
    goes (exec (.executionEnd 700) r) (fun t => t.comp.phase == 0 && t.fault.net == [⟨0x018, 12, 0, 0⟩] &&
      t.get pgJOBS JOBS_IMP_RECOMP_MAX_NS == 700) = true := by decide +kernel

theorem test_impression_entry :
    let s := tComp 3 2
    let s1 := (s.putPair pgCOMPOSITOR COMP_ICB_LO COMP_ICB_HI 0x2000 1).setCore 0 { CoreSt.reset with cycle := 7 }
    let s2 := s.putPair pgCOMPOSITOR COMP_ICB_LO COMP_ICB_HI reelBase 1
    let b := { s1 with mem := { s1.mem with stone := [(0x2000, 0x43), (0x2044, 9)] } }
    (s.migrating = false ∧ placeOf (free b 0).icbAddr = .stone ∧ (free b 0).memOk 0x2000 1024 = true ∧
      (free b 0).regionOk 0 0x2000 1024 false = true ∧ placeOf s2.icbAddr ≠ .stone) ∧
    goes (exec (.executionEnd 700) (free b 0)) (fun t => t.comp.phase == 1 && (t.core 1).pc == 0x40 && (t.core 0).cycle == 7 &&
      (t.core 0).getG 1 == 9 && t.sp.entryAt == 0) = true ∧
    goes (exec (.executionEnd 700) (free s2 0)) (fun t => t.comp.phase == 4 && t.fault.net.contains ⟨0x019, 10, reelBase, 0⟩) = true :=
  by decide +kernel

theorem test_no_bad_word (p a : Nat) : ∀ w, ((tComp p a).isBad w) = false := by
  intro w
  have h1 : (tComp p a).mem.badStone = [] := rfl
  have h2 : (tComp p a).mem.badReel = [] := rfl
  simp [State.isBad, h1, h2, SMap.get]

theorem test_cross_check :
    let s := tComp 0 0
    let d := s.setCore 1 { s.core 0 with g := SMap.set 0 (s.core 0).g 31 5 }
    s.on pgCOMPOSITOR COMP_PAIR_PAIR_OK = true ∧ s.core 0 = s.core 1 ∧
    goes (exec .xcheckPass d) (fun t => t.get pgCOMPOSITOR COMP_XCHECK_DIFFS == 1 && t.fault.net == [⟨0x013, 8, 0, 31 + 3 * 256⟩]) = true ∧
    (s.pair2 = [0, 1] ∧ 0 ∈ s.coresInService ∧ 1 ∈ s.coresInService) ∧
    goes (exec (.spareCoreProof false) s) (fun t => t.get pgCOMPOSITOR COMP_PAIR_SPARE == 3 && t.fault.net == [⟨0x016, 9, 0, 2⟩]) = true ∧
    goes (exec (.halfPressExceeded 0xFFFFFFFF) (tComp 1 0)) (fun t => t.sp.told && t.get pgJOBS JOBS_HALF_PRESS_EXCEEDED == 1) = true := by
  decide +kernel

theorem test_migration_conditions :
    let s := (tComp 0 0).put (pgGALLEY 15) (GALLEY_COL_RETIRED_PENDING.at 16) 1
    s.migrating = true ∧ s.inExecution = false ∧ s.comp.after = 0 ∧
    goes (exec .migrationDone { s with comp := { s.comp with phase := 1 } }) (fun t => t.migrating) = true := by
  decide +kernel

theorem test_standing_program :
    let s := free (((tComp 0 0).put pgJOBS JOBS_SP_PERIOD_NS_P 250000).put pgJOBS JOBS_SP_STATUS_TRIGGER 2) 0
    let r := { s.put pgJOBS JOBS_SP_STATUS_RUNNING 1 with sp := { s.sp with next := 3, stage := false } }
    let stage : State := { r with sp := { r.sp with stage := true, imp := 3 } }
    let stop : State := { r with sp := { r.sp with stopping := true } }
    (s.accepts 0 pgJOBS 0x048 = true ∧ s.running = false) ∧
    goes (exec (.spStart 0 1 500000) s) (fun t => t.running && t.sp.next == 4 && t.get pgJOBS JOBS_SP_BLOCK0_LO == 4) = true ∧
    goes (exec (.spStart 0 1 500000) r) (fun t => t.get pgJOBS IGNORED_CAUSE_REASON == 10 && t.sp == r.sp) = true ∧
    goes (exec (.spStop 0 2) r) (fun t => t.sp.stopping) = true ∧
    goes (exec (.spStop 0 2) ((r.put pgDRIVE DRIVE_CTRL_ENABLE 1))) (fun t => t.get pgJOBS IGNORED_CAUSE_REASON == 10) = true ∧
    goes (exec (.impressionTick 1020000) r) (fun t => t.sp.next == 4 && t.sp.stage && t.sp.imp == 3 && t.comp.phase == 1 &&
      t.evt.incoming.contains 448) = true ∧
    goes (exec (.impressionTick 1020000) stage) (fun t => t.fault.net.contains ⟨0x017, 11, 0, 3⟩ && t.sp.next == 4) = true ∧
    goes (exec (.impressionTick 1020000) stop) (fun t => !t.running && t.impose.openBlock == none) = true ∧
    goes (exec (.impressionTick 1019999) r) (fun t => t.sp == r.sp && t.dev == 1019999) = true := by decide +kernel

/-! ## Job rings, tickets and the host endpoint -/

/-- The JOBS block, its masters and the host page in service, ring 15 of 4 entries in Stone at 0x10000 and 0x20000, device ready. -/
def tJobs (on : Nat := 1) : State :=
  let s := free (free (up [pgJOBS, pgHOST, pgEVT, pgCOMPOSITOR, pgWEB 7]) 14) 13
  let s := (s.put pgJOBS JOBS_CTRL_ENABLE 1).put pgJOBS (JOBS_RING_CFG_LOG2.at 15) 2
  let s := s.put pgJOBS (JOBS_RING_CFG_ENABLE.at 15) on
  let s := (s.put pgJOBS (JOBS_SQ_BASE_LO_ADDR.at 15) 0x400).put pgJOBS (JOBS_CQ_BASE_LO_ADDR.at 15) 0x800
  { s with device := { s.device with stage := 2, por := false } }

/-- A ticket of 64 bytes: KIND, FLAGS, and the fields of its body. -/
def tTicket (kind flags src dst len : Nat) : List Byte :=
  bytesLE 1 kind ++ bytesLE 1 flags ++ bytesLE 2 0 ++ bytesLE 4 0x1234 ++ bytesLE 8 src ++ bytesLE 8 dst ++ bytesLE 4 len ++
    List.replicate 36 0

/-- Ring 15 with one ticket fetched. -/
def tRing (b : List Byte) (fin : Option TicketEnd := none) (moved : Nat := 0) : State :=
  tJobs.setRing 15 { fetched := 1, done := 0, tickets := [{ k := 0, data := some b, started := moved != 0 || fin.isSome,
                                                            moved := moved, fin := fin }] }

/-- How the first ticket of ring 15 has ended. -/
def endOf (t : State) : Option TicketEnd := ((t.ring 15).tickets.head?.bind (·.fin))

theorem test_ring_registers :
    let s := tJobs
    let off := 0x114 + 32 * 15
    (s.accepts 1 pgJOBS off = true ∧ s.accepts 1 pgJOBS (off + 4) = true ∧ s.accepts 1 pgJOBS (off - 4) = true) ∧
    goes (exec (.jobsTailDoorbell 15 1 4) s) (fun t => t.ringTail 15 == 4) = true ∧
    goes (exec (.jobsTailDoorbell 15 1 5) s) (fun t => t.ringTail 15 == 0 && t.get pgJOBS IGNORED_CAUSE_REASON == 7 &&
      t.get pgJOBS JOBS_DOORBELL_IGNORED == 1) = true ∧
    goes (exec (.jobsHeadWrite 15 1 1) (s.setRing 15 { fetched := 2, done := 1, tickets := [] })) (fun t => t.ringHead 15 == 1) = true ∧
    goes (exec (.jobsHeadWrite 15 1 1) s) (fun t => t.ringHead 15 == 0 && t.get pgJOBS IGNORED_CAUSE_REASON == 7) = true := by
  decide +kernel

theorem test_ring_enable :
    let s := tJobs 0
    let d := s.setRing 15 { fetched := 2, done := 1, tickets := [] }
    goes (exec (.ringEnableWrite 15 1 0x80000010) s) (fun t => t.ringEnabled 15 && t.ringDepth 15 == 65536) = true ∧
    goes (exec (.ringEnableWrite 15 1 0x80000010) d) (fun t => t.get pgJOBS IGNORED_CAUSE_REASON == 10 && t.ringDepth 15 == 4) = true ∧
    goes (exec (.ringEnableWrite 15 1 0x00000003) d) (fun t => t.ringDepth 15 == 8) = true ∧
    goes (exec (.ringEnableWrite 15 1 0x80000003) tJobs) (fun t => t.ringDepth 15 == 4 && t.ringEnabled 15) = true ∧
    goes (exec (.ringEnableWrite 15 1 0x00000011) s) (fun t => t.get pgJOBS IGNORED_CAUSE_REASON == 7) = true := by decide +kernel

theorem test_ticket_fetch :
    let s := tJobs.put pgJOBS (JOBS_SQ_TAIL_TAIL.at 15) 1
    let s := { s with mem := { s.mem with stone := [(0x10000, 1), (0x10004, 9)] } }
    let no := { s with mem := { s.mem with regions := [] } }
    let h := s.put pgJOBS (JOBS_SQ_BASE_LO_HOST.at 15) 1
    ((∀ n, n < 16 → (s.canFetch n = true ↔ n = 15)) ∧ (∀ n, n < 16 → tJobs.canFetch n = false) ∧
      s.sqBase 15 = (false, 0x10000) ∧ h.sqBase 15 = (true, 0x10000) ∧ s.memOk 0x10000 64 = true ∧
      s.regionOk 14 0x10000 64 false = true ∧ no.regionOk 14 0x10000 64 false = false ∧ no.canFetch 15 = true) ∧
    goes (exec (.ticketFetch none) s) (fun t => (t.ring 15).fetched == 1 && t.jobs.last == 0 &&
      (t.ring 15).tickets.map (fun x => x.data.map tkId) == [some 9]) = true ∧
    goes (exec (.ticketFetch none) no) (fun t => endOf t == some ⟨2, 3, 0, 0, 0, 0⟩ && t.fault.net == [⟨0x031, 18, 0x10000, 14⟩]) =
      true ∧
    goes (exec (.ticketFetch (some (tTicket 1 0 0 0 0))) h) (fun t => t.out == [.hostRead 0x10000 64] && endOf t == none) = true ∧
    goes (exec (.ticketFetch none) h) (fun t => endOf t == some ⟨2, 3, 0, 0, 0, 0⟩ && t.get pgHOST HOST_CPL_ERRORS == 1) = true := by
  decide +kernel

theorem test_ticket_kinds :
    let call := (tRing (tTicket 4 0 0 0 0)).put pgJOBS JOBS_SP_STATUS_RUNNING 1
    ((tRing (tTicket 1 0 0 0 0)).nextTicket 15 = some (0, tTicket 1 0 0 0 0) ∧ (tTicket 1 0 0 0 0).length = 64 ∧
      call.memOk call.callArea 64 = true ∧ call.regionOk 14 call.callArea 64 true = true) ∧
    goes (exec (.ticketNop 15) (tRing (tTicket 1 0 0 0 0))) (fun t => endOf t == some ⟨0, 0, 1, 0, 0, 0⟩) = true ∧
    goes (exec (.ticketBadKind 15) (tRing (tTicket 5 0 0 0 0))) (fun t => endOf t == some ⟨3, 1, 5, 0, 0, 0⟩) = true ∧
    goes (exec (.ticketBadKind 15) (tRing (tTicket 3 0 64 255 0))) (fun t => endOf t == some ⟨3, 2, 3, 0, 0, 0⟩) = true ∧
    goes (exec (.ticketBadKind 15) (tRing (tTicket 3 0 128 8 0))) (fun t => endOf t == some ⟨3, 2, 3, 0, 0, 0⟩) = true ∧
    goes (exec (.ticketChain 15) (tRing (tTicket 3 0 0x80 255 0))) (fun t => (t.web 7).incoming == [⟨0x80, 0, 16, 0⟩] && endOf t == none) =
      true ∧
    goes (exec (.ticketChain 15) (tRing (tTicket 3 0 0x80 6 0))) (fun t => endOf t == some ⟨1, 6, 3, 0, 0, 0⟩) = true ∧
    goes (exec (.ticketCall 15) (tRing (tTicket 4 0 0 0 0))) (fun t => endOf t == some ⟨1, 8, 4, 0, 0, 0⟩) = true ∧
    goes (exec (.ticketCall 15) call) (fun t => t.jobs.calls == [(15, 0)] && t.byte call.callArea == 4) = true := by decide +kernel

theorem test_ticket_completion :
    let s := tRing (tTicket 2 1 0 0 8) (some ⟨0, 0, 2, 8, 0, 0⟩)
    let h := (tRing (tTicket 2 1 0 0 8) (some ⟨3, 2, 2, 0, 0, 0⟩)).put pgJOBS (JOBS_CQ_BASE_LO_HOST.at 15) 1
    ((s.ring 15).tickets.length = 1 ∧ s.cqBase 15 = (false, 0x20000) ∧ h.cqBase 15 = (true, 0x20000) ∧ s.memOk 0x20000 32 = true ∧
      s.regionOk 14 0x20000 32 true = true) ∧
    goes (exec (.ticketComplete 15) s) (fun t => (t.ring 15).done == 1 && t.byte 0x20000 == 0x34 && t.byte 0x2000C == 8 &&
      t.byte 0x20010 == 0 && t.evt.incoming == [63] && (t.ring 15).tickets == []) = true ∧
    goes (exec (.ticketComplete 15) h) (fun t => t.get pgJOBS JOBS_TICKETS_IGNORED == 1 && t.out.length == 1) = true := by
  decide +kernel

theorem test_call_done :
    let s := tRing (tTicket 4 0 0 0 0)
    let s : State := { s.put pgJOBS JOBS_CALL_RESULT 7 with jobs := { s.jobs with calls := [(15, 0)] } }
    let e : State := { s with comp := { s.comp with phase := 1 } }
    (s.accepts 1 pgJOBS 0x084 = true ∧ s.inExecution = false ∧ e.inExecution = true) ∧
    goes (exec (.callDoneWrite 1 1) s) (fun t => endOf t == some ⟨1, 10, 4, 7, 0, 0⟩ && t.jobs.calls == []) = true ∧
    goes (exec (.callDoneWrite 1 0) e) (fun t => t.jobs.held == [(7, false)] && endOf t == none) = true ∧
    goes (exec (.callDoneWrite 1 0) tJobs) (fun t => t.get pgJOBS IGNORED_CAUSE_REASON == 10) = true := by decide +kernel

theorem test_copy :
    let s := tRing (tTicket 2 0 0x100 0x200 8)
    let s : State := { s with mem := { s.mem with stone := [(0x100, 5), (0x104, 6)] } }
    let no : State := { s with mem := { s.mem with regions := [] } }
    let toHost := tRing (tTicket 2 0 0x100 (2 ^ 63 + 0x40) 8) none 4
    let fromHost := tRing (tTicket 2 0 (2 ^ 63 + 0x40) 0x200 8)
    (s.copyTicket 15 = some (0, tTicket 2 0 0x100 0x200 8, 0) ∧ toHost.copyTicket 15 = some (0, tTicket 2 0 0x100 (2 ^ 63 + 0x40) 8, 4)) ∧
    goes (exec (.ticketCopy 15 4 none) s) (fun t => t.byte 0x200 == 5 && t.byte 0x204 == 0 && endOf t == none) = true ∧
    goes (exec (.ticketCopy 15 512 none) s) (fun t => t.byte 0x204 == 6 && endOf t == some ⟨0, 0, 2, 8, 0, 0⟩) = true ∧
    goes (exec (.ticketCopy 15 4 none) no) (fun t => endOf t == some ⟨1, 4, 2, 0, 0, 0⟩) = true ∧
    goes (exec (.ticketCopy 15 4 none) toHost) (fun t => t.out == [.hostWrite 0x44 [0, 0, 0, 0]] && (endOf t).isSome) = true ∧
    goes (exec (.ticketCopy 15 4 (some [9, 8, 7, 6])) fromHost) (fun t => t.byte 0x203 == 6 && t.out == [.hostRead 0x40 4]) = true ∧
    goes (exec (.ticketCopy 15 4 none) fromHost) (fun t => endOf t == some ⟨1, 5, 2, 0, 0, 0⟩) = true ∧
    goes (exec (.hostRequestError 15) fromHost) (fun t => endOf t == some ⟨1, 5, 2, 0, 0, 0⟩ && t.get pgHOST HOST_CPL_ERRORS == 1) = true ∧
    goes (exec (.hostRequestError 15) s) (fun t => endOf t == none) = true := by decide +kernel

theorem test_bar_requests :
    let s := tJobs
    let no : State := { s with mem := { s.mem with regions := [] } }
    let q : BarReq := { bar := 2, off := 0x3FFFFFC, len := 4, data := none }
    let w : BarReq := { q with data := some [1, 2, 3, 4] }
    (s.device.stage ≠ 0 ∧ s.memOk 0x3FFFFFC 4 = true ∧ s.regionOk 13 0x3FFFFFC 4 false = true ∧ s.regionOk 13 0x3FFFFFC 4 true = true ∧
      no.regionOk 13 0x3FFFFFC 4 true = false) ∧
    goes (exec (.hostBarRequest q 5) s) (fun t => t.out == [.completion true [0, 0, 0, 0]]) = true ∧
    goes (exec (.hostBarRequest q 5) no) (fun t => t.out == [.completion false []] && t.get pgHOST HOST_CA_COUNT == 1 &&
      t.fault.net == [⟨0x031, 18, 0x3FFFFFC, 13⟩]) = true ∧
    goes (exec (.hostBarRequest w 5) s) (fun t => t.byte 0x3FFFFFF == 4 && t.out == []) = true ∧
    goes (exec (.hostBarRequest w 5) no) (fun t => t.byte 0x3FFFFFF == 0 && t.get pgHOST HOST_POSTED_DROPS == 1 &&
      t.fault.net == [⟨0x031, 18, 0x3FFFFFC, 13 + 64⟩]) = true ∧
    goes (exec (.hostBarRequest q 5) State.reset) (fun t => t.mono == 5 && t.out == []) = true := by decide +kernel

theorem test_bar4_base :
    let s := tJobs.put (pgREEL 3) REEL_STATUS_IN_SERVICE 1
    s.accepts 1 pgHOST 0x040 = true ∧ (∀ d, d < 52 → s.asleep d = false) ∧
    (12 + 4) * 2 ^ 30 ≤ s.reelBytes ∧ s.reelBytes < (13 + 4) * 2 ^ 30 ∧
    goes (exec (.hostBar4BaseWrite 1 12) s) (fun t => t.get pgHOST HOST_BAR4_BASE_WINDOW_GIB == 12) = true ∧
    goes (exec (.hostBar4BaseWrite 1 13) s) (fun t => t.get pgHOST IGNORED_CAUSE_REASON == 8) = true := by decide +kernel

theorem test_host_link :
    let s := tJobs.put pgHOST HOST_LINK_PERST 0
    let l := s.put pgHOST HOST_LINK_LINK_UP 1
    (1 ≤ s.device.stage ∧ s.on pgHOST HOST_LINK_PERST = false ∧ s.on pgHOST PAGE_STATUS_IN_SERVICE = true ∧ l.power.phase ≠ 2) ∧
    goes (exec (.hostLinkChange true 5 16 1) s) (fun t => t.on pgHOST HOST_LINK_LINK_UP && t.get pgHOST HOST_LINK_SPEED == 5 &&
      t.get pgHOST HOST_LINK_WIDTH == 16 && t.get pgHOST EVT_PEND == 1) = true ∧
    goes (exec (.hostLinkChange false 5 16 1) l) (fun t => !t.on pgHOST HOST_LINK_LINK_UP && t.get pgHOST EVT_PEND == 1) = true ∧
    goes (exec (.hostLinkL1Entry 1) l) (fun t => t.on pgHOST HOST_LINK_L1) = true ∧
    goes (exec (.hostLinkL1Exit 1) (l.put pgHOST HOST_LINK_L1 1)) (fun t => !t.on pgHOST HOST_LINK_L1) = true := by decide +kernel

theorem test_endpoint_resets :
    let s := (tRing (tTicket 1 0 0 0 0)).put pgHOST HOST_LINK_PERST 0
    let u : State := { s with host := { retry := true }, device := { s.device with stage := 1 } }
    goes (exec .functionLevelReset s) (fun t => t.host.retry && !t.ringEnabled 15 && t.ring 15 == RingSt.reset &&
      t.get pgHOST HOST_RESETS == 1) = true ∧
    goes (exec .perstAssert s) (fun t => t.on pgHOST HOST_LINK_PERST && !t.ringEnabled 15) = true ∧
    goes (exec .perstRelease (s.put pgHOST HOST_LINK_PERST 1)) (fun t => !t.on pgHOST HOST_LINK_PERST) = true ∧
    goes (exec .flrComplete s) (fun t => !t.host.retry) = true ∧
    goes (exec .hostConfigRequest s) (fun t => t.out == [.config s.host.retry]) = true ∧
    goes (exec .flrComplete u) (fun t => t.host.retry) = true ∧
    goes (exec .hostConfigRequest u) (fun t => t.out == [.config true]) = true := by decide +kernel

/-! ## Device resets and make-ready -/

/-- A key pair's public half, and signatures made with its private half outside the model. -/
def tKey : List Byte :=
  4#8 :: (bytesBE 48 20759358935135870939739540676535650987707597726159890286502796604198223091116778696057887186150960881355452918900523 ++
    bytesBE 48 34918784717736701073193363344944270657266317638839297759487915196592719654055864725178620514142514551557898392772746)

/-- Every signature here has the same r. -/
def tSig (s : Nat) : List Byte :=
  bytesBE 48 27096264687296215939181532009738267693596321812833937923697213529753990216518399262990042580422313480385665287622319 ++ bytesBE 48 s

/-- Make-ready under way with firmware running, and the same with no proof passed yet. -/
def tMaking : State :=
  let s := up [pgCOLOPHON, pgCRYPTO, pgFAULT, pgSTONE, pgHOST, pgJOBS]
  { s with device := { s.device with stage := 1, por := false, adkKeys := List.replicate 8 (sha384 tKey) } }

theorem test_device_resets :
    let s := (tMaking.put pgFAULT FAULT_STATUS_FIRST_VALID 1).put pgJOBS PAGE_CTRL_QUOIN 1
    goes (exec .porNAssert s) (fun t => t.device.por && t.device.stage == 0 && t.get pgFAULT FAULT_STATUS_FIRST_VALID == 0) = true ∧
    goes (exec .sysRstNAssert s) (fun t => t.device.sys && t.get pgFAULT FAULT_STATUS_FIRST_VALID == 1 && !t.quoined pgJOBS) = true ∧
    goes (exec .brownoutTrip s) (fun t => t.device.brown && t.reg pgJOBS 0x000 == resetWord pgJOBS 0x000) = true ∧
    goes (exec .thermalReset s) (fun t => t.device.thermal && t.device.stage == 0) = true := by decide +kernel

/-- Two firmware images that verify under key 0, and two that do not; the same key as every index. -/
def tSlots (a b : Nat) : BootSlots :=
  { a := { tHead with key := tKey, rev := a }, b := { tHead with key := tKey, rev := b, version := 2 } }
def tCold : State :=
  { State.reset with device := { State.reset.device with adkKeys := List.replicate 8 (sha384 tKey) } }

/-- A slot boots whose image verifies under a key of index 0 to 3 that is not revoked. -/
theorem test_boot_slot :
    tCold.bootSlot (tSlots 0xB0 0xB0) = some 0 ∧ tCold.bootSlot (tSlots 0xB1 0xB0) = some 1 ∧ tCold.colo.flash.active < 2 ∧
    ({ tCold with colo := { tCold.colo with fuses := { tCold.colo.fuses with revoke := 0x0F } } } : State).bootSlot
      (tSlots 0xB0 0xB0) = none := by decide +kernel

theorem test_make_ready_starts :
    let s := tCold
    let none' := tSlots 0xB1 0xB1
    let two := { s with device := { s.device with sys := true } }
    (s.device.por = true ∧ two.device.sys = true) ∧
    goes (exec (.porNRelease 2 false none') s) (fun t => t.device.stage == 1 && t.on pgCOLOPHON COLOPHON_STATUS_RECOVERY) = true ∧
    goes (exec (.porNRelease 1 false none') s) (fun t => t.on pgCOLOPHON COLOPHON_STATUS_RECOVERY) = true ∧
    goes (exec (.porNRelease 0 false none') s) (fun t => t.device.stage == 0 && !t.device.por) = true ∧
    goes (exec (.sysRstNRelease none') two) (fun t => t.device.stage == 0 && !t.device.sys && t.device.por) = true ∧
    goes (exec (.sysRstNRelease none') s) (fun t => t.device.por) = true ∧
    goes (exec (.brownoutRelease 2 none') { s with device := { s.device with por := false, brown := true } })
      (fun t => t.device.stage == 1 && t.device.bootMode == 2) = true ∧
    goes (exec (.thermalResetRelease 2 none') { s with device := { s.device with por := false, thermal := true } })
      (fun t => t.device.stage == 1) = true := by decide +kernel

theorem test_proofs :
    (tMaking.making = true ∧ 15 < unitCount 11 ∧ unitCount 11 ≤ 16 ∧ (11, 15) ∉ tMaking.device.failed) ∧
    goes (exec (.unitProofDone 11 15 true) tMaking) (fun t => t.on (pgFEED 15) PAGE_STATUS_IN_SERVICE) = true ∧
    goes (exec (.unitProofDone 7 8975 false) tMaking) (fun t => t.device.failed == [(7, 8975)] &&
      t.fault.net == [⟨0x000, 34, 0, 7 + 256 * 8975⟩]) = true ∧
    goes (exec (.unitProofDone 1 0 false) tMaking) (fun t => t.device.stage == 0 && t.fault.net == [⟨0x000, 34, 0, 1⟩]) = true ∧
    goes (exec (.unitProofDone 11 16 true) tMaking) (fun t => t == tMaking) = true := by decide +kernel

/-- A patch image with one word and one match entry, and what its body decrypts to (R398). -/
def tImage : List Byte :=
  ascii "EVSP" ++ [1, 0xB0] ++ bytesLE 2 0x0305 ++ bytesLE 4 0 ++ bytesLE 2 1 ++ bytesLE 2 1 ++ List.replicate 16 0 ++
    List.replicate (36 + 112) 0

def tGood : PatchSlot :=
  { image := some (tImage.take 84 ++
      tSig 24145431736906236205958391813663696695465534084308272228601835968618065251523048517023436059818174407942306999789587)
    key := tKey, tagged := true, body := bytesLE 2 0x7FFF ++ bytesLE 2 0 ++ bytesLE 4 0x1234 ++ List.replicate 28 0 }

theorem test_patch_load :
    (tMaking.quoined pgCSTORE = false ∧ patchIn tGood = tGood.image ∧
      (tGood.image.map (tMaking.patchCause tGood)) = some 0 ∧ tMaking.patchCause tGood tImage = 1 ∧
      (tGood.image.map (tMaking.patchCause { tGood with tagged := false })) = some 4 ∧
      patchIn tPatch = none) ∧
    goes (exec (.patchLoad tGood tPatch) tMaking) (fun t => t.quoined pgCSTORE && t.get pgCSTORE CSTORE_STATUS_PATCH_VERSION == 0x0305 &&
      t.reg pgCSTORE 0x050 1 == 0x80007FFF && t.cstore.words == [(0xA000, 0x1234)]) = true ∧
    goes (exec (.patchLoad { tGood with key := [] } tGood) tMaking) (fun t => t.cstore.words.length == 1) = true ∧
    goes (exec (.patchLoad { tGood with tagged := false } tPatch) tMaking) (fun t => t.fault.net == [⟨0x01B, 14, 0, 4⟩] &&
      t.quoined pgCSTORE) = true ∧
    goes (exec (.patchLoad tPatch tPatch) tMaking) (fun t => t.on pgCSTORE CSTORE_STATUS_PATCH_OK) = true := by decide +kernel

theorem test_make_ready_ends :
    let s := tMaking.put pgCSTORE PAGE_CTRL_QUOIN 1
    (s.making = true ∧ s.quoined pgCSTORE = true ∧ s.colo.flash.owner = []) ∧
    (let f : State := { s with device := { s.device with failed := [(5, 0), (6, 0), (6, 1)] } }
     f.setForme.rows = 15 ∧ f.setForme.physRow 0 = 1 ∧ f.setForme.physRow 14 = 15 ∧ f.setCores.pair2 = [1, 2] ∧
       f.badGalley 0 = true ∧ f.badGalley 1 = true ∧ f.goodRows.length = 15) ∧
    goes (exec (.makeReadyDone [] [] []) tMaking) (fun t => t.device.stage == 1) = true := by decide +kernel

theorem test_log_drive :
    let s := tMaking.put (pgLOGPORT 1) PAGE_STATUS_IN_SERVICE 1
    (s.device.stage ≠ 0 ∧ (s.logPort 1).perstHigh = false) ∧
    goes (exec (.logPerstRelease 1 true) s) (fun t => t.on (pgLOGPORT 1) LOG_STATUS_DRIVE_READY) = true ∧
    goes (exec (.logPerstRelease 1 false) s) (fun t => t.fault.net == [⟨0x000, 34, 0, 13 + 256⟩]) = true ∧
    goes (exec (.logPerstRelease 1 true) tMaking) (fun t => !(t.logPort 1).perstHigh) = true := by decide +kernel

/-- Over "EVS-ENROL", the serial 0x42 and the nonce 7. -/
def tEnrolSig : List Byte :=
  tSig 2711444448570119439743572581662971735908833594087054075953758793812233051688723432756181549933161696524428896325213

/-- Over the same and the hash of the new key. -/
def tOwnerSig : List Byte :=
  tSig 16646385468114115547222491207952450576628812125284731003656858321860207813748133860147597856786896148866317821621667

/-- Over "EVS-RELEASE", the serial and the nonce. -/
def tReleaseSig : List Byte :=
  tSig 2502469793585861349315271839904757344392890610177088386196283478080021072579890353176780300801451287715218575761183

/-- An owner image of a kind, signed (R746). -/
def tOwned (kind : Nat) (body : List Byte) (s : Nat) : List Byte :=
  ascii "EVSO" ++ [1, BitVec.ofNat 8 kind] ++ bytesLE 6 0 ++ bytesLE 4 body.length ++ tKey ++ List.replicate 47 0 ++ body ++ tSig s

/-- Microcode of four zero bytes; a standing program of 250 µs, TRIGGER 2, its block at 0x2000, with no code; four zero bytes. -/
def tMicrocode : List Byte := tOwned 1 (List.replicate 4 0)
  35200490306469652787667265956726186949059696854729094469279708262316311857658265028262647576160364506667617406808193
def tProgram : List Byte := tOwned 3 (ascii "EVSR" ++ [1, 2] ++ bytesLE 2 0 ++ bytesLE 4 250000 ++ List.replicate 12 0 ++
    bytesLE 8 0x2000 ++ List.replicate 1056 0)
  13950677140520579701181782050437684514224413103975165855849211523983375144562010649498558259539839724529323955641145
def tNoProgram : List Byte := tOwned 3 (List.replicate 4 0)
  38807951555536124009119714387947727682342876073696343715487051376479532270082782050950479785878835559719203265855903

/-- A device ready, its serial 0x42, a mailbox whose command of an opcode firmware has taken, with LEN and ARGS. -/
def tMail (box op : Nat) (len : Nat := 0) (args : List Byte := []) : State :=
  let s := up [pgCOLOPHON, pgCRYPTO, pgSTONE, pgNOC, pgEVT, pgFAULT, pgCSTORE, pgFRISKET, pgLOGPORT 0, pgLOGPORT 1, pgJOBS, pgDRIVE]
  let s := free (free s 0) 13
  let s := s.putPair pgCRYPTO CRYPTO_SERIAL_LO CRYPTO_SERIAL_HI 0x42
  let bytes := bytesLE 2 op ++ bytesLE 2 0 ++ bytesLE 4 len ++ [255] ++ args
  let cells := (bytes.zipIdx.filter fun x => x.1 != 0).map fun x => (mbBase box + x.2, x.1)
  { s with device := { s.device with stage := 2, por := false }
           mem := { s.mem with stone := cells }
           colo := { s.colo with taken := [box], nonce := [7] } }

/-- The answer of a mailbox. -/
def answered (t : State) (box st : Nat) : Bool :=
  t.byte (mbBase box + 8) == BitVec.ofNat 8 st && !t.colo.taken.contains box

theorem test_mailbox_memory (box op len : Nat) (args : List Byte) : ∀ w, (tMail box op len args).isBad w = false := by
  intro w
  have h1 : (tMail box op len args).mem.badStone = [] := rfl
  have h2 : (tMail box op len args).mem.badReel = [] := rfl
  simp [State.isBad, h1, h2, SMap.get]

theorem test_mailbox_ready :
    (MbReady (tMail 1 0x01) 1 0x01 65536 ∧ MbReady (tMail 1 0x02) 1 0x02 4096 ∧ MbReady (tMail 0 0x31 4) 0 0x31 4) ∧
    ∀ op ∈ [0x10, 0x11, 0x20, 0x21, 0x22, 0x30, 0x32, 0x33, 0x40, 0x41, 0x42, 0x99], MbReady (tMail 1 op) 1 op 0 := by
  refine ⟨⟨⟨by decide, by decide +kernel, test_mailbox_memory _ _ _ _, by decide +kernel⟩,
    ⟨by decide, by decide +kernel, test_mailbox_memory _ _ _ _, by decide +kernel⟩,
    ⟨by decide, by decide +kernel, test_mailbox_memory _ _ _ _, by decide +kernel⟩⟩, fun op h => ?_⟩
  refine ⟨by decide, ?_, test_mailbox_memory _ _ _ _, ?_⟩
  · have h : ∀ op ∈ [0x10, 0x11, 0x20, 0x21, 0x22, 0x30, 0x32, 0x33, 0x40, 0x41, 0x42, 0x99], (tMail 1 op).mbTaken 1 op = true := by
      decide +kernel
    exact h op ‹_›
  · have h : ∀ op ∈ [0x10, 0x11, 0x20, 0x21, 0x22, 0x30, 0x32, 0x33, 0x40, 0x41, 0x42, 0x99],
        (tMail 1 op).memOk (mbBase 1) (4096 + 0) = true := by
      decide +kernel
    exact h op ‹_›

theorem test_mailbox_at_once :
    let g : Region := { base := 0x1FF, size := 0xFFF, r := true, w := true, whole := false }
    let busy := (tMail 1 0x11).put pgNOC NOC_FLOW_STATUS_CHECKING 1
    goes (exec (.mbRegionSet 1 17 15 g) (tMail 1 0x10)) (fun t => answered t 1 0 && t.region 17 15 == { g with base := 0x100 }) = true ∧
    goes (exec (.mbRegionSet 1 17 15 tRegion) (tMail 1 0x10)) (fun t => answered t 1 0) = true ∧
    goes (exec (.mbRegionSet 1 2 0 { g with whole := true }) (tMail 1 0x10)) (fun t => answered t 1 1) = true ∧
    goes (exec (.mbRegionSet 1 18 0 g) (tMail 1 0x10)) (fun t => answered t 1 4) = true ∧
    goes (exec (.mbRegionSet 1 17 15 g) (tMail 1 0x11)) (fun t => t.colo.taken == [1]) = true ∧
    goes (exec (.mbFlowSet 1 64 tFlow) (tMail 1 0x11)) (fun t => answered t 1 4) = true ∧
    goes (exec (.mbFlowSet 1 63 tFlow) busy) (fun t => answered t 1 1) = true ∧
    goes (exec (.mbFlowSet 1 63 { tFlow with valid := false }) (tMail 1 0x11)) (fun t => answered t 1 0 &&
      t.get pgNOC NOC_FLOW_CFG_SLOTS 64 == 1) = true ∧
    goes (exec (.mbBadOpcode 1) (tMail 1 0x99)) (fun t => answered t 1 4) = true ∧
    goes (exec (.mbBadOpcode 1) (tMail 1 0x43)) (fun t => t.colo.taken == [1]) = true ∧
    (mbOpcode ((tMail 1 0x99).mbHeader 1) = 0x99 ∧ (tMail 1 0x02).on pgCRYPTO CRYPTO_STATUS_DRBG_FAULT = false) ∧
    goes (exec (.mbAttest 1) ((tMail 1 0x02).put pgCRYPTO CRYPTO_STATUS_DRBG_FAULT 1)) (fun t => answered t 1 1) = true := by
  decide +kernel

/-- R741: a report's head is 544 bytes long, its signature 96. -/
theorem test_report_length (s : State) (nonce : List Byte) (h : s.ownerSlot = none) (d k : Nat) :
    (s.attestHead nonce ++ ecSign d k (s.attestHead nonce)).length = 640 := by
  have hl : ∀ n v, (bytesLE n v).length = n := by
    intro n; induction n with
    | zero => simp [bytesLE]
    | succ n ih => simp [bytesLE, ih]
  have hs : ∀ m, (sha384 m).length = 48 := by
    intro m
    unfold sha384
    simp only [List.map_cons, List.map_nil, List.flatten_cons, List.flatten_nil, List.length_append, bytesBE, List.length_reverse, hl,
      List.length_nil]
  have hz : ∀ b o n, (slice b o n).length = n := by intro b o n; simp [slice]
  have he : (ecSign d k (s.attestHead nonce)).length = 96 := by
    unfold ecSign
    simp only [List.length_append, bytesBE, List.length_reverse, hl]
  have hm : s.meas2.length = 48 := hs _
  have ho : s.ownerHash.length = 48 := by simp only [State.ownerHash, h, List.length_replicate]
  rw [List.length_append, he]
  unfold State.attestHead
  simp only [List.length_append, hl, hs, hz, hm, ho, State.serialBytes, State.measure, List.length_replicate, ascii, List.length_map]
  rfl

theorem test_owners :
    let s := tMail 1 0x20
    let o : State := { s with colo := { s.colo with fuses := { FuseSt.reset with states := [(0, 3)], keys := [(0, sha384 tKey)] } } }
    let r : State := { tMail 1 0x21 with colo := { (tMail 1 0x21).colo with fuses := o.colo.fuses } }
    (s.deviceSerial = 0x42 ∧ s.ownerSlot = none ∧ o.ownerSlot = some 0 ∧
      ecVerify tKey (ascii "EVS-ENROL" ++ bytesLE 8 s.deviceSerial ++ s.colo.nonce) tEnrolSig = true) ∧
    goes (exec (.mbEnrol 1 tKey tEnrolSig [] []) s) (fun t => SMap.get 0 t.colo.fuses.states 0 == 3 && answered t 1 0) = true ∧
    goes (exec (.mbEnrol 1 tKey tEnrolSig tKey tOwnerSig) o) (fun t => t.colo.fuses.states == [(0, 15), (1, 3)]) = true ∧
    goes (exec (.mbEnrol 1 tKey tEnrolSig [] []) o) (fun t => answered t 1 2 && t.colo.fuses == o.colo.fuses) = true ∧
    goes (exec (.mbEnrol 1 tKey tReleaseSig [] []) s) (fun t => answered t 1 2) = true ∧
    goes (exec (.mbEnrol 1 tKey tEnrolSig [] []) { s with colo := { s.colo with nonce := [] } }) (fun t => answered t 1 1) = true ∧
    goes (exec (.mbRelease 1 tKey tReleaseSig) r) (fun t => answered t 1 0 && t.colo.fuses.states == [(0, 15)]) = true ∧
    goes (exec (.mbRelease 1 tKey tEnrolSig) r) (fun t => answered t 1 2) = true ∧
    goes (exec (.mbRelease 1 tKey tReleaseSig) (tMail 1 0x21)) (fun t => answered t 1 1) = true := by decide +kernel

theorem test_updates :
    let begun := fun (s : State) => ({ s with colo := { s.colo with update := some [1, 2] } } : State)
    let trial := fun (s : State) =>
      ({ s with colo := { s.colo with flash := { s.colo.flash with trial := true }, trialRollback := 300 } } : State)
    let keyed := fun (s : State) => ({ s with device := { s.device with adkKeys := List.replicate 8 (sha384 tKey) } } : State)
    let fw : FwHead := { tHead with key := tKey, rev := 0xB0, rollback := 300, version := 0x12345 }
    goes (exec (.mbUpdateBegin 1) (tMail 1 0x30)) (fun t => t.colo.update == some [] && answered t 1 0 &&
      SMap.get none t.colo.flash.fw 1 == some []) = true ∧
    goes (exec (.mbUpdateData 1) (tMail 1 0x31 4)) (fun t => answered t 1 1) = true ∧
    goes (exec (.mbUpdateData 1) (begun (tMail 1 0x31 2))) (fun t => t.colo.update == some [1, 2, 0, 0] && answered t 1 0) = true ∧
    10 ≤ (tMail 1 0x32).get pgFAULT FAULT_HB_CFG_TIMEOUT_MS ∧
    goes (exec (.mbUpdateSwitch 1 fw 9) (keyed (begun (tMail 1 0x32)))) (fun t => t.colo.flash.active == 1 && t.colo.flash.trial &&
      t.colo.trialRollback == 300 && t.get pgCOLOPHON COLOPHON_STATUS_FW_VERSION == 0x2345) = true ∧
    goes (exec (.mbUpdateSwitch 1 { fw with verifies := false } 9) (keyed (begun (tMail 1 0x32)))) (fun t =>
      answered t 1 2 && t.colo.flash.active == 0) = true ∧
    goes (exec (.mbUpdateConfirm 1) (trial (tMail 1 0x33))) (fun t => t.colo.fuses.fw == 256 && !t.colo.flash.trial) = true ∧
    goes (exec (.mbUpdateConfirm 1) (tMail 1 0x33)) (fun t => answered t 1 1) = true := by decide +kernel

theorem test_owner_images :
    let s := tMail 1 0x22
    let w : State := { s with seq := { s.seq with cur := some (tRoutine 0) } }
    let r := s.put pgJOBS JOBS_SP_STATUS_RUNNING 1
    (imgKind tProgram = 3 ∧ imgFormed tProgram = true ∧ s.imgAccepted tProgram = true ∧ s.spFault (imgBody tProgram) = none ∧
      imgKind tMicrocode = 1 ∧ imgFormed tMicrocode = true ∧ s.imgAccepted tMicrocode = true ∧ mbLen (s.mbHeader 1) = 0 ∧
      s.imgAccepted tNoProgram = true ∧ s.spFault (imgBody tNoProgram) = some 2) ∧
    goes (.next (s.loadProgram tProgram (imgBody tProgram)).2) (fun t => t.period == 250000 && t.icbAddr == 0x2000 &&
      t.on pgJOBS JOBS_SP_STATUS_LOADED) = true ∧
    (r.spFault (imgBody tProgram) = some 1 ∧ (s.loadProgram tNoProgram (imgBody tNoProgram)).1 = false) ∧
    goes (.next (w.loadMicrocode [(0x9FFF, 5)] [])) (fun t => t.cstore.staging == some (0x9FFF, 5, true) && t.cstore.ready == []) = true ∧
    s.imgAccepted (tOwned 3 [] 0) = false ∧
    goes (exec (.mbLoadImage 1 (tProgram.drop 1) [] []) s) (fun t => answered t 1 4) = true ∧
    (s.friskRefusal (tOwned 2 [] 1) = 4 ∧ r.friskRefusal (tOwned 2 [] 1) = 1 ∧ imgKind (tOwned 2 [] 1) = 2) ∧
    goes (exec (.mbLoadImage 1 (tOwned 2 [] 1) [] []) s) (fun t => answered t 1 4 && t.frisket == s.frisket) = true := by
  decide +kernel

/-- The Frisket fabric in a state. -/
def tFrisk (st : Nat) : State := (free (up [pgFRISKET, pgEVT, pgDRIVE]) 1).put pgFRISKET FRISKET_STATUS_STATE st

theorem test_frisket :
    let s := tFrisk 3
    let wake : State := { s with frisket := { s.frisket with wakeScrub := true } }
    (2 ≤ s.fabric ∧ s.asleep 3 = false ∧ s.accepts 1 pgFRISKET 0x044 = true ∧ wake.fabric = 3) ∧
    goes (exec (.frisketEventLine 31 5) s) (fun _ => true) = true ∧ goes (exec (.frisketFadeRequest 5) s) (fun _ => true) = true ∧
    goes (exec (.frisketReset1 1) s) (fun t => t.out == [.gr1]) = true ∧
    goes (exec (.frisketConfigScrub 9 false 5) s) (fun t => t.get pgFRISKET FRISKET_CFG_CORRECTED == 9) = true ∧
    goes (exec (.frisketConfigScrub 0 true 5) s) (fun t => t.fabric == 4 && t.fault.net.contains ⟨0x03F, 39, 0, 0⟩) = true ∧
    goes (exec .frisketWakeRelease wake) (fun t => !t.frisket.wakeScrub && !t.frisket.gr0) = true ∧
    goes (exec (.gpioInputChange 63 true 5) s) (fun t => SMap.get false t.frisket.gpioIn 63) = true := by decide +kernel

theorem test_frisket_load :
    let s := tFrisk 1
    let l : State := { s with frisket := { s.frisket with loading := some [1] } }
    goes (exec (.frisketLoadDone true) l) (fun t => t.fabric == 3 && !t.frisket.gr0 && t.frisket.cells == [1] && t.frisket.loading == none) = true ∧
    goes (exec (.frisketLoadDone false) l) (fun t => t.fabric == 0 && t.fault.net == [⟨0x000, 34, 0, 14⟩]) = true ∧
    goes (exec (.frisketLoadDone true) s) (fun t => t.fabric == 1) = true := by decide +kernel

/-- A run of the record open. -/
def opened (s : State) : State := { s with log := { s.log with open_ := true } }

theorem test_record_runs :
    goes (exec (.mbRecordOpen 1 5) (tMail 1 0x40)) (fun t => t.log.open_ && t.on (pgLOGPORT 1) LOG_STATUS_RUN_OPEN && answered t 1 0) = true ∧
    goes (exec (.mbRecordOpen 1 5) (opened (tMail 1 0x40))) (fun t => answered t 1 1) = true ∧
    goes (exec (.mbRecordClose 1 5) (opened (tMail 1 0x41))) (fun t => !t.log.open_ && t.log.num == 1) = true ∧
    goes (exec (.mbRecordClose 1 5) (tMail 1 0x41)) (fun t => answered t 1 1) = true := by decide +kernel

theorem test_record_blocks :
    let s := opened (tMail 1 0x41)
    (s.log.num + 1 - s.log.first < 64 ∧ blockPayload ≤ (List.replicate 1048448 (0 : Byte)).length ∧
      s.log.lastAt + 60000000000 ≤ timeAt s 60000000000 ∧ s.log.stream = []) ∧
    goes (exec (.recordBlockClose 7) s) (fun t => t.log.num == 0 && t.mono == 7) = true ∧
    goes (exec (.signatureTimer 60000000000) s) (fun t => t.log.lastAt == 60000000000 && t.sigCounter == 1 && t.log.sigs == 1) = true ∧
    goes (exec (.signatureTimer 59999999999) s) (fun t => t.log.sigs == 0) = true := by
  refine ⟨⟨by decide +kernel, by rw [List.length_replicate]; exact Nat.le_refl _, by decide +kernel, by decide +kernel⟩, ?_⟩
  decide +kernel

theorem test_read_log :
    let s := (tMail 1 0x42).put (pgLOGPORT 1) LOG_STATUS_DRIVE_READY 1
    (s.memOk 0x1000 (1 * 4096) = true ∧ s.regionOk 13 0x1000 (1 * 4096) true = true ∧ 0x1000 + 1 * 4096 ≤ mbBase 0) ∧
    goes (exec (.mbReadLog 1 0 1 7 1 0x1000 [9]) (tMail 1 0x42)) (fun t => answered t 1 1) = true ∧
    goes (exec (.mbReadJournal 1 0 1) (tMail 1 0x43)) (fun t => answered t 1 0) = true := by decide +kernel

/-- A log port with a command of identifier 9 in flight, tried n times. -/
def tLog (tries : Nat) : State :=
  let s := up [pgLOGPORT 1, pgFAULT]
  let c : NvmeCmd := { id := 9, what := 0, num := 4, data := [1], tries := tries, issued := 0 }
  (free s 1).onLogPort 1 fun l => { l with cmds := [c], nextId := 3 }

theorem test_nvme :
    ((tLog 2).nvme 1 9 = some { id := 9, what := 0, num := 4, data := [1], tries := 2, issued := 0 } ∧ (tLog 2).nvme 1 8 = none) ∧
    goes (exec (.nvmeCompletion 1 9 0 5) (tLog 2)) (fun t => t.get (pgLOGPORT 1) LOG_WRITTEN_LO == 5 && (t.logPort 1).cmds == []) = true ∧
    goes (exec (.nvmeCompletion 1 9 1 5) (tLog 2)) (fun t => ((t.logPort 1).cmds.map fun c => (c.id, c.tries)) == [(3, 3)] &&
      t.get (pgLOGPORT 1) LOG_WRITE_ERRORS == 1) = true ∧
    goes (exec (.nvmeCompletion 1 9 0x4001 5) (tLog 2)) (fun t => t.on (pgLOGPORT 1) LOG_STATUS_DRIVE_FAILED &&
      t.fault.net == [⟨0x041, 38, 0, 0x94001⟩]) = true ∧
    goes (exec (.nvmeCompletion 1 9 1 5) (tLog 3)) (fun t => t.on (pgLOGPORT 1) LOG_STATUS_DRIVE_FAILED) = true ∧
    goes (exec (.nvmeTimeout 1 9 5000000000) (tLog 2)) (fun t => t.fault.net == [⟨0x041, 38, 0, 0x98000⟩]) = true ∧
    goes (exec (.nvmeTimeout 1 9 4999999999) (tLog 2)) (fun t => t.fault.net == []) = true := by decide +kernel

theorem test_log_release :
    let s := ((tLog 0).put (pgLOGPORT 1) LOG_WRITTEN_LO 6).put (pgLOGPORT 1) LOG_RELEASE_LO 6
    s.accepts 1 (pgLOGPORT 1) 0x06C = true ∧
    goes (exec (.logReleaseWrite 1 1 0) s) (fun t => t.logRelease 1 == 6) = true ∧
    goes (exec (.logReleaseWrite 1 1 1) s) (fun t => t.logRelease 1 == 0 && t.get (pgLOGPORT 1) IGNORED_CAUSE_REASON == 7) = true := by
  decide +kernel

theorem test_journal :
    let s := up [pgCOLOPHON]
    let p : State := { s with colo := { s.colo with journal := { s.colo.journal with buffer := [(6, 5, [1])], programming := true } } }
    let e : State := { s with colo := { s.colo with journal := { s.colo.journal with recs := [(127, [1]), (128, [2])], erasing := true } } }
    goes (exec .journalProgramDone p) (fun t => t.colo.journal.next == 1 && (SMap.get [] t.colo.journal.recs 0).length == 512) = true ∧
    goes (exec .journalProgramDone s) (fun t => t.colo.journal.next == 0) = true ∧
    goes (exec .journalEraseDone e) (fun t => t.colo.journal.recs == [(128, [2])] && !t.colo.journal.erasing) = true ∧
    goes (exec .journalEraseDone p) (fun t => t.colo.journal.buffer.length == 1) = true := by decide +kernel

theorem test_monitors :
    let s := tMail 0 0x99
    let x : State := s.setSensor 0 { (s.sensor 0) with sent := true, good := 15 }
    let d := s.setCore 4 { s.core 3 with g := SMap.set 0 (s.core 3).g 31 5 }
    (s.firmware = true ∧ s.clockStopped 75 = false ∧ s.core 3 = s.core 4 ∧ sensorValue 0 (s.sensor 0).upper = 1000 ∧
      sensorValue 0 (s.sensor 0).lower = -320) ∧
    goes (exec (.sensorSample 0 1000 5) s) (fun t => (t.sensor 0).value == 1000 && !(t.sensor 0).sent) = true ∧
    goes (exec (.sensorSample 0 1001 5) s) (fun t => (t.sensor 0).sent && t.fault.net == [⟨0x003, 37, 0, 256⟩]) = true ∧
    goes (exec (.sensorSample 0 (-321) 5) s) (fun t => t.fault.net == [⟨0x003, 37, 0, 0⟩]) = true ∧
    goes (exec (.sensorSample 0 1001 5) x) (fun t => (t.sensor 0).good == 0 && t.fault.net == []) = true ∧
    goes (exec (.sensorSample 0 0 5) x) (fun t => !(t.sensor 0).sent) = true ∧
    goes (exec (.pmbusPoll [0, 1] 5) s) (fun t => t.out == [.pmbus 0, .pmbus 1]) = true ∧
    goes (exec .drbgHealthFail s) (fun t => !t.canSign) = true ∧
    goes (exec .colophonCrossCheck d) (fun t => t.fault.net == [⟨0x001, 35, 0, 0⟩]) = true ∧
    goes (exec .colophonCrossCheck s) (fun t => t.fault.net == []) = true ∧
    goes (exec (.uartReceive [1, 2]) s) (fun t => t.colo.uart == [1, 2]) = true ∧
    goes (exec (.jtagTapInstruction 5 false) s) (fun t => t.colo.tap == 5) = true ∧
    goes (exec (.jtagTapInstruction 5 false) { s with colo := { s.colo with fuses := { s.colo.fuses with debugLock := true } } })
      (fun t => t.colo.tap == 0) = true := by decide +kernel

/-! ## Power, events and faults -/

/-- Every domain in service, one selected. -/
def tPower (d : Nat := 4) : State := (up ((List.range 52).map domPage ++ [pgPOWER, pgCLOCK, pgHOST, pgDRIVE])).put pgPOWER POWER_SEL_DOMAIN d

def dom (s : State) (d st : Nat) (x : DomainSt := DomainSt.reset) : State := (s.setDomState d st).setDomain d x

theorem test_power_requests :
    let s := free (free (tPower 51) 13) 2
    (s.accepts 1 pgPOWER 0x044 = true ∧ s.accepts 2 pgPOWER 0x044 = true ∧ s.domUp 51 = true ∧ s.domain 51 = DomainSt.reset ∧
      s.powerCause 51 2 false = 0 ∧ s.powerCause 51 3 false = 0) ∧
    goes (exec (.powerRunRequest 2 5) s) (fun t => t.get pgPOWER IGNORED_CAUSE_REASON == 2) = true ∧
    goes (exec (.powerNapRequest 1 none 5) s) (fun t => t.domain 51 == { DomainSt.reset with entering := some (2, 1) }) = true ∧
    goes (exec (.powerHoldRequest 13 none 5) s) (fun t => t.domain 51 == { DomainSt.reset with entering := some (3, 1) }) = true ∧
    goes (exec (.powerHoldRequest 1 none 5) (dom s 51 2)) (fun t => (t.domain 51).entering == some (3, 4)) = true ∧
    goes (exec (.powerNapRequest 1 none 5) (dom s 51 3)) (fun t => (t.domain 51).waking == some (16, 2)) = true ∧
    goes (exec (.powerRunRequest 1 5) (dom s 51 2)) (fun t => (t.domain 51).waking == some (7, 0)) = true ∧
    goes (exec (.powerRunRequest 1 5) (dom s 51 1)) (fun t => t.domState 51 == 0) = true ∧
    goes (exec (.powerHoldRequest 1 (some 15) 5) s) (fun t => t.get pgPOWER POWER_SLEEP_STATUS_OUTCOME 52 == 3 &&
      t.get pgPOWER POWER_SLEEP_STATUS_WAKE_SRC 52 == 15 && t.get pgPOWER POWER_ABANDONED == 1) = true ∧
    goes (exec (.powerNapRequest 1 none 5) (s.put pgPOWER POWER_SEL_DOMAIN 35)) (fun t =>
      t.get pgPOWER POWER_SLEEP_STATUS_REASON 36 == 1 && t.get pgPOWER IGNORED_CAUSE_REASON == 14) = true := by decide +kernel

theorem test_power_steps :
    let e := fun (target step : Nat) (w : Option Nat) => dom tPower 51 0 { DomainSt.reset with entering := some (target, step), stopWake := w }
    goes (exec (.powerEntryStep 51 5) (e 2 1 none)) (fun t => (t.domain 51).entering == some (2, 2) && t.domState 51 == 0) = true ∧
    goes (exec (.powerEntryStep 51 5) (e 2 3 none)) (fun t => t.domain 51 == DomainSt.reset && t.domState 51 == 2) = true ∧
    goes (exec (.powerEntryStep 51 5) (e 3 3 none)) (fun t => (t.domain 51).entering == some (3, 4) && t.domState 51 == 2) = true ∧
    goes (exec (.powerEntryStep 51 5) (e 3 2 (some 4))) (fun t => (t.domain 51).waking == some (4, 0) &&
      t.get pgPOWER POWER_SLEEP_STATUS_OUTCOME 52 == 4) = true ∧
    goes (exec (.powerEntryStep 51 5) tPower) (fun t => t.mono == 5 && t.domain 51 == DomainSt.reset) = true ∧
    goes (exec (.domainWakeComplete 51 350000) (dom tPower 51 3 { DomainSt.reset with waking := some (4, 0) })) (fun t => t.domState 51 == 0 &&
      t.get pgPOWER POWER_WAKES == 1 && t.get pgPOWER POWER_SLEEP_STATUS_WAKE_SRC 52 == 4) = true ∧
    goes (exec (.domainWakeComplete 51 350000) (dom (dom tPower 3 3) 51 3 { DomainSt.reset with waking := some (4, 0) })) (fun t => t.domState 51 == 3) =
      true ∧
    goes (exec (.idleEntry 51 65535) tPower) (fun t => t.domState 51 == 1) = true ∧
    goes (exec (.idleEntry 51 65535) (tPower.put pgPOWER POWER_IDLE_CFG_AUTO 0 52)) (fun t => t.domState 51 == 0) = true := by decide +kernel

theorem test_device_hold :
    let s := free tPower 13
    let p := fun (k : Nat) => ({ s with power := { s.power with phase := k } } : State)
    (s.accepts 13 pgPOWER 0x050 = true ∧ s.holdAllCause = none ∧ (s.put pgPOWER POWER_SEL_DOMAIN 51).holdAllCause = none ∧
      (s.put (pgGALLEY 15) PAGE_STATUS_IN_SERVICE 0).holdAllCause = some (51, 2)) ∧
    goes (exec (.holdAll 13 0 5) s) (fun t => t.power.phase == 1 && t.power.since == 5) = true ∧
    goes (exec (.holdAll 13 0 5) (s.put (pgGALLEY 15) PAGE_STATUS_IN_SERVICE 0)) (fun t => t.power.phase == 0 &&
      t.get pgPOWER POWER_SLEEP_STATUS_REASON 52 == 2) = true ∧
    goes (exec (.coloReady 1 0 5) (p 1)) (fun t => t.power.phase == 2 && t.power.since == 5) = true ∧
    goes (exec (.coloReady 13 0 5) (p 1)) (fun t => t.power.phase == 1 && t.get pgPOWER IGNORED_CAUSE_REASON == 2) = true ∧
    goes (exec (.wakeAll 13 0 5) (dom s 51 3)) (fun t => (t.domain 51).waking == some (8, 0)) = true ∧
    goes (exec (.coloReadyTimeout 10000000) (p 1)) (fun t => t.power.phase == 0 && t.get pgPOWER POWER_SLEEP_STATUS_WAKE_SRC 52 == 15) = true ∧
    goes (exec (.coloReadyTimeout 9999999) (p 1)) (fun t => t.power.phase == 1) = true ∧
    goes (exec (.holdL1Timeout 100000000) ((dom (p 2) 51 3).put pgHOST HOST_LINK_LINK_UP 1)) (fun t => t.power.phase == 0 &&
      (t.domain 51).waking == some (16, 0) && t.get pgPOWER POWER_SLEEP_STATUS_REASON 33 == 8) = true ∧
    goes (exec (.holdL1Timeout 100000000) (p 1)) (fun t => t.power.phase == 1) = true := by decide +kernel

theorem test_wakes_and_clocks :
    let s := (dom (tPower.putPair pgPOWER POWER_WAKE_MAP_LO POWER_WAKE_MAP_HI (2 ^ 51) 1) 51 3).putPair pgPOWER POWER_WAKE_MAP_LO
      POWER_WAKE_MAP_HI (2 ^ 51) 3
    let a := (s.put pgPOWER POWER_ALARM_CFG_ARMED 1).put pgPOWER POWER_ALARM_LO 7
    let l := s.put pgCLOCK CLOCK_PLL_STATUS_LOCKED 0xFFF
    goes (exec (.wakeNAssert 5) s) (fun t => (t.domain 51).waking == some (0, 0)) = true ∧
    goes (exec (.powerAlarmFire 7) a) (fun t => (t.domain 51).waking == some (2, 0) && !t.on pgPOWER POWER_ALARM_CFG_ARMED) = true ∧
    goes (exec (.powerAlarmFire 6) a) (fun t => t.on pgPOWER POWER_ALARM_CFG_ARMED) = true ∧
    goes (exec (.signalDetect 15 5) (dom s 31 3)) (fun t => (t.domain 31).waking == some (4, 0)) = true ∧
    goes (exec (.signalDetect 15 5) s) (fun t => (t.domain 31).waking == none) = true ∧
    goes (exec (.pllLockLoss 75) l) (fun t => t.get pgCLOCK CLOCK_PLL_STATUS_LOCKED == 0x7FF && t.fault.net == [⟨0x005, 37, 0, 75⟩]) = true ∧
    goes (exec (.pllLockLoss 76) l) (fun t => t.get pgCLOCK CLOCK_PLL_STATUS_LOCKED == 0xFFF) = true ∧
    goes (exec (.refClockLoss 2) l) (fun t => t.get pgCLOCK CLOCK_PLL_STATUS_LOCKED == 0xFFB && t.get pgCLOCK EVT_PEND == 2) = true ∧
    goes (exec (.referenceClockReturn 2) s) (fun t => bit (t.get pgCLOCK CLOCK_PLL_STATUS_LOCKED) 2) = true := by decide +kernel

/-- The Event Controller, its Quoin page and the Fault Collector in service, the Colophon's firmware running. -/
def tEvt : State :=
  let s := free (free (up [pgEVT, pgEVTCFG, pgEVTTIME, pgEVTCNT, pgFAULT, pgCOLOPHON, pgPOWER, pgSTONE]) 0) 13
  { s with device := { s.device with stage := 2, por := false } }

/-- Source k with a target, a class, a level and a vector, enabled. -/
def tSource (s : State) (k target fast prio v : Nat) : State :=
  let s := (s.put pgEVTCFG (EVT_SRC_CFG_TARGET.at k) target).put pgEVTCFG (EVT_SRC_CFG_CLASS.at k) fast
  let s := (s.put pgEVTCFG (EVT_SRC_CFG_PRIO.at k) prio).put pgEVTCFG (EVT_SRC_CFG_VECTOR.at k) v
  (s.put pgEVTCFG (EVT_SRC_CFG_COUNT.at k) 1).put pgEVTCFG (EVT_SRC_EN.at (k / 32)) (2 ^ (k % 32))

theorem test_event_raise :
    let s := tSource tEvt 449 3 0 0 255
    let open' := s.setReg 0x3FFE (16 * 255 + 12) 0
    let two := s.put pgEVTCFG (EVT_SRC_CFG_COUNT.at 449) 2
    let old : State := { two.put pgEVTTIME (EVT_SRC_COAL_TIME_AC.at 449) 3 with evt := { two.evt with acc := [(449, 1)], age := [(449, 40)] } }
    (s.asleep 3 = false ∧ s.srcEnabled 449 = true ∧ s.vectorMasked 255 = true ∧ open'.vectorMasked 255 = false) ∧
    goes (exec (.eventRaise 449 5) s) (fun t => t.srcPending 449 && t.msixPending 255 && t.out == [] &&
      t.get pgEVTCNT (EVT_SRC_CNT.at 449) == 1) = true ∧
    goes (exec (.eventRaise 449 5) open') (fun t => t.out == [.msix 255 0 0]) = true ∧
    goes (exec (.eventRaise 449 5) two) (fun t => !t.srcPending 449 && SMap.get 0 t.evt.acc 449 == 1) = true ∧
    goes (exec (.eventRaise 449 5) (dom s 3 3)) (fun t => t.evt.held == [449] && !t.srcPending 449) = true ∧
    goes (exec (.coalesceTimeout 449 160) old) (fun t => t.srcPending 449 && SMap.get 0 t.evt.acc 449 == 0) = true ∧
    goes (exec (.coalesceTimeout 449 159) old) (fun t => !t.srcPending 449 && SMap.get 0 t.evt.acc 449 == 1) = true := by decide +kernel

theorem test_event_lines :
    let l := fun (x : EvtLine) => ({ tEvt with evt := { tEvt.evt with lines := [(15, x)] } } : State)
    let up := l { EvtLine.reset with sync := true, timing := true, settled := true }
    let down := l { EvtLine.reset with filtered := true, timing := true, settled := true }
    let late := 40 * tEvt.get pgEVT (EVT_FILT_STABLE_AC.at 15)
    (5 < late ∧ bit (up.get pgPOWER POWER_EVT_WAKE_LINES) 15 = false ∧ up.get pgEVT (EVT_FILT_EDGE.at 15) = 0) ∧
    goes (exec (.evtLineChange 15 true 5) tEvt) (fun t => (t.line 15).sync && (t.line 15).timing) = true ∧
    goes (exec (.evtLineChange 15 false 5) up) (fun t => !(t.line 15).timing && t.get pgEVT EVT_FILTER_REJECTS == 1) = true ∧
    goes (exec (.evtFilterSettle 15 late) tEvt) (fun t => (t.line 15).settled && t.evt.acc == []) = true ∧
    goes (exec (.evtFilterSettle 15 late) up) (fun t => (t.line 15).filtered && t.get pgEVTCNT (EVT_SRC_CNT.at 15) == 1) = true ∧
    goes (exec (.evtFilterSettle 15 late) down) (fun t => !(t.line 15).filtered && t.get pgEVTCNT (EVT_SRC_CNT.at 15) == 0) = true := by decide +kernel

theorem test_event_memory : ∀ w, tEvt.isBad w = false := by
  intro w
  have h1 : tEvt.mem.badStone = [] := rfl
  have h2 : tEvt.mem.badReel = [] := rfl
  simp [State.isBad, h1, h2, SMap.get]

theorem test_soft_raise :
    let busy : State := { tEvt with colo := { tEvt.colo with taken := [1] } }
    (tEvt.accepts 1 pgEVT 0x084 = true ∧ tEvt.firmware = true ∧ tEvt.memOk (mbBase 1) 64 = true ∧ tEvt.byte (mbBase 1 + 8) ≠ 255#8) ∧
    goes (exec (.softRaise 1 63 5) tEvt) (fun t => t.get pgEVTCNT (EVT_SRC_CNT.at 127) == 1 && t.colo.taken == []) = true ∧
    goes (exec (.softRaise 1 2 5) tEvt) (fun t => t.colo.taken == [1] && t.byte (mbBase 1 + 8) == 255) = true ∧
    goes (exec (.softRaise 1 2 5) busy) (fun t => t.colo.taken == [1] && t.get pgCOLOPHON COLOPHON_MB_BUSY_RINGS == 1) = true := by decide +kernel

theorem test_msix_unmask :
    let p := tEvt.setReg 0x3FFF 28 0x80000000
    let f : State := { p.setReg 0x3FFE (16 * 255 + 12) 0 with msixFmask := true }
    (p.msixPending 255 = true ∧ f.msixPending 255 = true) ∧
    goes (exec (.msixUnmask (some 255)) p) (fun t => t.out == [.msix 255 0 0] && !t.msixPending 255) = true ∧
    goes (exec (.msixUnmask (some 255)) f) (fun t => t.out == [] && t.msixPending 255) = true ∧
    goes (exec (.msixUnmask none) f) (fun t => t.out == [.msix 255 0 0] && !t.msixPending 255 && !t.msixFmask) = true := by decide +kernel

theorem test_event_stacks :
    let s := (tSource tEvt 511 2 1 15 0).put pgEVTCFG (EVT_SRC_PEND.at 15) (2 ^ 31)
    let on := fun (l : List Nat) => ({ s with evt := { s.evt with colo := l } } : State)
    (s.presented 1 true = some 15 ∧ (on [14]).presented 1 true = some 15 ∧ (on [15]).presented 1 true = none ∧
      s.presented 0 false = none ∧ s.accepts 1 pgEVT (0x0AC + 1 * 0x20) = true ∧ s.accepts 0 pgEVT (0x0AC + 1 * 0x20) = true ∧
      s.accepts 1 pgEVT (0x0B4 + 1 * 0x20) = true) ∧
    goes (exec (.evtAcceptance 1 true) (on [14])) (fun t => t.evt.colo == [15, 14] && t.get pgEVT (EVT_PX_STACK_TOP.at 1) == 15) = true ∧
    goes (exec (.evtAcceptance 0 false) s) (fun t => t.evt == s.evt) = true ∧
    goes (exec (.eoiWrite 1 1 15) (on [15, 3])) (fun t => t.evt.colo == [3]) = true ∧
    goes (exec (.eoiWrite 1 1 3) (on [15, 3])) (fun t => t.evt.colo == [15, 3] && t.fault.net == [⟨0x03E, 22, 0, 3 + 15 * 16 + 256⟩]) = true ∧
    goes (exec (.eoiWrite 1 1 15) s) (fun t => t.fault.net == [⟨0x03E, 23, 0, 15 + 256⟩]) = true ∧
    goes (exec (.eoiWrite 0 1 15) (on [15])) (fun t => t.evt.colo == [15] && t.get pgEVT IGNORED_CAUSE_REASON == 2) = true ∧
    goes (exec (.stackReset 1 1) (on [15])) (fun t => t.evt.colo == []) = true ∧
    goes (exec (.evtStackUpset 1) (on [15])) (fun t => t.presented 1 true == none && t.fault.net == [⟨0x03E, 24, 0, 15 * 16 + 256⟩]) = true := by
  decide +kernel

/-- A source whose copies differ counts as struck in both or neither: here one bit of TARGET of source 511 flips. -/
theorem test_event_config :
    let s := tSource tEvt 511 2 1 15 0
    let s := s.setReg pgEVTCFG (EVT_SRC_CFG_TARGET.at 511).off (s.srcCopy 511 0).1 1
    let hit := fun (a b : BitVec 64) => [SrcHit.mk 511 a b]
    (s.asleep 1 = false ∧ s.srcCopy 511 0 = s.srcCopy 511 1 ∧ parityFails 0x200 = true ∧ parityFails 0x600 = false) ∧
    goes (exec (.evtConfigScrub []) s) (fun t => t.fault.net == []) = true ∧
    goes (exec (.evtConfigScrub (hit 0x200 0)) s) (fun t => t.srcCopy 511 0 == s.srcCopy 511 0 && t.fault.net == [⟨0x03C, 21, 0, 511⟩]) =
      true ∧
    goes (exec (.evtConfigScrub (hit 0 0x200)) s) (fun t => t.srcCopy 511 1 == s.srcCopy 511 0) = true ∧
    goes (exec (.evtConfigScrub (hit 0x600 0)) s) (fun t => t.get pgEVTCFG (EVT_SRC_CFG_TARGET.at 511) == 0 &&
      t.fault.net == [⟨0x03D, 21, 0, 511⟩]) = true := by decide +kernel

/-- A fault message waits; its source of a severity. -/
def tFault (m : FaultMsg) (sev : Nat) : State :=
  let s := (free (up [pgFAULT, pgCOLOPHON, pgDRIVE, pgJOBS, pgGALLEY 15]) 0).put pgFAULT (FAULT_SEV.at (m.src / 16)) (sev * 4 ^ (m.src % 16))
  { s with fault := { s.fault with net := [m] } }

def tMsg : FaultMsg := { src := 0x3FF, kind := 1, addr := 15 * 2 ^ 16 + 16 * 2 ^ 11 + 31 * 2 ^ 5, detail := 0xFFFFFFFF }

theorem test_fault_messages :
    let m1 : FaultMsg := { tMsg with src := 0x10F }
    let s := tFault m1
    let seen := (s 1).put pgFAULT FAULT_SRC_COUNT 1 (0x10F + 1)
    let busy : State := { s 0 with fault := { (s 0).fault with writing := true } }
    let one := (s 2).put pgFAULT FAULT_RETIRE_CFG_COL_LIMIT 1
    ((s 0).severity 0x10F = 0 ∧ (s 3).severity 0x10F = 3 ∧ m1.badCodes = false ∧ one.get (pgGALLEY 15) (GALLEY_COL_RETIRED_COLUMN.at 16) = 63 ∧
      one.get pgFAULT FAULT_RETIRE_CFG_COL_LIMIT = 1 ∧ seen.get pgFAULT FAULT_SRC_COUNT (0x10F + 1) = 1) ∧
    goes (exec (.faultMessage 0 5) (s 0)) (fun t => t.fault.net == [] && t.fault.writing && t.get pgFAULT FAULT_SRC_COUNT (0x10F + 1) == 1 &&
      t.get pgFAULT FAULT_LOG_HEAD_LO == 1) = true ∧
    goes (exec (.faultMessage 0 5) busy) (fun t => t.on pgFAULT FAULT_STATUS_LOG_OVERFLOW && t.fault.dropped == 1) = true ∧
    goes (exec (.faultMessage 0 5) seen) (fun t => t.fault.log == [] && !t.fault.writing) = true ∧
    goes (exec (.faultMessage 0 5) (s 3)) (fun t => t.on pgFAULT FAULT_STATUS_FATAL && t.get pgFAULT FAULT_FATAL_SRC == 0x10F &&
      t.on pgJOBS JOBS_STATUS_STOPPED && t.on pgFAULT FAULT_STATUS_FIRST_VALID && t.get pgFAULT FAULT_FIRST_DETAIL == 0xFFFFFFFF) = true ∧
    goes (exec (.faultMessage 0 5) one) (fun t => t.get (pgGALLEY 15) (GALLEY_COL_RETIRED_COLUMN.at 16) == 31 && t.migrating &&
      t.fault.loc.contains ⟨0x008, 41, m1.addr, 1⟩) = true ∧
    goes (exec (.faultMessage 1 5) (s 0)) (fun t => t.fault == (s 0).fault && t.mono == 5) = true := by decide +kernel

theorem test_fault_collector :
    let loc : State := { tFault tMsg 0 with fault := { (tFault tMsg 0).fault with net := [], loc := [⟨0x007, 21, 0, 1⟩] } }
    let loc := loc.put pgFAULT (FAULT_SEV.at 0) 0
    let s := (tFault tMsg 0).setReg pgFAULT (0x100 + 4 * 63) 0xFFFFFFFF
    let one : Tally := ⟨1, 0, false⟩
    let l : FaultSt := { s.fault with writing := true, log := [(4095, [1, 2, 3, 4, 5])] }
    let w : State := { s with fault := { l with colTally := [(8975, one)], galTally := [(271, one)], coreTally := [(2, one)] } }
    let h := s.get pgFAULT FAULT_RETIRE_CFG_WINDOW_H * 3600000000000
    let fatal := s.put pgFAULT FAULT_STATUS_FATAL 1
    (loc.severity 0x007 = 0 ∧ s.accepts 1 pgFAULT 0x040 = true ∧ s.accepts 1 pgFAULT 0x078 = true) ∧
    goes (exec (.localFaultMessage 5) loc) (fun t => t.fault.loc == [] && t.fault.writing && t.get pgFAULT FAULT_SRC_COUNT 8 == 1) = true ∧
    goes (exec (.localFaultMessage 5) w) (fun t => t.mono == 5 && t.fault == w.fault) = true ∧
    goes (exec .faultLogWriteDone w) (fun t => !t.fault.writing) = true ∧
    goes (exec (.faultSevScrub []) s) (fun t => t.reg pgFAULT (0x100 + 4 * 63) 1 == 0xFFFFFFFF && t.fault.loc.contains ⟨0x007, 21, 0, 63⟩) = true ∧
    goes (exec (.firstClear 1 2) (s.put pgFAULT FAULT_STATUS_FIRST_VALID 1)) (fun t => !t.on pgFAULT FAULT_STATUS_FIRST_VALID) = true ∧
    goes (exec (.firstClear 1 2) fatal) (fun t => t.get pgFAULT IGNORED_CAUSE_REASON == 10) = true ∧
    goes (exec (.faultLogCapture 1 4095) w) (fun t => t.get pgFAULT FAULT_LOG_DATA == 0x04030201 && t.get pgFAULT (FAULT_LOG_DATA.at 1) == 5) = true ∧
    goes (exec (.tallyWindowExpiry 1 8975 h) w) (fun t => t.fault.colTally == []) = true ∧
    goes (exec (.tallyWindowExpiry 2 271 h) w) (fun t => t.fault.galTally == []) = true ∧
    goes (exec (.tallyWindowExpiry 3 2 (h - 1)) w) (fun t => t.fault.coreTally.length == 1) = true := by decide +kernel

theorem test_alive :
    let s := (up [pgFAULT]).put pgFAULT FAULT_ALIVE_ENABLE 1
    let a : State := { s with fault := { s.fault with hbCurrent := true } }
    let half := s.get pgFAULT FAULT_ALIVE_HALF_AC
    let late := s.get pgFAULT FAULT_HB_CFG_TIMEOUT_MS * 1000000
    let b := free a 2
    (b.accepts 1 pgFAULT 0x0C4 = true ∧ b.accepts 2 pgFAULT 0x0C8 = true ∧ b.accepts 1 pgFAULT 0x0CC = true ∧ b.quoined pgFAULT = false) ∧
    goes (exec (.aliveToggle (40 * half)) a) (fun t => t.get pgFAULT FAULT_STATUS_ALIVE_LEVEL == 1 && t.fault.aliveAt == 40 * half) = true ∧
    goes (exec (.aliveToggle (40 * half - 1)) a) (fun t => t.get pgFAULT FAULT_STATUS_ALIVE_LEVEL == 0) = true ∧
    goes (exec (.heartbeatDeadline late) a) (fun t => t.on pgFAULT FAULT_STATUS_HB_MISSED && t.fault.loc == [⟨0x002, 36, 0, 0⟩]) = true ∧
    goes (exec (.heartbeatDeadline (late - 1)) a) (fun t => t.fault.hbCurrent) = true ∧
    goes (exec (.aliveEnableWrite 1 (BitVec.ofNat 32 (2 ^ 17 + 1250)) 5) b) (fun t => t.on pgFAULT FAULT_ALIVE_ENABLE && t.get pgFAULT FAULT_ALIVE_HALF_AC == 1250) =
      true ∧
    goes (exec (.aliveEnableWrite 1 1249 5) b) (fun t => t.get pgFAULT IGNORED_CAUSE_REASON == 7) = true ∧
    goes (exec (.heartbeatKick 1 1 5) b) (fun t => t.fault.lastKick == 5) = true ∧
    goes (exec (.heartbeatKick 2 1 5) b) (fun t => t.get pgFAULT IGNORED_CAUSE_REASON == 2) = true ∧
    goes (exec (.hbTimeoutWrite 1 1000 5) b) (fun t => t.get pgFAULT FAULT_HB_CFG_TIMEOUT_MS == 1000) = true ∧
    goes (exec (.hbTimeoutWrite 1 1001 5) b) (fun t => t.get pgFAULT IGNORED_CAUSE_REASON == 7) = true := by decide +kernel

/-! ## The register window -/

/-- Every page of a block in service that has one page of its own at most, feeder port 15 and router 63 among them. -/
def tPage : State := up [pgFEED 15, pgCLOCK, pgHOST, pgJOBS, pgSHEET, pgEVTCNT, pgPTP, pgFRISKET, pgROUTER 63, pgREEL 3]

theorem test_awake : ∀ d, d < 52 → tPage.asleep d = false := by decide +kernel

/-- FEED_REPLAY_WINDOW is RWL, FEED_RX_RUNT RC, FEED_STATUS RO, and page 0x3FFD and offset 0xF00 hold no register. -/
theorem test_register_write :
    let p := pgFEED 15
    let q := tPage.put p PAGE_CTRL_QUOIN 1
    let r := tPage.put p PAGE_STATUS_RESETTING 1
    let n := up []
    (pageBlock p = some (.feed, 15) ∧ tPage.accepts 1 p 0x094 = true ∧ writable p 0x094 = true ∧ writable p 0x060 = false ∧
      q.quoined p = true ∧ q.accepts 1 p 0x094 = true ∧ (∃ f ∈ fieldsAt p 0x094, f.acc = .rwl) ∧ pageBlock 0x3FFD = none ∧
      tPage.pageAllows 1 p 0x094 true = true ∧ tPage.pageAllows 1 0x3FFD 0xF00 true = true) ∧
    goes (exec (wholeWrite 1 p 0x094 0xFFFFFFFF 5) tPage) (fun t => t.get p FEED_REPLAY_WINDOW == 0xFFFFFFFF) = true ∧
    goes (exec (wholeWrite 1 p 0x094 0xFFFFFFFF 5) q) (fun t => t.get p FEED_REPLAY_WINDOW == 64 && t.get p IGNORED_CAUSE_REASON == 4) = true ∧
    goes (exec (wholeWrite 1 p 0x094 1 5) r) (fun t => t.get p FEED_REPLAY_WINDOW == 64 && t.get p IGNORED_CAUSE_REASON == 9) = true ∧
    goes (exec (wholeWrite 1 p 0x094 1 5) n) (fun t => t.get p FEED_REPLAY_WINDOW == 64 && t.get p IGNORED_CAUSE_REASON == 3) = true ∧
    goes (exec (wholeWrite 1 p 0x060 1 5) tPage) (fun t => t.get p FEED_RX_RUNT == 0 && t.get p IGNORED_CAUSE_COUNT == 0) = true ∧
    goes (exec (.registerWrite 1 p 0x095 [1, 2, 3] 5) tPage) (fun t => t.get p IGNORED_CAUSE_REASON == 1 && t.get p IGNORED_CAUSE_OFFSET == 0x094) =
      true ∧
    goes (exec (.registerWrite 1 p 0x094 [1, 0, 0, 0, 2, 0, 0, 0] 5) tPage) (fun t => t.get p FEED_REPLAY_WINDOW == 1) = true ∧
    goes (exec (wholeWrite 1 0x3FFD 0xF00 1 5) tPage) (fun t => t.mono == 5 && t.regs == tPage.regs) = true := by decide +kernel

theorem test_register_read :
    let p := pgFEED 15
    let s := ((tPage.put p FEED_RX_RUNT 7).put p FEED_RX_FRAMES_LO 8).put p FEED_RX_FRAMES_HI 9
    (s.capture p 0x060 1 = none ∧ isLo p 0x060 = false ∧ isHi p 0x060 = false ∧ isLo p 0x050 = true ∧ s.pageAllows 1 p 0x060 false = true) ∧
    goes (exec (.counterRead 1 p 0x060) s) (fun t => t.out == [.readData 1 7] && t.get p FEED_RX_RUNT == 0) = true ∧
    goes (exec (.loCaptureRead 1 p 0x050) s) (fun t => t.out == [.readData 1 8] && t.get p FEED_RX_FRAMES_HI == 0 &&
      goes (exec (.loCaptureRead 1 p 0x054) t) (fun x => x.out == [.readData 1 8, .readData 1 9] && x.caps == [])) = true ∧
    goes (exec (.counterRead 1 0x3FFD 0xF00) s) (fun t => t.out == [.readData 1 0]) = true := by decide +kernel

theorem test_page_header :
    let c := pgCLOCK
    let q := tPage.put c PAGE_CTRL_QUOIN 1
    let e := (((tPage.put (pgREEL 3) REEL_CAL_OFFSET_OFFSET_NS 5).put (pgREEL 3) EVT_PEND 1).put (pgREEL 3) REEL_CFG_SCRUB_H 3)
    (pageBlock c = some (.clock, 0) ∧ tPage.accepts 1 c 0x010 = true ∧ tPage.accepts 1 c 0x008 = true ∧ blockSoftReset .clock = false ∧
      blockSoftReset .reel = true ∧ pageBlock (pgREEL 3) = some (.reel, 3) ∧ e.accepts 1 (pgREEL 3) 0x008 = true) ∧
    goes (exec (wholeWrite 1 c 0x014 0xFFFFFFFF 5) tPage) (fun t => t.reg c 0x014 == BitVec.ofNat 32 (2 ^ blockEventBits .clock - 1)) = true ∧
    goes (exec (wholeWrite 1 c 0x008 0 5) q) (fun t => t.quoined c) = true ∧
    goes (exec (.quoinSet 1 c 1) tPage) (fun t => t.quoined c && t.on c PAGE_CTRL_ENABLE) = true ∧
    goes (exec (.softReset 1 c 4) tPage) (fun t => t.get c IGNORED_CAUSE_REASON == 16) = true ∧
    goes (exec (.softReset 1 (pgREEL 3) 4) e) (fun t => t.on (pgREEL 3) PAGE_STATUS_RESETTING && t.reg (pgREEL 3) 0x010 == 0 &&
      t.get (pgREEL 3) REEL_CAL_OFFSET_OFFSET_NS == 5) = true ∧
    goes (exec (.softResetDone c) (tPage.put c PAGE_STATUS_RESETTING 1)) (fun t => !t.on c PAGE_STATUS_RESETTING) = true ∧
    goes (exec (.softResetDone c) tPage) (fun t => t.regs == tPage.regs) = true ∧
    goes (exec (.probeClear 1 c 5) (tPage.put c PROBE_CNT_LO 7)) (fun t => t.get c PROBE_CNT_LO == 0 && t.get c PROBE_SEL_EVENT == 5) = true ∧
    goes (exec (.probeClear 1 c 6) tPage) (fun t => t.get c IGNORED_CAUSE_REASON == 6) = true := by decide +kernel

theorem test_probe_wrap :
    let c := pgCLOCK
    let n := tPage.put c PROBE_SEL_EVENT 5
    let w := (n.put c PROBE_CNT_LO 0xFFFFFFFF).put c PROBE_CNT_HI 0xFFFF
    (tPage.countsNc c = false ∧ n.countsNc c = true ∧ 1 ≤ (n.advance 1000000).ncNow) ∧
    goes (exec (.probeWrap c 1000000) tPage) (fun t => t.mono == 1000000 && !t.on c PROBE_SEL_OVF) = true ∧
    goes (exec (.probeWrap c 1000000) n) (fun t => !t.on c PROBE_SEL_OVF && t.get c PROBE_CNT_LO == 0) = true ∧
    goes (exec (.probeWrap c 1000000) w) (fun t => t.on c PROBE_SEL_OVF && t.get c PROBE_CNT_HI == 0) = true := by decide +kernel

/-! ## Feeder ports -/

/-- Port 15 enabled with a lock. -/
def tPort : State :=
  let s := up [pgFEED 15, pgSHEET, pgCOLOPHON]
  (s.put (pgFEED 15) FEED_CTRL_ENABLE 1).put (pgFEED 15) FEED_STATUS_LINK 1

def tSec : SecTag := { known := true, serial := 9, pn := 1, icvOk := true }

/-- A frame with an EtherType and a body, tags, and a SecTAG where MACsec finds something. -/
def tEth (dst et : Nat) (body : List Byte) (tags : List Tag := []) (sec : Option SecTag := none) : EthFrame :=
  { tFrame with bytes := ethBytes dst 2 tags (if sec.isSome then secTagBytes 0 1 2 100 else []) et body, found := sec.getD tFound }

def tLldp : EthFrame := tEth macLldp etLldp []

/-- Sheet's EtherType at reset; a body that begins a hello of step 7. -/
def tPair : EthFrame := tEth macLldp 34997 ([3] ++ List.replicate 31 0 ++ [7])

/-- The decisions of R79 to R82 and R123, by the counter or the queue they end in. -/
theorem test_frame_reception :
    let p := pgFEED 15
    let r := fun (s : State) (f : EthFrame) (c : Fld) => goes (exec (.feedFrameReceive 15 f 5) s) fun t => t.get p c == 1
    let passes := fun (s : State) (f : EthFrame) => goes (exec (.feedFrameReceive 15 f 5) s) fun t => t.feed.passed == [(15, f)]
    let nap := dom tPort 31 2
    let late := tPort.setPort 15 { tPort.port 15 with rxHigh := 100 }
    (tPort.on p FEED_STATUS_LINK = true ∧ tPort.domState 31 ≠ 2 ∧ nap.domain 31 = DomainSt.reset ∧ tPort.addressPasses 15 macLldp = true ∧
      tPort.addressPasses 15 3 = false ∧ tPort.sheetType = 34997 ∧ isPairStep tPair = true ∧ isPairStep tLldp = false) ∧
    goes (exec (.feedFrameReceive 15 tLldp 5) nap) (fun t => (t.domain 31).waking == some (4, 0)) = true ∧
    goes (exec (.feedFrameReceive 15 tLldp 5) (up [])) (fun t => t.feed.passed == []) = true ∧
    [r tPort { tLldp with length := 63 } FEED_RX_RUNT, r tPort { tLldp with length := 9217 } FEED_RX_OVERSIZE,
     r tPort { tLldp with fcsOk := false } FEED_RX_FCS_ERR, r tPort (tEth macControl etLldp []) FEED_RX_PAUSE,
     r tPort tLldp FEED_RX_FRAMES_LO, !r tPort (tEth 3 etLldp []) FEED_RX_FRAMES_LO,
     passes tPort tLldp, passes tPort (tEth macLldp etLldp [] [⟨0x8100, 1⟩, ⟨0x8100, 2⟩, ⟨0x88A8, 3⟩]),
     r tPort (tEth macLldp etPtp []) FEED_RX_UNSECURED,
     passes (tPort.put p FEED_CTRL_PTP_UNCONTROLLED 1) (tEth macLldp etPtp []),
     r tPort tPair FEED_RX_UNSECURED, passes (tPort.put p FEED_CTRL_PAIRING 1) tPair,
     r tPort (tEth macLldp 0x0800 []) FEED_RX_OTHER,
     r tPort (tEth macLldp etLldp [] [] (some { tSec with icvOk := false })) FEED_MACSEC_BAD_ICV,
     r late (tEth macLldp etLldp [] [] (some { tSec with pn := 36 })) FEED_MACSEC_LATE,
     passes late (tEth macLldp etLldp [] [] (some { tSec with pn := 37 })),
     r tPort (tEth macLldp 0x0800 [] [] (some tSec)) FEED_RX_OTHER,
     goes (exec (.feedFrameReceive 15 (tEth macLldp etLldp [] [] (some { tSec with pn := pnLimit })) 5) tPort) (fun t => (t.port 15).sak == 1)].all
       id = true := by decide +kernel

/-- An entry bound to port 15. -/
def tBound : FtEntry :=
  { FtEntry.reset with state := .bound, gen := 255, serial := 9, port := 15, streams := [] }

def withFt (s : State) (i : Nat) (e : FtEntry) : State := s.setFt i e

theorem test_port_link :
    let p := pgFEED 15
    let off := up [pgFEED 15]
    let on := off.put p FEED_CTRL_ENABLE 1
    let b := withFt tPort 255 tBound
    let pdu := fun (k : Nat) => lldpTlv 1 [7] ++ lldpOrg k [1, 0, 0, 0, 2, 0, 0, 0] ++ lldpTlv 0 []
    (off.accepts 1 p 0x040 = true ∧ on.on p FEED_STATUS_LINK = false ∧ tPort.asleep 31 = false) ∧
    goes (exec (.feedEnableWrite 1 15 true 5) off) (fun t => t.on p FEED_CTRL_ENABLE) = true ∧
    goes (exec (.feedEnableWrite 1 15 false 5) b) (fun _ => true) = true ∧
    goes (exec (.feedPairingOpen 1 15) off) (fun t => t.on p FEED_CTRL_PAIRING) = true ∧
    goes (exec (.blockLockGain 15 5) on) (fun t => t.on p FEED_STATUS_LINK && t.on p FEED_STATUS_FEC_ACTIVE) = true ∧
    goes (exec (.blockLockGain 15 5) off) (fun t => !t.on p FEED_STATUS_LINK) = true ∧
    goes (exec (.blockLockLoss 15 true 5) (b.put p FEED_CTRL_SPEED 2)) (fun t => t.get p FEED_RX_FCS_ERR == 1 &&
      t.get p FEED_STATUS_SPEED_ACTIVE == 1 && (t.ft 255).state == .stale) = true ∧
    goes (exec (.blockLockLoss 15 false 5) off) (fun t => t.get p FEED_LINK_LOSSES == 0) = true ∧
    goes (exec (.speedWindowExpiry 15) (on.put p FEED_CTRL_SPEED 2)) (fun t => t.get p FEED_STATUS_SPEED_ACTIVE == 1) = true ∧
    goes (exec (.speedWindowExpiry 15) on) (fun t => t.get p FEED_STATUS_SPEED_ACTIVE == 0) = true ∧
    goes (exec (.lockHoldExpiry 15) tPort) (fun t => (t.port 15).held) = true ∧
    goes (exec (.lldpTransmit 15) tPort) (fun t => t.get p FEED_TX_FRAMES_LO == 1 && t.out.length == 1) = true ∧
    goes (exec (.mkaHelloTransmit 15) tPort) (fun t => t.out == [.frame 15 false (ethBytes macPae (tPort.portMac 15) [] [] etEapol [0x10])]) = true ∧
    goes (exec (.lldpTransmit 15) off) (fun t => t.out == []) = true ∧
    goes (exec (.lldpReceive 15 (pdu 3)) tPort) (fun t => t.get p FEED_LLDP_SERIAL_LO == 1 && t.get p FEED_LLDP_SERIAL_HI == 2) = true ∧
    goes (exec (.lldpReceive 15 (pdu 2)) tPort) (fun t => t.get p FEED_LLDP_SERIAL_LO == 0) = true := by decide +kernel

/-- The port secured, an entry of the table, and the hello of its feeder. -/
def tHelloed (e : FtEntry) : State := (withFt tPort 255 e).put (pgFEED 15) FEED_STATUS_SECURED 1

def tHi (step : Nat) : Hello := { tHello with step := step, serial := 9, handle := 255 * 256 + 255 }

/-- The frame of a hello, and what MACsec finds of it. -/
def tHf (h : Hello) (sec : Option SecTag := some tSec) (more : List Byte := []) : EthFrame :=
  tEth 1 34997 ([0x13] ++ List.replicate 31 0 ++ helloBytes h ++ more) [] sec

/-- STEP and REASON of a hello that the outputs hold, in a frame with a SecTAG. -/
def tAnswers (t : State) : List (Nat × Nat) := t.out.map fun o => match o with
  | .frame 15 true b => (fieldLE b 62 1, fieldLE b 63 1)
  | _ => (0, 0)

/-- The table with every entry of a state. -/
def tFull (st : FtState) : State :=
  let s := tHelloed FtEntry.reset
  let es := (List.range 256).map fun i => (i, { FtEntry.reset with state := st, serial := 1000 + i, staleSince := 300 - i })
  { s with feed := { s.feed with table := es } }

theorem test_hello_offer :
    let live := (tHelloed tBound).get pgSHEET SHEET_FT_CTRL_LIVE_MS * 1000000
    let refuses := fun (s : State) (f : EthFrame) (n code : Nat) => goes (exec (.helloOffer 15 f n) s) fun t =>
      tAnswers t == [(4, code)] && t.get pgSHEET SHEET_HELLO_REFUSED == 1
    let gives := fun (s : State) (n i : Nat) => goes (exec (.helloOffer 15 (tHf (tHi 1)) n) s) fun t =>
      (t.ft i).state == .offered && (t.ft i).serial == 9 && (t.ft i).mac == 2 && tAnswers t == [(2, 0)]
    ((tFull .bound).ftFree = none ∧ (tFull .bound).ftOldestStale = none ∧ (tFull .stale).ftOldestStale = some 255 ∧
      (tHelloed tBound).ftOfSerial 9 = some 255 ∧ (tFull .bound).ftOfSerial 9 = none ∧ badList (tHi 1) = false ∧
      helloOf (tHf (tHi 1)).body = tHi 1 ∧ (tHelloed tBound).pending = []) ∧
    [refuses (tHelloed tBound) (tHf (tHi 1) (some { tSec with serial := 8 })) 5 5,
     refuses (tHelloed tBound) (tHf { tHi 1 with streams := 65 }) 5 3,
     refuses (tHelloed tBound) (tHf (tHi 1) (some tSec) [0]) 5 4, refuses (tFull .bound) (tHf (tHi 1)) 5 1,
     gives (tFull .stale) 5 255, gives (tHelloed FtEntry.reset) 5 0,
     gives (tHelloed { tBound with state := .stale }) 5 255, gives (tHelloed tBound) live 255,
     refuses (tHelloed tBound) (tHf (tHi 1)) (live - 1) 2, gives (tHelloed { tBound with state := .offered }) 5 255,
     refuses (tHelloed { tBound with state := .offered, port := 14 }) (tHf (tHi 1)) 5 2].all id = true := by decide +kernel

/-- Of two offers of the same cycle, the lower port's is resolved first and the other is a duplicate (R109). -/
theorem test_hello_offer_order :
    let s := (tHelloed FtEntry.reset).put (pgFEED 14) FEED_STATUS_SECURED 1
    let w : State := { s with pending := [.helloOffer 14 (tHf (tHi 1)) 5] }
    w.offerEnters 14 (tHf (tHi 1)) = true ∧
    goes (exec (.helloOffer 15 (tHf (tHi 1)) 5) w) (fun t => tAnswers t == [(4, 2)]) = true := by decide +kernel

theorem test_hello_steps :
    let off := tHelloed { tBound with state := .offered, rxSeq := [(1, some 2)] }
    let open' := withFt tPort 255 tBound
    (255 * 256 + 255 = (tHi 3).handle ∧ (tHelloed tBound).get pgSHEET SHEET_FT_CTRL_LIVE_MS = 3000) ∧
    goes (exec (.helloConfirm 15 (tHf (tHi 3)) 5) off) (fun t => (t.ft 255).state == .bound && (t.ft 255).rxSeq == [] &&
      (t.ft 255).lastFrame == 5) = true ∧
    goes (exec (.helloKeepalive 15 (tHf (tHi 5)) 5) (tHelloed tBound)) (fun t => (t.ft 255).lastFrame == 5) = true ∧
    goes (exec (.helloKeepalive 14 (tHf (tHi 5)) 5) ((tHelloed tBound).put (pgFEED 14) FEED_STATUS_SECURED 1))
      (fun t => (t.ft 255).lastFrame == 0 && t.mono == 5) = true ∧
    goes (exec (.helloLeave 15 (tHf (tHi 6)) 5) (tHelloed tBound)) (fun t => (t.ft 255).state == .free && (t.ft 255).gen == 1) = true ∧
    goes (exec (.helloBadStep 15 (tHf (tHi 9))) (tHelloed tBound)) (fun t => t.get pgSHEET SHEET_HELLO_BAD == 1) = true ∧
    goes (exec (.helloBadStep 15 (tHf (tHi 9) none)) open') (fun t => t.get (pgFEED 15) FEED_RX_UNSECURED == 1) = true := by decide +kernel

theorem test_feeder_table :
    let hold := tPort.get pgSHEET SHEET_FT_CTRL_HOLD_S * 1000000000
    let stale := tHelloed { tBound with state := .stale }
    (tPort.accepts 1 pgSHEET 0x044 = true) ∧
    goes (exec (.confirmTimeout 255) (tHelloed { tBound with state := .offered })) (fun t => (t.ft 255).state == .free) = true ∧
    goes (exec (.confirmTimeout 255) stale) (fun t => (t.ft 255).state == .stale) = true ∧
    goes (exec (.feederLiveExpiry 255 3000000000) (tHelloed tBound)) (fun t => (t.ft 255).state == .stale && bit (t.get (pgFEED 15) EVT_PEND) 3) =
      true ∧
    goes (exec (.feederLiveExpiry 255 2999999999) (tHelloed tBound)) (fun t => (t.ft 255).state == .bound) = true ∧
    goes (exec (.staleHoldExpiry 255 hold) stale) (fun t => (t.ft 255).state == .free) = true ∧
    goes (exec (.staleHoldExpiry 255 (hold - 1)) stale) (fun t => (t.ft 255).state == .stale) = true ∧
    goes (exec (.ftIndexCapture 1 255 7000000) (tHelloed tBound)) (fun t => t.get pgSHEET SHEET_FT_ENTRY_HANDLE == 0xFFFF &&
      t.get pgSHEET SHEET_FT_ENTRY_STATE == 2 && t.get pgSHEET SHEET_FT_AGE_MS == 7 && t.get pgSHEET SHEET_FT_SERIAL_LO == 9) = true ∧
    goes (exec (.ftEvict 1 255 5) (tHelloed tBound)) (fun t => (t.ft 255).state == .free) = true ∧
    goes (exec (.ftEvict 1 255 5) tPort) (fun t => t.get pgSHEET IGNORED_CAUSE_REASON == 10) = true := by decide +kernel

/-- A ceremony that waits for the code 999999; 256 pairings. -/
def tCeremony : State := tPort.setPort 15 { tPort.port 15 with ceremony := some { serial := 9, x := [1], code := 999999 } }
def tPairings : List Pairing := (List.range 256).map fun i => { serial := i + 1000, cak := [], ckn := [] }

theorem test_pairing :
    let p := pgFEED 15
    let on := tPort.put p FEED_CTRL_PAIRING 1
    let full : State := { on with feed := { on.feed with pairings := tPairings } }
    (tPort.accepts 1 pgCOLOPHON 0x044 = true ∧ (∀ q ∈ tPairings, q.serial ≠ 9) ∧ 256 ≤ tPairings.length) ∧
    goes (exec (.helloPairRequest 15 (tHf (tHi 7) none) 5) tPort) (fun t => t.get p FEED_RX_UNSECURED == 1) = true ∧
    goes (exec (.helloPairRequest 15 (tHf (tHi 7) none) 5) full) (fun t => t.get pgSHEET SHEET_HELLO_REFUSED == 1 && (t.port 15).ceremony == none) = true ∧
    goes (exec (.helloPairRequest 15 (tHf (tHi 7) none) 5) on) (fun t => (t.port 15).ceremony.isSome) = true ∧
    goes (exec (.pairConfirmWrite 1 15 999999) tCeremony) (fun t => (t.feed.pairings.map fun q => (q.serial, q.cak.length, q.ckn.length)) == [(9, 32, 16)] &&
      (t.port 15).ceremony == none) = true ∧
    goes (exec (.pairConfirmWrite 1 15 5) tCeremony) (fun t => t.feed.pairings == [] && (t.port 15).ceremony == none) = true ∧
    goes (exec (.pairConfirmWrite 1 15 1000000) tCeremony) (fun t => t.get pgCOLOPHON IGNORED_CAUSE_REASON == 7) = true ∧
    goes (exec (.pairConfirmWrite 1 15 5) tPort) (fun t => t.get pgCOLOPHON IGNORED_CAUSE_REASON == 10) = true ∧
    goes (exec (.pairingTimeout 15) tCeremony) (fun t => (t.port 15).ceremony == none && t.feed.pairings == []) = true := by decide +kernel

theorem test_mka :
    let p := pgFEED 15
    let s : State := { tPort with feed := { tPort.feed with pairings := [⟨9, [], []⟩] } }
    let sec := ((withFt s 255 tBound).setPort 15 { s.port 15 with peers := [(9, 0)] }).put p FEED_STATUS_SECURED 1
    goes (exec (.eapolReceive 15 9 true true 5) s) (fun t => (t.port 15).peers == [(9, 5)] && t.on p FEED_STATUS_SECURED && (t.port 15).sak == 1) = true ∧
    goes (exec (.eapolReceive 15 8 true true 5) s) (fun t => (t.port 15).peers == []) = true ∧
    goes (exec (.eapolReceive 15 9 true true 5) sec) (fun t => (t.port 15).sak == 0) = true ∧
    goes (exec (.mkaLifeExpiry 15 6000000000) sec) (fun t => !t.on p FEED_STATUS_SECURED && (t.ft 255).state == .stale && (t.port 15).peers == []) = true ∧
    goes (exec (.mkaLifeExpiry 15 5) s) (fun t => !t.on p FEED_STATUS_SECURED) = true := by decide +kernel

/-! ## Time, Sheet and the drive -/

theorem test_device_time :
    let s := (up []).put pgPTP PTP_CTRL_PPS_OUT_EN 1
    goes (exec (.deviceSecond 1000000000) (s.put pgPTP PTP_ADJ_FREQ 1024)) (fun t => t.dev == 1000000001 && t.mono == 1000000000 &&
      t.out == [.ppsOut] && t.evt.incoming == [449]) = true ∧
    goes (exec (.deviceSecond 1000000000) (s.put pgPTP PTP_ADJ_FREQ 0xFFFFFC00)) (fun t => t.dev == 999999999) = true := by decide +kernel

/-- A PTP message of a type, with no more than its common header and a timestamp field; its frame. -/
def tPtpMsg (kind : Nat) : List Byte := bytesLE 1 kind ++ List.replicate 43 0
def tPtpFrame (sec : Option SecTag) (dom : Nat := 0) : EthFrame := tEth macPtp etPtp (withDomain (tPtpMsg 0) dom) [] sec

theorem test_ptp_frames :
    let p := pgFEED 15
    let o := tPort.put p FEED_CTRL_PTP_UNCONTROLLED 1
    let sec := tPort.put p FEED_STATUS_SECURED 1
    let slave := (tPort.put pgPTP PTP_CTRL_ROLE 1).put pgPTP PTP_STATUS_HOLDOVER 1
    let near : State := { slave with ptp := { slave.ptp with good := 15 } }
    let rx := fun (s : State) (f : EthFrame) (sync : Option Int) (q : State → Bool) => goes (exec (.ptpFrameReceive 15 f sync 7) s) q
    let sends := fun (s : State) (k : Nat) (out : List Output) => goes (exec (.ptpMessageSend 15 (tPtpMsg k) 7) s) fun t => t.out == out
    let plain := fun (dst : Nat) (b : List Byte) => Output.frame 15 false (ethBytes dst (tPort.portMac 15) [] [] etPtp b)
    let stamped := (tPtpMsg 0).take 34 ++ [0, 0, 0, 0, 0, 0, 0, 0, 0, 7]
    (ptpType (tPtpFrame none).body < 4 ∧ (tPtpFrame (some tSec)).sec = some tSec ∧ (tPtpFrame none).sec = none) ∧
    [rx tPort (tPtpFrame (some tSec)) none fun t => (t.port 15).rxStamp == 7,
     rx tPort (tPtpFrame none) none fun t => t.get p FEED_RX_UNSECURED == 1 && (t.port 15).rxStamp == 0,
     rx near (tPtpFrame (some tSec)) (some (-50)) fun t => t.on pgPTP PTP_STATUS_LOCKED && !t.on pgPTP PTP_STATUS_HOLDOVER &&
       t.get pgPTP PTP_STATUS_SLAVE_PORT == 15 && t.ptp.good == 16,
     rx near (tPtpFrame (some tSec)) (some 51) fun t => !t.on pgPTP PTP_STATUS_LOCKED && t.ptp.good == 0,
     rx near (tPtpFrame (some tSec) 5) (some 0) fun t => t.ptp.good == 15 && t.on pgPTP PTP_STATUS_HOLDOVER,
     sends (o.put p FEED_CTRL_PTP_ONE_STEP 1) 0 [plain macPtp stamped], sends o 0 [plain macPtp (tPtpMsg 0)], sends o 1 [plain macPtp (tPtpMsg 1)],
     sends (o.put p FEED_CTRL_PTP_PDELAY 1) 1 [], sends (o.put p FEED_CTRL_PTP_PDELAY 1) 2 [plain macLldp (tPtpMsg 2)], sends o 2 [],
     goes (exec (.ptpMessageSend 15 (tPtpMsg 0) 7) sec) fun t => (t.out.map fun x => match x with | .frame 15 true b => b.drop 28 | _ => []) ==
       [bytesBE 2 etPtp ++ tPtpMsg 0] && (t.port 15).txPn == 1 && (t.port 15).txStamp == 7,
     goes (exec (.ptpMessageSend 15 (tPtpMsg 0) 7) (sec.setPort 15 { sec.port 15 with txPn := pnLimit - 1 })) fun t => (t.port 15).txPn == 0 &&
       (t.port 15).sak == 1,
     sends tPort 0 []].all id = true := by decide +kernel

theorem test_ptp_registers :
    let s := up [pgPTP]
    (s.accepts 1 pgPTP 0x050 = true ∧ s.accepts 1 pgPTP 0x054 = true ∧ s.pageAllows 1 pgPTP 0x044 false = true) ∧
    goes (exec (.ptpAdjFreqWrite 1 (BitVec.ofInt 32 (-1024000000)) 5) s) (fun t => t.get pgPTP PTP_ADJ_FREQ == 2 ^ 32 - 1024000000) = true ∧
    goes (exec (.ptpAdjFreqWrite 1 1024000001 5) s) (fun t => t.get pgPTP IGNORED_CAUSE_REASON == 7) = true ∧
    goes (exec (.ptpAdjStep 1 999999999 5) s) (fun t => t.dev == 1000000004 && t.on pgPTP PTP_STATUS_TIME_SET && t.mono == 5) = true ∧
    goes (exec (.ptpAdjStep 1 1000000000 5) s) (fun t => t.get pgPTP IGNORED_CAUSE_REASON == 7 && t.dev == 5) = true ∧
    goes (exec (.ptpTimeCaptureRead 1 3000000007) s) (fun t => t.out == [.readData 1 7] && t.capture pgPTP 0x048 1 == some 3) = true := by
  decide +kernel

theorem test_pps :
    let s := up [pgPTP]
    let three := s.put pgPTP PTP_CTRL_ROLE 3
    let seen : State := { three with ptp := { ppsSeen := true, todWritten := false, good := 0 } }
    let tod : State := { three.put pgPTP PTP_TOD_NEXT_SEC_LO 9 with ptp := { ppsSeen := false, todWritten := true, good := 9 } }
    goes (exec (.ppsInEdge 5) s) (fun t => t.mono == 5 && !t.on pgPTP PTP_STATUS_TIME_SET) = true ∧
    goes (exec (.ppsInEdge 1000001000) seen) (fun t => t.dev == 1000000000 && !t.on pgPTP PTP_STATUS_PPS_FAULT) = true ∧
    goes (exec (.ppsInEdge 1000001001) seen) (fun t => t.dev == 1000000000 && t.on pgPTP PTP_STATUS_PPS_FAULT && t.get pgPTP EVT_PEND == 1) = true ∧
    goes (exec (.ppsInEdge 5) tod) (fun t => t.dev == 9000000000 && !t.ptp.todWritten) = true ∧
    goes (exec (.ppsTimeout 5) three) (fun t => t.on pgPTP PTP_STATUS_PPS_FAULT) = true ∧
    goes (exec (.ptpMasterLost 5) (s.put pgPTP PTP_CTRL_ROLE 2)) (fun t => t.on pgPTP PTP_STATUS_HOLDOVER && t.ptp.good == 0) = true ∧
    goes (exec (.ptpMasterLost 5) three) (fun t => !t.on pgPTP PTP_STATUS_HOLDOVER) = true := by decide +kernel

/-- A stream of two 4-byte channels from channel 5 on, 4,000 samples a second; a data frame of one of them. -/
def tStream : StreamEntry := { id := 3, dir := 1, format := 3, first := 5, channels := 2, rate := 4000 }

def tHdr (first : Nat) : SheetHdr :=
  { version := 1, kind := 1, flags := 1, handle := 0xFFFF, stream := 3, format := 3, seq := 5, first := first, samples := 1, channels := 1,
    len := 4, chOff := 0, ts := 0 }

def tData (h : SheetHdr) (payload : List Byte := [1, 2, 3, 4]) : EthFrame :=
  tEth 1 34997 (sheetHdrBytes h ++ payload) [] (some tSec)

/-- Slot 65,535 takes channel 5; its ring of 1,024 words lies in Stone for the test, blocks of one sample. -/
def tSlot : SlotImage :=
  { SlotImage.none with serial := 9, channel := 5, valid := true, ringLog2 := 10, rate := 4000, block := 1, ringBase := 0x1000 }

def tSheet (last : Option Nat := none) (nx : Nat := 1) (x : SlotImage := tSlot) : State :=
  let s := free (withFt (up [pgSHEET, pgIMPOSE, pgFEED 15]) 255 { tBound with streams := [tStream], rxSeq := SMap.set none [] 3 last }) 11
  { s with impose := { s.impose with copyA := [(65535, { image := x, crc := 0 })], openBlock := some 1,
                                     dyn := SMap.set SlotDyn.zero [] 65535 { SlotDyn.zero with nx := nx } } }

/-- A frame among those the port passed, and its command. -/
def withPassed (s : State) (f : EthFrame) : State := { s with feed := { s.feed with passed := [(15, f)] } }
def parsed (s : State) (f : EthFrame) (p : State → Bool) : Bool := goes (exec (.sheetDataFrame 15 f 5) (withPassed s f)) p

theorem test_data_frame : DataFrame (withPassed tSheet (tData (tHdr 1))) 15 255 (tData (tHdr 1)) tStream ∧
    SlotTakes (withPassed tSheet (tData (tHdr 1))) 255 65535 (5 + 0) tStream := by
  refine ⟨⟨by decide +kernel, by decide +kernel, by decide +kernel, by decide +kernel, by decide +kernel, by decide +kernel, by decide +kernel,
    by decide +kernel, by decide +kernel, by decide +kernel, ⟨tSec, by decide +kernel, rfl, by decide +kernel⟩, by decide +kernel⟩,
    ⟨by decide +kernel, ?_, by decide +kernel, by decide +kernel, by decide +kernel, by decide +kernel, by decide +kernel⟩⟩
  intro j hj _
  have h : (withPassed tSheet (tData (tHdr 1))).ft j = SMap.get FtEntry.reset [(255, { tBound with streams := [tStream], rxSeq := [] })] j := rfl
  by_cases hk : j = 255
  · exact hk
  · rw [h] at hj
    simp [SMap.get, hk, FtEntry.reset] at hj

theorem test_sheet_parsing :
    let s := tSheet
    let deep := tEth 1 34997 [] [⟨0x8100, 1⟩, ⟨0x8100, 2⟩, ⟨0x88A8, 3⟩]
    let full : State := { s with feed := { s.feed with excq := List.replicate 16 tFrame } }
    let c := fun (f : Fld) (t : State) => t.get pgSHEET f == 1
    goes (exec (.sheetDataFrame 15 deep 5) s) (fun t => t.feed == s.feed && t.mono == 5) = true ∧
    [parsed s deep fun t => c SHEET_DEEP_NEST t && t.feed.excq == [deep], parsed full deep (c SHEET_EXCQ_DROPS),
     parsed s (tEth 1 34997 [1] [] (some tSec)) (c (SHEET_PORT_DISCARDS.at 15)), parsed s (tData { tHdr 1 with version := 2 }) (c SHEET_BAD_VERSION),
     parsed s (tData { tHdr 1 with kind := 2 }) (c SHEET_BAD_KIND), parsed s (tData { tHdr 1 with kind := 3 }) fun t => t.regs == s.regs,
     parsed s (tData { tHdr 1 with handle := 0xFEFF }) (c SHEET_BAD_HANDLE), parsed s (tData { tHdr 1 with format := 1 }) (c SHEET_BAD_FORMAT),
     parsed s (tData { tHdr 1 with chOff := 2 }) (c SHEET_BAD_SHAPE), parsed s (tData (tHdr 1) [1, 2, 3]) (c (SHEET_PORT_DISCARDS.at 15)),
     parsed (tSheet (some 3)) (tData (tHdr 1)) (c SHEET_SEQ_GAPS), parsed (tSheet (some 5)) (tData (tHdr 1)) (c SHEET_SEQ_OLD),
     parsed s (tData { tHdr 1 with flags := 2 }) (c SHEET_FEEDER_UNLOCKED)].all id = true := by decide +kernel

/-- The ring word of a sample waits with its codeword until the codeword is whole; a Stone place is written at once (R541, R161). -/
theorem test_samples :
    let run := fun (s : State) (first : Nat) (p : State → Bool) => parsed s (tData (tHdr first)) p
    let word := fun (a : Nat) => (List.range 4).map fun i => (a + i, some (BitVec.ofNat 8 (i + 1)))
    let blocks : SlotImage := { tSlot with block := 16 }
    let s := tSheet none 15 blocks
    let old := (List.range 60).map fun i => (0x1000 + i, some (BitVec.ofNat 8 (i + 7)))
    let whole : State := { s with impose := { s.impose with gather := [(0x1000, old)] } }
    let stone := tSheet none 1 { tSlot with stone := true, stoneWord := 9 }
    let place := 0x03400000 + 1 * 0x100000 + 4 * 9
    (whole.memOk 0x1000 64 = true ∧ whole.regionOk 11 0x1000 64 true = true ∧ stone.memOk place 4 = true ∧ stone.regionOk 11 place 4 true = true ∧
      runsOf old = [(0x1000, (List.range 60).map fun i => BitVec.ofNat 8 (i + 7))]) ∧
    [run tSheet 1 fun t => t.impose.gather == [(0x1000, word 0x1004)] && (t.dynOf 65535).nx == 2 && (t.dynOf 65535).received == 1 &&
       (t.dynOf 65535).ovr && (t.dynOf 65535).active && t.byte 0x1004 == 0,
     run whole 15 fun t => t.impose.gather == [] && t.byte 0x1000 == 7 && t.byte 0x103B == 66 && t.byte 0x103C == 1 && t.byte 0x103F == 4,
     run stone 1 fun t => t.byte place == 1 && t.byte (place + 3) == 4,
     run tSheet 0 fun t => t.get pgSHEET SHEET_LATE_SAMPLES_LO == 1 && (t.dynOf 65535).nx == 1,
     run tSheet 3 fun t => t.get pgSHEET SHEET_EARLY_SAMPLES_LO == 1 && (t.dynOf 65535).nx == 1,
     run tSheet 2 fun t => (t.dynOf 65535).nx == 3 && (t.dynOf 65535).gapfill == 1].all id = true ∧
    goes (exec .stoneDataReady tSheet) (fun t => t.impose.ready == some 0) = true ∧
    goes (exec .stoneDataReady tPort) (fun t => t.impose.ready == none) = true := by decide +kernel

/-- An imposition image of one entry at 0x400, validating. -/
def tImage1 (x : SlotImage) : State :=
  let s := free (up [pgIMPOSE, pgSTONE, pgFORME, pgJOBS, pgREEL 0, pgFEED 15]) 17
  let s := ((s.put pgIMPOSE IMPOSE_STATUS_VALIDATING 1).put pgIMPOSE IMPOSE_IMAGE_SLOTS_SLOTS 1).put pgIMPOSE IMPOSE_IMAGE_LO 0x400
  let s := ((s.put (pgREEL 0) REEL_STATUS_IN_SERVICE 1).put pgFORME FORME_STATUS_ROWS 1).put pgJOBS JOBS_SP_PERIOD_NS_P 250000
  let s := s.put pgSTONE STONE_LEDGER_CAPACITY 725000
  let cells := ((imageBytes x).zipIdx.filter fun y => y.1 != 0).map fun y => (0x400 + y.2, y.1)
  { s with mem := { s.mem with stone := cells }, impose := { s.impose with image := (0x400, 1) } }

def tReelSlot : SlotImage := { tSlot with ringBase := reelBase }

theorem test_imposition_image :
    let s := tImage1 tReelSlot
    (s.memOk 0x400 64 = true ∧ s.regionOk 17 0x400 64 false = true ∧ s.imposeFault [(0, tReelSlot)] = none ∧
      s.imposeFault [(0, { tReelSlot with rate := 204801 })] = some (2, 0) ∧ imageOf (s.bytes 0x400 64) = tReelSlot ∧
      s.on pgSTONE STONE_LEDGER_STATUS_CHECKING = false) ∧
    (∀ w, s.isWeak w = false ∧ s.isBad w = false) ∧
    goes (exec .imposeValidationDone s) (fun t => t.slot 0 == tReelSlot && t.get pgIMPOSE IMPOSE_GENERATION_GENERATION == 1 &&
      t.mem.entry0 == 1 && !t.on pgIMPOSE IMPOSE_STATUS_VALIDATING) = true := by
  refine ⟨by decide +kernel, fun w => ?_, by decide +kernel⟩
  have h1 : (tImage1 tReelSlot).mem.badStone = [] := rfl
  have h2 : (tImage1 tReelSlot).mem.badReel = [] := rfl
  have h3 : (tImage1 tReelSlot).mem.weakStone = [] := rfl
  have h4 : (tImage1 tReelSlot).mem.weakReel = [] := rfl
  simp [State.isWeak, State.isBad, h1, h2, h3, h4, SMap.get]

theorem test_imposition_refusals :
    let s := tImage1 tReelSlot
    let code := fun (s : State) (n : Nat) => goes (exec .imposeValidationDone s) fun t => t.get pgIMPOSE IMPOSE_STATUS_ERROR == n &&
      t.get pgIMPOSE IGNORED_CAUSE_REASON == 12
    let idle := s.put pgIMPOSE IMPOSE_STATUS_VALIDATING 0
    [code { s with impose := { s.impose with image := (0x400, 65537) } } 1, code (tImage1 { tReelSlot with rate := 204801 }) 2,
     code (tImage1 { tReelSlot with block := 2 }) 4, code (s.put pgSTONE STONE_LEDGER_CAPACITY 0) 11].all id = true ∧
    goes (exec .imposeValidationDone (s.put pgJOBS JOBS_SP_STATUS_RUNNING 1)) (fun t => t.impose.waiting.isSome &&
      t.on pgIMPOSE IMPOSE_STATUS_WAITING && t.mem.entry0New == some 1) = true ∧
    goes (exec .imposeValidationDone idle) (fun t => t.impose == idle.impose) = true ∧
    idle.accepts 1 pgIMPOSE 0x04C = true ∧
    goes (exec (.imposeCommit 1) (idle.put pgIMPOSE IMPOSE_IMAGE_LO 0x840)) (fun t => t.on pgIMPOSE IMPOSE_STATUS_VALIDATING &&
      t.impose.image == (0x840, 1)) = true ∧
    goes (exec (.imposeCommit 1) s) (fun t => t.get pgIMPOSE IGNORED_CAUSE_REASON == 9) = true := by decide +kernel

/-- The table of tSheet in both copies with its CRC-32. -/
def tTable : State :=
  let c : SlotCopy := { image := tSlot, crc := crc32 (imageBytes tSlot) }
  { tSheet with impose := { (tSheet).impose with copyA := [(65535, c)], copyB := [(65535, c)] } }

theorem test_imposition_table :
    let s := tTable
    let same := fun (t : State) => t.impose.copyA == s.impose.copyA && t.impose.copyB == s.impose.copyB
    let differ : State := { s with impose := { s.impose with copyB := [] } }
    goes (exec (.imposeTableScrub []) s) same = true ∧
    goes (exec (.imposeTableScrub []) differ) (fun t => same t || t.fault.net == [⟨0x03A, 20, 0, 65535⟩]) = true ∧
    goes (exec (.imposeTableScrub [(65535, true, false)]) s) (fun t => same t && t.fault.net == [⟨0x03A, 20, 0, 65535⟩]) = true ∧
    goes (exec (.imposeTableScrub [(65535, false, true)]) s) (fun t => same t && t.fault.net == [⟨0x03A, 20, 0, 65535⟩]) = true ∧
    goes (exec (.imposeTableScrub [(65535, true, true)]) s) (fun t => t.slotState 65535 == 4 && t.fault.net == [⟨0x03B, 20, 0, 65535⟩]) = true ∧
    s.accepts 1 pgIMPOSE 0x060 = true ∧ s.slotState 65535 = 1 ∧
    goes (exec (.slotIndexCapture 1 65535) s) (fun t => t.get pgIMPOSE IMPOSE_SLOT_STATE_STATE == 1 && t.get pgIMPOSE IMPOSE_SLOT_NEXT_LO == 1) =
      true := by decide +kernel

/-- A drive image of one entry at 0x400, validating. -/
def tDrive (src : Nat) : State :=
  let s := free (up [pgDRIVE, pgJOBS, pgFEED 15]) 17
  let s := (s.put pgDRIVE DRIVE_IMAGE_ENTRIES 1).put pgDRIVE DRIVE_IMAGE_LO 0x400
  let s := s.put pgDRIVE DRIVE_BUF_WORDS 8
  { s with mem := { s.mem with stone := [(0x400, 9), (0x40A, 1), (0x40C, BitVec.ofNat 8 src)] }, drive := { s.drive with validating := true, image := (0x400, 1) } }

theorem test_drive_table :
    let s := tDrive 7
    let e : DriveEntry := { serial := 9, channel := 0, valid := true, srcWord := 7 }
    let still : State := { s with drive := DriveSt.reset }
    let code := fun (s : State) (n : Nat) => goes (exec .driveValidationDone s) fun t => t.get pgDRIVE DRIVE_COMMIT_STATUS_ERROR == n
    (driveEntryOf (s.bytes 0x400 16) = e ∧ s.driveFault [(0, e)] = none ∧ s.memOk 0x400 16 = true ∧ s.regionOk 17 0x400 16 false = true ∧
      still.accepts 1 pgDRIVE 0x068 = true) ∧
    goes (exec .driveValidationDone s) (fun t => t.drive.table == [(0, e)] && !t.drive.validating) = true ∧
    goes (exec .driveValidationDone (s.put pgJOBS JOBS_SP_STATUS_RUNNING 1)) (fun t => t.drive.waiting == some [(0, e)] && t.drive.table == []) = true ∧
    [code (tDrive 8) 3, code { s with drive := { s.drive with image := (0x400, 1025) } } 1].all id = true ∧
    goes (exec .driveValidationDone still) (fun t => t.drive == still.drive) = true ∧
    goes (exec (.driveCommit 1) still) (fun t => t.drive.validating && t.drive.image == (0x400, 1)) = true ∧
    goes (exec (.driveCommit 1) s) (fun t => t.get pgDRIVE DRIVE_COMMIT_STATUS_ERROR == 4 && t.get pgDRIVE IGNORED_CAUSE_REASON == 9) = true := by
  decide +kernel

/-- The fade in a state, begun at 100 for 50 ns, with k repeats owed. -/
def tFade (st k : Nat) : State :=
  let s := (free (up [pgDRIVE, pgFEED 15]) 0).put pgDRIVE DRIVE_FADE_STATUS_STATE st
  { s with drive := { s.drive with t0 := 100, fadeT := 50, fadeCause := 4, afterRamp := k } }

theorem test_fade :
    (tFade 0 0).accepts 1 pgDRIVE 0x040 = true ∧
    goes (exec (.fadeReqWrite 1 2 5) (tFade 0 0)) (fun t => t.get pgDRIVE DRIVE_FADE_STATUS_STATE == 1 && t.drive.t0 == 5 && t.drive.fadeCause == 4 &&
      t.drive.fadeT == 100000000) = true ∧
    goes (exec (.fadeReqWrite 1 2 5) (tFade 1 0)) (fun t => bit (t.get pgDRIVE DRIVE_FADE_STATUS_CAUSES) 3 && t.drive.t0 == 100) = true ∧
    goes (exec (.fadeClear 1 4 5) (tFade 2 0)) (fun t => t.get pgDRIVE DRIVE_FADE_STATUS_STATE == 0 && t.drive.cleared) = true ∧
    goes (exec (.fadeClear 1 4 5) (tFade 1 0)) (fun t => t.get pgDRIVE IGNORED_CAUSE_REASON == 10) = true ∧
    goes (exec (.fadeDone 150) (tFade 1 0)) (fun t => t.get pgDRIVE DRIVE_FADE_STATUS_STATE == 2) = true ∧
    goes (exec (.fadeDone 149) (tFade 1 0)) (fun t => t.get pgDRIVE DRIVE_FADE_STATUS_STATE == 1) = true ∧
    goes (exec (.fadeFrameRepeat 110) (tFade 2 3)) (fun t => t.drive.afterRamp == 2) = true ∧
    goes (exec (.fadeFrameRepeat 110) (tFade 2 0)) (fun t => t.drive.afterRamp == 0 && t.mono == 110) = true := by decide +kernel

theorem test_fade_frames :
    let s := ((tFade 1 0).put pgDRIVE DRIVE_GRP_CFG_VALID 1 64).put pgDRIVE DRIVE_GRP_CFG_FADE 1 64
    let s := (s.put pgDRIVE DRIVE_GRP_CFG_PORTS 0x8000 64).put pgDRIVE DRIVE_GRP_MAC_LO 0x0102 64
    let open' := (s.put (pgFEED 15) FEED_STATUS_LINK 1).put (pgFEED 15) FEED_STATUS_SECURED 1
    (∀ x, x < 64 → (s.on pgDRIVE DRIVE_GRP_CFG_VALID (x + 1) && s.on pgDRIVE DRIVE_GRP_CFG_FADE (x + 1)) = decide (x = 63)) ∧
    (open'.canSend 15 = true ∧ (open'.port 15).txRoom = true ∧ s.canSend 15 = false) ∧
    goes (exec (.fadeFrameRepeat 110) open') (fun t => t.out.length == 1 && SMap.get 0 t.drive.grpSeq 63 == 1) = true ∧
    goes (exec (.fadeFrameRepeat 110) s) (fun t => t.out == [] && t.get pgDRIVE DRIVE_GRP_MISSED 64 == 1) = true := by decide +kernel

/-! ## The Web engine -/

/-- A chain of f32 elements at 0x8000 (LA), 0x8100 (LB) stored at 0x8200: one node word, or none (R477 to R482). -/
def tLanes (a n : Nat) (on : Bool) : List Byte := bytesLE 6 a ++ bytesLE 1 1 ++ bytesLE 1 (b2n on) ++ bytesLE 4 1 ++ bytesLE 4 n ++ bytesLE 4 0
def tChain (format : Nat) (node : Option Nat) (n : Nat := 1) : List Byte :=
  bytesLE 1 format ++ bytesLE 1 (if node.isSome then 0x81 else 0x10) ++ bytesLE 1 1 ++ bytesLE 1 0 ++ bytesLE 4 0xABCD ++ bytesLE 8 0 ++
  bytesLE 32 (node.getD 0) ++ tLanes 0x8000 n true ++ tLanes 0x8100 n node.isSome ++ tLanes 0 0 false ++ tLanes 0x8200 n true

def tRef : ChainRef := { desc := 0x9000, seq := 3, src := 0, ticket := 0 }
def tRef2 : ChainRef := { tRef with src := 2, ticket := 6 }

/-- Web 7 enabled, with what it holds, and a descriptor in Stone; 1.5 and 0.25 in the elements. -/
def tWeb (x : WebSt) (d : List Byte := []) : State :=
  let s := free (free (up [pgWEB 7, pgCOMPOSITOR, pgSTONE, domPage 11]) 0) 9
  let s1 := (s.put (pgWEB 7) WEB_CTRL_ENABLE 1).put (pgWEB 7) WEB_CREC_HEAD 3
  let s2 := { s1 with webs := SMap.set WebSt.reset s1.webs 7 x }
  (s2.setBytes 0x9000 d).setBytes 0x8000 (bytesLE 4 0x3FC00000) |>.setBytes 0x8100 (bytesLE 4 0x3E800000)

/-- A memory whose lists of errors are empty has an error in no word. -/
theorem clean_words (s : State) (h : s.mem.badStone = [] ∧ s.mem.badReel = [] ∧ s.mem.weakStone = [] ∧ s.mem.weakReel = []) :
    (∀ w, s.isBad w = false) ∧ ∀ w, s.isWeak w = false := by
  simp [State.isBad, State.isWeak, h, SMap.get]

theorem test_chain_submit :
    let w := fun (t : State) => t.web 7
    let full : WebSt := { WebSt.reset with standing := List.replicate 64 tRef, job := List.replicate 32 tRef2 }
    let s := tWeb WebSt.reset
    let on := (s.put (pgWEB 7) WEB_QCFG_JOB_SLOTS 32).put (pgWEB 7) WEB_SUBMIT_LO 0x9010
    let onFull := { on with webs := SMap.set WebSt.reset s.webs 7 full }
    let j : State := { on with webs := SMap.set WebSt.reset s.webs 7 { WebSt.reset with incoming := [tRef2] } }
    let jFull : State := { on with webs := SMap.set WebSt.reset s.webs 7 { full with incoming := [tRef2] } }
    (on.accepts 0 (pgWEB 7) 0x050 = true ∧ on.accepts 9 (pgWEB 7) 0x050 = true ∧ on.asleep 11 = false ∧ on.webDepth 7 0 < 32 ∧ 32 ≤ onFull.webDepth 7 0 ∧
      on.on (pgWEB 7) WEB_CREC_CFG_EN = false ∧ on.webDepth 7 1 < 32 ∧ 32 ≤ jFull.webDepth 7 1) ∧
    goes (exec (.webSubmit 7 0 0) on) (fun t => (w t).standing == [{ tRef with desc := 0x9000 }] && t.get (pgWEB 7) WEB_CREC_HEAD == 4 &&
      (w t).recs == [⟨{ tRef with desc := 0x9000 }, none⟩]) = true ∧
    goes (exec (.webSubmit 7 0 0) onFull) (fun t => t.get (pgWEB 7) WEB_REFUSED == 1 && t.get (pgWEB 7) WEB_LAST_ERROR_CAUSE == 1 &&
      (w t) == full) = true ∧
    goes (exec (.webSubmit 7 9 0) on) (fun t => t.get (pgWEB 7) IGNORED_CAUSE_REASON == 2 && (w t).standing == []) = true ∧
    goes (exec (.jobChainSubmit 7) on) (fun t => t.webs == on.webs && t.regs == on.regs) = true ∧
    goes (exec (.jobChainSubmit 7) (dom j 11 3)) (fun t => (w t).incoming == [tRef2] && (t.domain 11).waking == some (5, 0)) = true ∧
    goes (exec (.jobChainSubmit 7) j) (fun t => (w t).incoming == [] && (w t).job == [tRef2]) = true ∧
    goes (exec (.jobChainSubmit 7) jFull) (fun t => (w t) == full && t.get (pgWEB 7) WEB_LAST_ERROR_CAUSE == 1) = true := by decide +kernel

/-- A web whose next chain is ref, in its queue. -/
def tNext (ref : ChainRef) : WebSt :=
  { WebSt.reset with standing := if ref.src = 0 then [ref] else [], job := if ref.src = 0 then [] else [ref], recs := [⟨ref, none⟩] }
def tRun (d : List Byte) (q : Option (Nat × Nat)) (ref : ChainRef := tRef) : ChainRun := { ref := ref, desc := d, discard := q, done := false }
def fAdd : Option Nat := some 0x20120000

theorem test_chain_start_meets :
    let s := tWeb (tNext tRef) (tChain 1 fAdd)
    Readable s 9 tRef.desc 128 ∧ ∀ w, s.isWeak w = false := by
  have c := clean_words (tWeb (tNext tRef) (tChain 1 fAdd)) (by decide +kernel)
  have r : (tWeb (tNext tRef) (tChain 1 fAdd)).memOk tRef.desc 128 = true ∧
      (tWeb (tNext tRef) (tChain 1 fAdd)).regionOk 9 tRef.desc 128 false = true := by decide +kernel
  exact ⟨⟨r.1, r.2, c.1⟩, c.2⟩

theorem test_chain_start :
    let w := fun (t : State) => t.web 7
    let d := tChain 1 fAdd
    let s := tWeb (tNext tRef) d
    let long := tWeb (tNext tRef2) (tChain 1 fAdd 2)
    let busy := tWeb { tNext tRef with running := [tRun d none] } d
    let refused := fun (s : State) (c : Nat) => goes (exec (.chainStart 7) s) fun t => t.get (pgWEB 7) WEB_LAST_ERROR_CAUSE == c &&
      t.get (pgWEB 7) WEB_LAST_ERROR_TAG == 0xABCD && (w t) == WebSt.reset && t.get (pgWEB 7) WEB_LAST_SEQ == 3
    (s.webUp 7 = true ∧ s.on (pgWEB 7) WEB_CTRL_ENABLE = true ∧ s.domState 11 < 2 ∧ s.inMemory (0x9000, 0x9000 + 127) = true ∧
      s.bytes 0x9000 128 = d ∧ s.chainCause 7 false (chainOf d) = none ∧ s.sleepingStacks tRef (chainOf d) = [] ∧
      (long.put (pgWEB 7) WEB_QCFG_JOB_COUNT_LOG2 0).chainCause 7 true (chainOf (tChain 1 fAdd 2)) = some 11 ∧
      hazardWith (chainOf d) (chainOf d) = true) ∧
    goes (exec (.chainStart 7) (tWeb WebSt.reset)) (fun t => t.webs == (tWeb WebSt.reset).webs) = true ∧
    goes (exec (.chainStart 7) (s.put (pgWEB 7) WEB_CTRL_ENABLE 0)) (fun t => t.webs == s.webs) = true ∧
    refused (tWeb (tNext tRef) (tChain 2 fAdd)) 3 = true ∧
    refused (tWeb (tNext tRef) (tChain 1 (some 0x20130000))) 4 = true ∧
    refused (long.put (pgWEB 7) WEB_QCFG_JOB_COUNT_LOG2 0) 11 = true ∧
    goes (exec (.chainStart 7) s) (fun t => (w t) == { WebSt.reset with recs := [⟨tRef, none⟩], running := [tRun d none] }) = true ∧
    goes (exec (.chainStart 7) busy) (fun t => (w t).hazard && (w t).standing == [tRef] && t.get (pgWEB 7) WEB_HAZARD_WAITS == 1) = true := by
  decide +kernel

theorem test_web_flush :
    let w := fun (t : State) => t.web 7
    let q : WebSt := { WebSt.reset with standing := [tRef], job := [tRef2] }
    let s := tWeb q
    let busy := tWeb { q with running := [tRun [] none] }
    s.accepts 0 (pgWEB 7) 0x040 = true ∧
    ([Instr.webFlush 7 0 0, .webEnableWrite 7 0 0].all fun c => goes (exec c s) fun t => !t.on (pgWEB 7) WEB_CTRL_ENABLE && (w t) == q) = true ∧
    ([Instr.webFlush 7 0 5, .webEnableWrite 7 0 5].all fun c => goes (exec c s) fun t => t.on (pgWEB 7) WEB_CTRL_ENABLE && (w t) == WebSt.reset &&
      t.get (pgWEB 7) WEB_FLUSHED == 2) = true ∧
    ([Instr.webFlush 7 0 4, .webEnableWrite 7 0 4].all fun c => goes (exec c busy) fun t => !t.on (pgWEB 7) WEB_CTRL_ENABLE &&
      (w t).flushing == [tRef, tRef2] && (w t).standing == []) = true := by decide +kernel

/-- A web that runs one chain. -/
def tRuns (d : List Byte) (q : Option (Nat × Nat)) : State := tWeb { WebSt.reset with running := [tRun d q], recs := [⟨tRef, none⟩] } d

/-- 1.5 copied; 1.5 + 0.25, 1.5 - 0.25, 1.5 * 0.25, 1.5 / 0.25 (spec/08). -/
theorem test_chain_end :
    let w := fun (t : State) => t.web 7
    let one := chainOf (tChain 1 fAdd)
    let stores := fun (node : Option Nat) (x : Nat) => goes (exec (.chainEnd 7 0 9) (tRuns (tChain 1 node) none)) fun t =>
      t.numAt 0x8200 4 == x && t.get (pgWEB 7) WEB_CHAINS_LO == 1 && (w t) == WebSt.reset && bit (t.get (pgWEB 7) EVT_PEND) 3
    (RunsAlone (tRuns (tChain 1 fAdd) none) 7 (tRun (tChain 1 fAdd) none) ∧ OneElement one ∧ OneElement (chainOf (tChain 1 none)) ∧
      one.nodes = 1 ∧ one.node = [⟨2, 0, 1, 2, 0, 0⟩] ∧ one.stSrc = 8 ∧ one.lb.enable = true ∧ one.lb.type = 1 ∧ one.lb.count = 1 ∧
      (tRuns (tChain 1 fAdd) none).memOk 0x8200 4 = true ∧ (tRuns (tChain 1 fAdd) none).runningChain 7 1 = none) ∧
    stores none 0x3FC00000 = true ∧ stores fAdd 0x3FE00000 = true ∧ stores (some 0x21120000) 0x3FA00000 = true ∧
    stores (some 0x10120000) 0x3EC00000 = true ∧ stores (some 0x80120000) 0x40C00000 = true := by
  unfold RunsAlone OneElement; decide +kernel

theorem test_chain_discard :
    let w := fun (t : State) => t.web 7
    let d := tChain 1 fAdd
    goes (exec (.chainDiscard 7 0 6 5) (tRuns d none)) (fun t => ((w t).running.map (·.discard)) == [some (6, 5)] &&
      t.get (pgWEB 7) WEB_DISCARDED == 1 && t.get (pgWEB 7) WEB_FAULT_ADDR_LO == 0) = true ∧
    goes (exec (.chainDiscard 7 0 2 0x8003) (tRuns d none)) (fun t => t.get (pgWEB 7) WEB_FAULT_ADDR_LO == 0x8003) = true ∧
    goes (exec (.chainDiscard 7 0 2 5) (tRuns d none)) (fun t => t.webs == (tRuns d none).webs) = true ∧
    goes (exec (.chainEnd 7 0 9) (tRuns d (some (6, 5)))) (fun t => t.get (pgWEB 7) WEB_LAST_ERROR_STATUS == 2 &&
      t.get (pgWEB 7) WEB_LAST_ERROR_CAUSE == 6 && (w t) == WebSt.reset) = true := by decide +kernel

/-! ## Stone and Reel -/

/-- Stone and four Reel stacks in service; a web (master 2 or 9) and master 13 may reach everything. -/
def tMem : State :=
  let s := free (free (free (up ([pgSTONE, pgPOWER, domPage 2] ++ (List.range 4).map pgREEL)) 13) 0) 1
  (List.range 4).foldl (fun s k => s.put (pgREEL k) REEL_STATUS_IN_SERVICE 1) s

def rd (m a : Nat) : ReelReq := { master := m, addr := a, len := 4, data := none }
def wr (m a : Nat) : ReelReq := { master := m, addr := a, len := 2, data := some [1, 2] }
def withMem (s : State) (f : MemSt → MemSt) : State := { s with mem := f s.mem }
def reelTop : Nat := reelBase + 2 ^ 36 - 4

theorem test_memory_grants (q : ReelReq) (h : q ∈ [rd 0 0x03FFFFFC, wr 13 0x03E00000, rd 2 reelBase, wr 13 (reelTop + 2)]) : Grants tMem q := by
  have c := clean_words tMem (by decide +kernel)
  have g : ∀ q ∈ [rd 0 0x03FFFFFC, wr 13 0x03E00000, rd 2 reelBase, wr 13 (reelTop + 2)],
      tMem.memOk q.addr (match q.data with | some bs => bs.length | none => q.len) = true ∧
      (2 ≤ q.master ∧ q.master ≤ 10 ∨
        tMem.regionOk q.master q.addr (match q.data with | some bs => bs.length | none => q.len) q.data.isSome = true) := by decide +kernel
  exact ⟨(g q h).1, (g q h).2, c.1, c.2⟩

/-- Bank 30, owned by both log ports: the processors before a late scrub read, that before the owner, the owner before round robin (R526). -/
theorem test_stone_order :
    let a := 30 * 2 ^ 21
    let who := fun (s : State) (ms : List Nat) => match exec (.stoneAccess 30 (ms.map fun m => rd m a) 5) s with
      | .next t => match t.out with
        | [.memory m _ _] => some m
        | _ => none
      | _ => none
    let own := tMem.bankOwner 30
    let late := withMem tMem fun m => { m with scrubOver := [(30, 1)], scrubDue := [(30, 1)] }
    let last := withMem tMem fun m => { m with lastGrant := [(30, 6)] }
    tMem.owns 30 own = true ∧ tMem.owns 30 16 = true ∧ 1 < own ∧
    who late [13, 1, 0] = some 0 ∧ who late [13, own, 1] = some 1 ∧ who late [13, own] = none ∧ who tMem [13, 3, own] = some own ∧
    who last [13, 9, 3, 6] = some 6 ∧ who last [13, 3] = some 13 ∧ who last [5, 3] = some 3 := by decide +kernel

theorem test_stone_access :
    let q := rd 0 0x03FFFFFC
    let s := tMem.setBytes 0x03FFFFFC [9, 8, 7, 6]
    tMem.memOk 0x03FFFFFE 4 = false ∧ tMem.regionOk 15 0x03E00000 2 true = false ∧
    goes (exec (.stoneAccess 31 [q] 5) s) (fun t => t.out == [.memory 0 true [9, 8, 7, 6]] && SMap.get 0 t.mem.lastGrant 31 == 1) = true ∧
    goes (exec (.stoneAccess 31 [wr 13 0x03E00000] 5) s) (fun t => t.out == [.memory 13 true []] && t.numAt 0x03E00000 4 == 0x201) = true ∧
    goes (exec (.stoneAccess 31 [rd 0 0x03FFFFFE] 5) s) (fun t => t.out == [.memory 0 false []] &&
      t.fault.net == [⟨0x031, 18, 0x03FFFFFE, 32⟩]) = true ∧
    goes (exec (.stoneAccess 31 [wr 15 0x03E00000] 5) s) (fun t => t.out == [.memory 15 false []] && t.byte 0x03E00000 == 0#8 &&
      t.get pgSTONE STONE_REGION_REFUSED == 1 && t.get pgSTONE STONE_REGION_LAST_MASTER == 15 && t.on pgSTONE STONE_REGION_LAST_WRITE &&
      t.fault.net == [⟨0x031, 18, 0x03E00000, 15 + 64⟩]) = true := by decide +kernel

theorem test_stone_scrub :
    let w := 31 * 2 ^ 21 + 8
    let weak := withMem tMem fun m => { m with weakStone := [(w, true)], stoneRewrites := [w] }
    let weakR := withMem tMem fun m => { m with weakReel := [(reelBase, true)], reelRewrites := [reelBase] }
    let due := withMem tMem fun m => { m with scrubDue := [(31, 2)] }
    let mends := fun (c : Instr) => goes (exec c weak) fun t => t.mem.stoneRewrites == [] && !t.isWeak w
    mends (.stoneAccess 31 [] 5) = true ∧ mends (.stoneCorrectionRewrite w) = true ∧
    goes (exec (.stoneCorrectionRewrite 0) weak) (fun t => t.mem == weak.mem) = true ∧
    goes (exec (.reelCorrectionRewrite reelBase) weakR) (fun t => t.mem.reelRewrites == [] && t.mem.weakReel == []) = true ∧
    goes (exec (.reelCorrectionRewrite 0) weakR) (fun t => t.mem == weakR.mem) = true ∧
    goes (exec (.stoneAccess 31 [] 5) tMem) (fun t => t.mem == tMem.mem && t.mono == 5) = true ∧
    goes (exec (.stoneAccess 31 [] 5) due) (fun t => t.mem.scrubRead == [(31, 1)] && t.mem.scrubDue == [(31, 1)]) = true ∧
    goes (exec (.stoneScrubDue 5) (dom tMem 2 2)) (fun t => t.mem.scrubDue == []) = true ∧
    goes (exec (.stoneScrubDue 5) due) (fun t => SMap.get 0 t.mem.scrubDue 31 == 3 && SMap.get 0 t.mem.scrubDue 0 == 1) = true ∧
    goes (exec (.stoneScrubOverdue 31) due) (fun t => t.mem.scrubOver == [(31, 1)] && t.on pgSTONE STONE_SCRUB_STATUS_LATE) = true ∧
    goes (exec (.stoneScrubOverdue 30) due) (fun t => t.mem.scrubOver == []) = true := by decide +kernel

/-- Stack 3 with a window open. -/
def tTrain (k : Nat) : State := tMem.put (pgREEL k) REEL_STATUS_RETRAINING 1

theorem test_reel_access :
    let k := tMem.stackOf reelBase
    let s := tMem.setBytes reelBase [9, 8, 7, 6]
    let slow := withMem s fun m => { m with ledger := [(1, { master := 2, rate := 100 })], tokens := [(2, (70000, 5))] }
    goes (exec (.reelAccess [rd 2 reelBase] 5) (tTrain k)) (fun t => t.mem.reelWait == [rd 2 reelBase] && t.out == []) = true ∧
    goes (exec (.reelAccess [rd 2 reelBase] 5) s) (fun t => t.out == [.memory 2 true [9, 8, 7, 6]] && SMap.get (0, 0) t.mem.tokens 2 == (0, 5)) =
      true ∧
    goes (exec (.reelAccess [rd 2 reelBase] 15) slow) (fun t => SMap.get (0, 0) t.mem.tokens 2 == (7000, 15)) = true ∧
    goes (exec (.reelAccess [wr 13 (reelTop + 2)] 5) s) (fun t => t.out == [.memory 13 true []] && t.numAt (reelTop + 2) 2 == 0x201) = true := by
  decide +kernel

/-- A guaranteed request before a best-effort one that came first; of best-effort ones round robin; of one channel only (R547). -/
theorem test_reel_order :
    let who := fun (s : State) (qs : List ReelReq) => match exec (.reelAccess qs 5) s with
      | .next t => match t.out with
        | [.memory m _ _] => some m
        | _ => none
      | _ => none
    let a := reelBase
    let paid := withMem tMem fun m => { m with ledger := [(1, { master := 9, rate := 100 })], tokens := [(9, (70000, 5))] }
    let last := withMem tMem fun m => { m with lastReel := [(tMem.channelOf a, 6)] }
    tMem.channelOf a ≠ tMem.channelOf (a + 2 ^ 13) ∧ (tMem.advance 5).guaranteed (rd 9 a) = false ∧ (paid.advance 5).guaranteed (rd 9 a) = true ∧
    (∀ r ∈ [rd 3 a, rd 9 a], r.addr = a) ∧
    who paid [rd 3 a, rd 9 a] = some 9 ∧ who last [rd 3 a, rd 9 a] = some 9 ∧ who last [rd 5 a, rd 3 a] = some 3 ∧
    who tMem [rd 9 a, rd 3 (a + 2 ^ 13)] = some 9 := by decide +kernel

/-- Readings of 85 °C and 86 °C, of 82 °C and 83 °C in band 1 (R542, R543). -/
theorem test_reel_temperature :
    let p := pgREEL 3
    let r := fun (s : State) (c : BitVec 8) (next low : Nat) => goes (exec (.reelTempReading 3 c) s) fun t =>
      t.get p REEL_STATUS_TEMP_C == c.toNat && SMap.get 0 t.mem.nextBand 3 == next && SMap.get 0 t.mem.lowReadings 3 == low
    let b1 := tMem.put p REEL_STATUS_BAND 1
    let lows := fun (n : Nat) => withMem b1 fun m => { m with lowReadings := [(3, n)] }
    [r tMem 86 2 0, r tMem 106 3 0, r tMem 85 0 0, r tMem 0xFF 0 0, r (lows 98) 82 0 99, r (lows 99) 82 1 0, r (lows 99) 83 0 0].all id = true ∧
    goes (exec (.reelRefresh 3) tMem) (fun t => t.get p REEL_BAND_CHANGES == 0) = true ∧
    goes (exec (.reelRefresh 3) (withMem b1 fun m => { m with nextBand := [(3, 3)] })) (fun t => t.get p REEL_STATUS_BAND == 2 &&
      t.get p REEL_BAND_CHANGES == 1 && bit (t.get p EVT_PEND) 1) = true := by decide +kernel

theorem test_reel_retrain :
    let p := pgREEL 3
    let run := tMem.put pgJOBS JOBS_SP_STATUS_RUNNING 1
    let due := withMem run fun m => { m with retrainDue := [(3, true)] }
    let k := tMem.stackOf reelBase
    let waits := withMem (tTrain k) fun m => { m with reelWait := [rd 2 reelBase] }
    let other := withMem (tTrain ((k + 1) % 4)) fun m => { m with reelWait := [rd 2 reelBase] }
    let lost := tMem.put p REEL_STATUS_IN_SERVICE 0
    goes (exec (.reelRetrainDue 3 100000000) lost) (fun t => !t.on p REEL_STATUS_RETRAINING) = true ∧
    goes (exec (.reelRetrainDue 3 99999999) tMem) (fun t => t.mem == tMem.mem && t.mono == 99999999) = true ∧
    goes (exec (.reelRetrainDue 3 100000000) run) (fun t => !t.on p REEL_STATUS_RETRAINING && t.mem.retrainDue == [(3, true)]) = true ∧
    goes (exec (.reelRetrainDue 3 100000000) tMem) (fun t => t.on p REEL_STATUS_RETRAINING && t.get p REEL_RETRAINS == 1) = true ∧
    goes (exec (.reelCalSlot 5) tMem) (fun t => !t.mem.calSlot) = true ∧
    goes (exec (.reelCalSlot 5) due) (fun t => t.on p REEL_STATUS_RETRAINING && t.mem.calSlot && t.mem.retrainDue == []) = true ∧
    goes (exec (.reelRetrainEnd 3 5) tMem) (fun t => t.mono == 5 && t.mem == tMem.mem) = true ∧
    goes (exec (.reelRetrainEnd 3 5) (tTrain 3)) (fun t => !t.on p REEL_STATUS_RETRAINING) = true ∧
    goes (exec (.reelRetrainEnd k 5) waits) (fun t => t.mem.reelWait == [] && t.out == [.memory 2 true [0, 0, 0, 0]]) = true ∧
    goes (exec (.reelRetrainEnd ((k + 1) % 4) 5) other) (fun t => t.mem.reelWait == [rd 2 reelBase] && t.out == []) = true ∧
    goes (exec (.reelStackLost 3) tMem) (fun t => !t.on p REEL_STATUS_IN_SERVICE && t.stacks == [0, 1, 2, 3] && t.fault.net == [⟨0x039, 19, 0, 3⟩]) =
      true ∧
    goes (exec (.reelStackLost 3) lost) (fun t => t.fault.net == []) = true := by decide +kernel

theorem test_reel_patrol :
    let a := reelBase
    let k := tMem.stackOf a
    let p := pgREEL k
    let last := tMem.put p REEL_SCRUB_POS_POS (2 ^ 28 - 1)
    let bad := withMem tMem fun m => { m with badReel := [(a, true)] }
    let hour := 3600000000000
    tMem.get p REEL_CFG_SCRUB_H ≠ 0 ∧ bad.isBad (a / 64 * 64) = true ∧
    goes (exec (.reelPatrolScrub k a 5) (tTrain k)) (fun t => t.get p REEL_SCRUB_POS_POS == 0 && t.mono == 5) = true ∧
    goes (exec (.reelPatrolScrub k a 5) tMem) (fun t => t.get p REEL_SCRUB_POS_POS == 1 && !t.on p REEL_STATUS_SCRUB_BEHIND) = true ∧
    goes (exec (.reelPatrolScrub k a hour) tMem) (fun t => t.on p REEL_STATUS_SCRUB_BEHIND && bit (t.get p EVT_PEND) 3) = true ∧
    goes (exec (.reelPatrolScrub k a 5) last) (fun t => t.get p REEL_SCRUB_POS_POS == 0 && t.get p REEL_SCRUB_PASSES == 1 &&
      SMap.get 0 t.mem.passStart k == 5) = true ∧
    goes (exec (.reelPatrolScrub k a 5) bad) (fun t => t.get p REEL_UNCORR == 1 && bit (t.get p EVT_PEND) 0 &&
      t.fault.net == [⟨0x032 + k, 17, a, 63⟩]) = true := by decide +kernel

theorem test_regions :
    let s := free tMem 13
    let v := 0x1105
    let st := ((s.put pgSTONE STONE_REGION_SEL_MASTER 17).put pgSTONE STONE_REGION_SEL_REGION 15).put pgSTONE STONE_REGION_SIZE_SIZE 3
    let hi := (st.put pgSTONE STONE_REGION_BASE_HI_BASE_HI 0xFFFF).put pgSTONE STONE_REGION_BASE_LO_BASE_LO (2 ^ 24 - 2)
    let ign := fun (c : Instr) (s : State) (k : Nat) => goes (exec c s) fun t => t.get pgSTONE IGNORED_CAUSE_REASON == k && t.mem == s.mem
    (s.accepts 1 pgSTONE 0x094 = true ∧ s.accepts 13 pgSTONE 0x094 = true ∧ s.accepts 1 pgSTONE 0x084 = true ∧ hi.quoined pgSTONE = false) ∧
    goes (exec (.regionRightsWrite 1 3) st) (fun t => t.region 17 15 == { base := 0, size := 3, r := true, w := true, whole := false } &&
      t.region 17 14 == st.region 17 14) = true ∧
    goes (exec (.regionRightsWrite 1 7) hi) (fun t => (t.region 17 15).whole) = true ∧
    ign (.regionRightsWrite 13 3) st 2 = true ∧ ign (.regionRightsWrite 1 3) (st.put pgSTONE PAGE_CTRL_QUOIN 1) 4 = true ∧
    ign (.regionRightsWrite 1 3) hi 8 = true ∧ ign (.regionSelect 1 0x1200) s 7 = true ∧
    goes (exec (.regionSelect 1 v) (withMem s fun m => { m with regions := [(17 * 16 + 5, { tRegion with base := 0x100000200, size := 7 })] }))
      (fun t => t.get pgSTONE STONE_REGION_SEL_MASTER == 17 && t.get pgSTONE STONE_REGION_SIZE_SIZE == 7 &&
        t.get pgSTONE STONE_REGION_BASE_LO_BASE_LO == 2 && t.get pgSTONE STONE_REGION_BASE_HI_BASE_HI == 1 && t.on pgSTONE STONE_REGION_RIGHTS_W) =
      true := by decide +kernel

theorem test_ledger :
    let c := tMem.put pgSTONE STONE_LEDGER_STATUS_CHECKING 1
    let staged := fun (x : State) (k m r : Nat) => withMem x fun y => { y with checking := [(k, { master := m, rate := r })] }
    let cap := staged (c.put pgSTONE STONE_LEDGER_CAPACITY 1000) 31 16 1000
    let none' := (up [pgSTONE]).put pgSTONE STONE_LEDGER_STATUS_CHECKING 1
    let set := (tMem.put pgSTONE STONE_LEDGER_MASTER 16 32).put pgSTONE STONE_LEDGER_RATE 1000 32
    let fails := fun (s : State) (k : Nat) => goes (exec .ledgerCheckDone s) fun t => t.get pgSTONE STONE_LEDGER_STATUS_ERROR == k &&
      !t.on pgSTONE STONE_LEDGER_STATUS_CHECKING && t.get pgSTONE IGNORED_CAUSE_REASON == 12 && t.mem == s.mem
    tMem.accepts 13 pgSTONE 0x0A4 = true ∧
    goes (exec (.ledgerCommit 13) set) (fun t => t.on pgSTONE STONE_LEDGER_STATUS_CHECKING && t.mem.checking == cap.mem.checking) = true ∧
    goes (exec (.ledgerCommit 13) c) (fun t => t.get pgSTONE STONE_LEDGER_STATUS_ERROR == 1 && t.get pgSTONE IGNORED_CAUSE_REASON == 9) = true ∧
    goes (exec .ledgerCheckDone tMem) (fun t => t.mem == tMem.mem && t.regs == tMem.regs) = true ∧
    [fails none' 2, fails (staged c 1 17 1) 3, fails (staged c 1 16 1) 4].all id = true ∧
    goes (exec .ledgerCheckDone cap) (fun t => t.mem.ledger == [(31, { master := 16, rate := 1000 })]) = true := by decide +kernel


/-! ## The on-chip network -/

/-- A header (R580): destination, source, virtual network, command; then TAG, SEQ, SLOT_CLASS, BYTES. -/
def tPacket (dst src vn cmd : Nat) (tag : Nat := 0) (seq : Nat := 0) (slot : Nat := 0) (bytes : Nat := 4) : Nat :=
  dst + src * 2 ^ 8 + vn * 2 ^ 16 + cmd * 2 ^ 18 + tag * 2 ^ 29 + seq * 2 ^ 39 + slot * 2 ^ 55 + bytes * 2 ^ 112

def tUnit (h : Nat) (tail : Bool := true) : NocUnit := { vn := hVn h, vc := 0, head := true, tail := tail, data := h }

/-- Every router in service. -/
def tNoc : State :=
  let s := free (up ((List.range 64).map pgROUTER ++ [pgNOC, pgPOWER, domPage 2])) 1
  (List.range 64).foldl (fun s r => s.put (pgROUTER r) ROUTER_STATUS_IN_SERVICE 1) s

def withNoc (s : State) (f : NocSt → NocSt) : State := { s with noc := f s.noc }
def withBuf (s : State) (k : Nat) (us : List NocUnit) : State := withNoc s fun n => { n with buffers := SMap.set [] n.buffers k us }

theorem test_link_units :
    let h := tPacket 191 56 3 8
    let u : NocUnit := { tUnit h with vc := 1 }
    let l := 63 * 8 + 3
    let k := bkey 63 3 3 1
    let s := withNoc tNoc fun n => { n with link := [(l, [u])] }
    let full := withBuf s k (List.replicate 24 u)
    let drops := withNoc s fun n => { n with dropping := [(k, true)] }
    let run := withNoc s fun n => { n with crcRun := [(l, 7)] }
    let back := withNoc tNoc fun n => { n with credits := [(k, 23)], back := [(k, 1)] }
    goes (exec (.linkUnitReceive 63 3 [] 0) tNoc) (fun t => t.noc == tNoc.noc) = true ∧
    goes (exec (.linkUnitReceive 63 3 [] 0) (s.put (pgROUTER 63) ROUTER_STATUS_LINK_DOWN 8)) (fun t => t.noc == s.noc) = true ∧
    goes (exec (.linkUnitReceive 63 3 [] 0) s) (fun t => t.noc.onLink l == [] && t.noc.buffer k == [u]) = true ∧
    goes (exec (.linkUnitReceive 63 3 [] 0) drops) (fun t => t.noc.buffer k == [] && t.noc.returning k == 1 && t.noc.dropping == []) = true ∧
    goes (exec (.linkUnitReceive 63 3 [] 0) full) (fun t => t.get (pgROUTER 63) ROUTER_CREDIT_FAULTS == 1 &&
      t.fault.net == [⟨0x0BF, 28, 0, 3 + 24 + 32⟩]) = true ∧
    goes (exec (.linkUnitReceive 63 3 [5] 0) s) (fun t => t.noc.onLink l == [u] && t.noc.crcRun == [(l, 1)] &&
      t.get (pgROUTER 63) ROUTER_CRC_RETRIES == 1) = true ∧
    goes (exec (.linkUnitReceive 63 3 [5] 0) run) (fun t => t.get (pgROUTER 63) ROUTER_STATUS_LINK_DOWN == 8 &&
      t.get (pgROUTER 62) ROUTER_STATUS_LINK_DOWN == 2 && t.fault.net == [⟨0x0BF, 25, 0, 3⟩]) = true ∧
    goes (exec (.creditReturn 63 3 3 1) back) (fun t => t.noc.credit k == 24 && t.noc.returning k == 0) = true ∧
    goes (exec (.creditReturn 63 3 3 1) tNoc) (fun t => t.noc.credit k == 24 && t.get (pgROUTER 62) ROUTER_CREDIT_FAULTS == 1 &&
      t.fault.net == [⟨0x0BE, 28, 0, 1 + 24 + 32⟩]) = true ∧
    goes (exec (.creditReturn 63 7 3 1) tNoc) (fun t => t.get (pgROUTER 63) ROUTER_CREDIT_FAULTS == 1) = true := by decide +kernel

/-- Router 63 sends east, over the dateline, to router 56: its inputs by virtual network. -/
theorem test_hop_order :
    let key := fun (vn : Nat) => bkey 63 4 vn 0
    let msg := fun (vn : Nat) => tUnit (tPacket 56 63 vn (if vn = 3 then 8 else if vn = 2 then 7 else if vn = 1 then 5 else 3) 0 0 (if vn = 2 then 1 else 0)) (vn != 0)
    let with' := fun (vns : List Nat) => vns.foldl (fun s vn => withBuf s (key vn) [msg vn]) tNoc
    let sent := fun (s : State) => match exec (.packetHop 63 1 128 none) s with
      | .next t => (t.noc.onLink (56 * 8 + 3)).map fun u => (u.vn, u.vc)
      | _ => []
    let flow := withNoc (with' [0, 2, 3]) fun n => { n with inForce := { flows := [(1, { src := 63, dst := 56, valid := true, slots := 1 })], placed := [(1, [0])] } }
    let turn := fun (r : Option (Nat × Nat)) => withNoc (with' [0, 1]) fun n => { n with lastServed := [(63 * 8 + 1, key 0 + 1)], route := SMap.set none [] (key 0) r }
    (tNoc.broken 63 1 = false ∧ flow.slotOwner (63, 1) 0 = some 1 ∧ flow.flowOf (key 2) = some 1 ∧ (with' [0]).ready 1 (key 0) = true) ∧
    [sent tNoc == [], sent (with' [0]) == [(0, 1)], sent (with' [0, 3]) == [(3, 1)], sent flow == [(2, 1)],
     sent (turn (some (1, 1))) == [(0, 1)], sent (turn none) == [(1, 1)]].all id = true ∧
    goes (exec (.packetHop 63 1 0 none) (with' [0])) (fun t => SMap.get none t.noc.route (key 0) == some (1, 1) &&
      t.noc.credit (bkey 56 3 0 1) == 23 && t.noc.lastServed == [(63 * 8 + 1, key 0 + 1)]) = true := by decide +kernel

theorem test_hop_break_and_inject :
    let down := tNoc.put (pgROUTER 63) ROUTER_STATUS_LINK_DOWN 2
    let k := bkey 63 3 0 0
    let post := tPacket 56 0 0 3
    let read := tPacket 56 5 0 1 9
    let resp := withBuf down (bkey 63 3 1 0) [tUnit (tPacket 56 0 1 5)]
    let h := tPacket 184 191 0 1 1023
    let wr := tPacket 184 191 0 3 0 0 0 32
    let w := tPacket 184 191 2 7 0 0 0 32
    let out := fun (s : State) (h : Nat) (d : List Nat) => match exec (.packetHop 63 0 0 (some (h, d))) s with
      | .next t => t.out
      | _ => []
    let busy := withNoc tNoc fun n => { n with outstanding := [(191 * 1024 + 1023, 1)] }
    let dry := withNoc tNoc fun n => { n with credits := [(bkey 63 6 0 0, 0)] }
    (down.broken 63 1 = true ∧ (withBuf down k [tUnit post]).frontRoute k = some (1, 1)) ∧
    goes (exec (.packetHop 63 1 0 none) (withBuf down k [tUnit post])) (fun t => t.get (pgROUTER 63) ROUTER_DISCARDS == 1 &&
      t.fault.net == [⟨0x0BF, 27, 0, 56 * 256⟩] && t.noc.buffer k == []) = true ∧
    goes (exec (.packetHop 63 1 0 none) resp) (fun t => t.fault.net == [⟨0x0BF, 27, 0, 56 * 256⟩]) = true ∧
    goes (exec (.packetHop 63 1 0 none) (withBuf down k [tUnit read])) (fun t => t.fault.net == [] &&
      ((t.noc.buffer (bkey 63 6 1 0)).map fun u => (hCommand u.data, hDest u.data, hTag u.data, u.data / 2 ^ 128)) == [(6, 5, 9, 4)]) = true ∧
    goes (exec (.packetHop 63 0 0 (some (h, []))) tNoc) (fun t => t.out == [.packet (withSeq h 1)] &&
      t.noc.outstanding == [(191 * 1024 + 1023, withSeq h 1 + 1)] && t.noc.credit (bkey 63 6 0 0) == 23 && (t.noc.buffer (bkey 63 6 0 0)).length == 1) = true ∧
    goes (exec (.packetHop 63 0 0 (some (w, [7]))) tNoc) (fun t => (t.noc.buffer (bkey 63 6 2 0)).map (·.tail) == [false, true] &&
      t.noc.credit (bkey 63 6 2 0) == 22) = true ∧
    [out busy h [] == [], out (withNoc tNoc fun n => { n with tagHold := [(191 * 1024 + 1023, 1)] }) h [] == [], out dry wr [1] == [],
     out tNoc (tPacket 184 191 3 8) [] == [], out tNoc (tPacket 184 255 0 1) [] == []].all id = true ∧
    goes (exec (.packetHop 62 0 0 (some (h, []))) tNoc) (fun t => t.out == []) = true := by decide +kernel

theorem test_packet_eject :
    let k := fun (vn : Nat) => bkey 63 0 vn 1
    let at' := fun (h : Nat) => withBuf tNoc (k (hVn h)) [tUnit h]
    let ends := fun (h : Nat) (p : State → Bool) => goes (exec (.packetEject 63 0 (hVn h) 1 0) (at' h)) fun t => t.noc.buffer (k (hVn h)) == [] && p t
    let req := tPacket 191 56 0 1 0 1
    let resp := tPacket 191 56 1 5 1023 1 0 0
    let asks := withNoc (at' resp) fun n => { n with outstanding := [(191 * 1024 + 1023, 1)] }
    (AtEndpoint (at' req) 63 (k 0) req ∧ malformed req = false ∧ malformed resp = false ∧ malformed (tPacket 191 56 0 1 0 1 0 0) = true) ∧
    goes (exec (.packetEject 63 0 0 1 0) tNoc) (fun t => t.noc == tNoc.noc) = true ∧
    goes (exec (.packetEject 63 0 0 1 0) (at' (tPacket 190 56 0 1))) (fun t => t.out == [] && (t.noc.buffer (k 0)).length == 1) = true ∧
    ends (tPacket 191 56 0 1 0 1 0 0) (fun t => t.get (pgROUTER 63) ROUTER_DISCARDS == 1 && t.fault.net == [⟨0x0BF, 26, 0, 56 + 256⟩]) = true ∧
    ends (tPacket 191 56 0 1 0 0) (fun t => t.get (pgROUTER 63) ROUTER_SEQ_OLD == 1 && t.fault.net == [⟨0x0BF, 30, 0, 56⟩] && t.out == []) = true ∧
    ends req (fun t => t.out == [.packet req] && t.fault.net == []) = true ∧
    ends (tPacket 191 56 0 1 0 32768) (fun t => t.get (pgROUTER 63) ROUTER_SEQ_GAPS == 1 && t.fault.net == [⟨0x0BF, 29, 0, 56 + 32768 * 65536⟩] &&
      t.out.length == 1) = true ∧
    ends (tPacket 191 56 0 1 0 32769) (fun t => t.get (pgROUTER 63) ROUTER_SEQ_OLD == 1 && t.out == []) = true ∧
    ends resp (fun t => t.get pgNOC NOC_LATE_RESPONSES == 1 && t.out == []) = true ∧
    goes (exec (.packetEject 63 0 1 1 0) asks) (fun t => t.noc.outstanding == [] && t.out == [.packet resp]) = true := by
  unfold AtEndpoint; decide +kernel

theorem test_packet_held :
    let h := tPacket 0 56 0 1 0 1
    let k := bkey 0 0 0 0
    let s := dom (withBuf tNoc k [tUnit h]) 2 3
    let wait := tNoc.get pgNOC NOC_CTRL_RESP_TIMEOUT_US * 1000
    let asks := withNoc tNoc fun n => { n with outstanding := [(255 * 1024 + 1023, 8)] }
    (s.epUp 0 = true ∧ epDomain 0 = some 2 ∧ s.asleep 2 = true ∧ s.domain 2 = DomainSt.reset) ∧
    goes (exec (.packetEject 0 0 0 0 0) s) (fun t => t.noc.held == [k] && t.get (pgROUTER 0) ROUTER_HELD == 1 &&
      t.get (pgROUTER 0) ROUTER_STATUS_HOLDING == 1 && (t.domain 2).waking == some (5, 0) && t.out == []) = true ∧
    goes (exec (.packetEject 0 0 0 0 0) (withNoc s fun n => { n with held := [k] })) (fun t => t.noc.held == [k] &&
      t.get (pgROUTER 0) ROUTER_HELD == 0) = true ∧
    goes (exec (.respTimeout 255 1023 5) tNoc) (fun t => t.mono == 5 && t.get pgNOC NOC_TIMEOUTS == 0) = true ∧
    goes (exec (.respTimeout 255 1023 (wait - 1)) asks) (fun t => t.noc.outstanding == [(255 * 1024 + 1023, 8)]) = true ∧
    goes (exec (.respTimeout 255 1023 wait) asks) (fun t => t.noc.outstanding == [] && t.noc.tagHold == [(255 * 1024 + 1023, wait + wait)] &&
      t.fault.net == [⟨0x0BF, 31, 0, 255 + 1023 * 256⟩]) = true := by decide +kernel

theorem test_flows :
    let staged := (((tNoc.put pgNOC NOC_FLOW_CFG_SRC 191 64).put pgNOC NOC_FLOW_CFG_DST 184 64).put pgNOC
      NOC_FLOW_CFG_SLOTS 127 64).put pgNOC NOC_FLOW_CFG_VALID 1 64
    let f : Flow := { src := 191, dst := 184, valid := true, slots := 127 }
    let set := fun (s : State) (x : Flow) => (withNoc s fun n => { n with checking := [(63, x)] }).put pgNOC NOC_FLOW_STATUS_CHECKING 1
    let ign := fun (s : State) (m k : Nat) => goes (exec (.flowCommit m) s) fun t => t.get pgNOC IGNORED_CAUSE_REASON == k && t.noc == s.noc
    let fails := fun (s : State) (c : Nat) => goes (exec .flowCheckDone s) fun t => t.get pgNOC NOC_FLOW_STATUS_ERROR == c &&
      t.get pgNOC NOC_FLOW_STATUS_ERR_FLOW == 63 && !t.on pgNOC NOC_FLOW_STATUS_CHECKING && t.noc == s.noc
    let next : Placement := { flows := [(63, f)], placed := [(63, List.range 127)] }
    (tNoc.accepts 1 pgNOC 0x054 = true ∧ (free tNoc 13).accepts 13 pgNOC 0x054 = true) ∧
    ign (free tNoc 13) 13 2 = true ∧ ign (set tNoc f) 1 9 = true ∧
    goes (exec (.flowCommit 1) staged) (fun t => t.on pgNOC NOC_FLOW_STATUS_CHECKING && t.noc.checking == [(63, f)]) = true ∧
    goes (exec .flowCheckDone tNoc) (fun t => t.noc == tNoc.noc && t.regs == tNoc.regs) = true ∧
    fails (set tNoc { f with src := 255 }) 2 = true ∧ fails (set (tNoc.put (pgROUTER 63) ROUTER_STATUS_LINK_DOWN 2) f) 3 = true ∧
    goes (exec .flowCheckDone (set tNoc f)) (fun t => t.noc.next == some next && !t.on pgNOC NOC_FLOW_STATUS_CHECKING) = true ∧
    goes (exec .flowPlacementApply tNoc) (fun t => t.noc == tNoc.noc) = true ∧
    goes (exec .flowPlacementApply (withNoc tNoc fun n => { n with next := some next })) (fun t => t.noc.inForce == next && t.noc.next == none &&
      bit (t.get pgNOC EVT_PEND) 1) = true := by decide +kernel

/-- Two flows that fill every slot of one output fail NO_SLOTS at the second (R599 code 4). -/
theorem test_flow_slots :
    let f : Flow := { src := 191, dst := 184, valid := true, slots := 127 }
    (match tNoc.placeFlow [(5, f), (63, { f with slots := 2 })] [] [] with
     | .error e => e == (4, 63)
     | .ok _ => false) = true := by decide +kernel

/-! ## States in which nothing stands in the way of a command -/

theorem test_memory_effects :
    let run := withMem (tMem.put pgJOBS JOBS_SP_STATUS_RUNNING 1) fun m => { m with retrainDue := [(0, true)] }
    let weak := withMem tMem fun m => { m with stoneRewrites := [8], reelRewrites := [reelBase], scrubDue := [(31, 1)], nextBand := [(3, 4)] }
    let judge := tMem.put pgSTONE STONE_LEDGER_STATUS_CHECKING 1
    (tMem.forme.io = none ∧ tMem.stackBusy reelBase = false ∧ tMem.asleep 2 = false ∧ tMem.bankOwner 31 ≠ 31) ∧
    (run.on (pgREEL 0) REEL_STATUS_IN_SERVICE = true ∧ run.running = true ∧ SMap.get 0 run.mem.calTaken 0 ≠ run.sp.tickAt + 1 ∧
      run.get (pgREEL 0) REEL_CAL_OFFSET_OFFSET_NS = 0 ∧ run.sp.tickAt ≤ timeAt run 5 ∧
      ∀ j, j < 4 → run.on (pgREEL j) REEL_STATUS_RETRAINING = false) ∧
    goes (exec (.reelCalSlot 5) run) (fun t => t.on (pgREEL 0) REEL_STATUS_RETRAINING) = true ∧
    goes (exec (.stoneScrubOverdue 31) weak) (fun t => t.on pgSTONE STONE_SCRUB_STATUS_LATE) = true ∧
    goes (exec (.reelRefresh 3) weak) (fun t => t.get (pgREEL 3) REEL_STATUS_BAND == 3) = true ∧
    (judge.stacks ≠ [] ∧ max judge.mem.entry0 0 ≤ judge.get pgSTONE STONE_LEDGER_CAPACITY ∧ judge.mem.entry0New = none) ∧
    goes (exec .ledgerCheckDone judge) (fun t => t.mem.ledger == []) = true := by decide +kernel

theorem test_network_effects :
    let u : NocUnit := { tUnit (tPacket 191 56 3 8) with vc := 1 }
    let link := withNoc tNoc fun n => { n with link := [(63 * 8 + 3, [u])] }
    let k := bkey 63 4 0 0
    let hop := withBuf tNoc k [tUnit (tPacket 56 63 0 3)]
    let check := tNoc.put pgNOC NOC_FLOW_STATUS_CHECKING 1
    (u.data < 2 ^ 256 ∧ link.noc.onLink (63 * 8 + 3) = [u] ∧ link.noc.buffer (bkey 63 3 3 1) = [] ∧
      bit (link.get (pgROUTER 63) ROUTER_STATUS_LINK_DOWN) 3 = false) ∧
    goes (exec (.linkUnitReceive 63 3 [] 0) link) (fun t => t.noc.buffer (bkey 63 3 3 1) == [u] && t.noc.onLink (63 * 8 + 3) == []) = true ∧
    (hop.broken 63 1 = false ∧ hop.frontRoute k = some (1, 1) ∧ hop.chooseInput 63 1 127 = some k) ∧
    goes (exec (.packetHop 63 1 127 none) hop) (fun t => t.noc.buffer k == [] && (t.noc.onLink (56 * 8 + 3)).length == 1) = true ∧
    goes (exec .flowCheckDone check) (fun t => t.noc.next == some { flows := [], placed := [] }) = true := by decide +kernel

theorem test_table_effects :
    let c : SlotCopy := { image := tSlot, crc := crc32 (imageBytes tSlot) }
    let s := tSheet
    let one : State := { s with impose := { s.impose with copyA := [(0, c)], copyB := [(0, c)] } }
    let f := (tFade 2 0).put pgDRIVE DRIVE_FADE_STATUS_CAUSES 8
    (sheetHdrOf (tData (tHdr 1)).body = tHdr 1 ∧ (tHdr 1).format = tStream.format ∧ (tHdr 1).chOff + (tHdr 1).channels ≤ tStream.channels ∧
      (tHdr 1).len = 4 ∧ (tData (tHdr 1)).body.length = 36) ∧
    goes (exec (.imposeTableScrub [(0, true, true)]) one) (fun t => t.slotState 0 == 4) = true ∧
    ((tImage1 tReelSlot).impose.image = (0x400, 1) ∧ (tImage1 tReelSlot).running = false ∧
      ceilDiv (4000 * 4) 1000000 + ledgerSum (tImage1 tReelSlot).mem.ledger ≤ (tImage1 tReelSlot).get pgSTONE STONE_LEDGER_CAPACITY) ∧
    ((tDrive 7).drive.image = (0x400, 1) ∧ (tDrive 7).running = false) ∧
    (f.accepts 1 pgDRIVE 0x040 = true ∧ f.drive.abortPlane = false ∧ f.frisket.fadeReq = false) ∧
    goes (exec (.fadeClear 1 5 5) f) (fun t => t.get pgDRIVE DRIVE_FADE_STATUS_STATE == 0) = true := by decide +kernel

/-- A web's first standing chain checked before; the one chain that runs, not discarded and discarded with cause 4. -/
theorem test_web_effects :
    let d := tChain 1 fAdd
    let s := tWeb { tNext tRef with checked := [(3, d)] } d
    let run := tRun d none
    (s.webUp 7 = true ∧ s.on (pgWEB 7) WEB_CTRL_ENABLE = true ∧ s.domState 11 < 2 ∧ s.sleepingStacks tRef (chainOf d) = [] ∧ d ≠ [] ∧
      (free s 1).accepts 1 (pgWEB 7) 0x040 = true) ∧
    goes (exec (.chainStart 7) s) (fun t => (t.web 7).running == [run]) = true ∧
    goes (exec (.chainDiscard 7 0 4 0) (tRuns d none)) (fun t => (t.web 7).running == [{ run with discard := some (4, 0) }]) = true ∧
    RunsAlone (tRuns d (some (4, 0))) 7 { run with discard := some (4, 0) } ∧
    goes (exec (.chainEnd 7 0 9) (tRuns d (some (4, 0)))) (fun t => (t.web 7).running == [] && t.get (pgWEB 7) WEB_LAST_ERROR_CAUSE == 4) =
      true := by unfold RunsAlone; decide +kernel

theorem test_program_effects :
    let q := tQueue [fm8 0 0 0x008, 7]
    let w := tCustomer (5 * 2 ^ 159)
    let m := (tComp 0 0).put (pgGALLEY 15) (GALLEY_COL_RETIRED_PENDING.at 16) 1
    let r := tRing (tTicket 2 0 (2 ^ 63 + 0x40) (2 ^ 63 + 0x80) 8)
    let ring := free (tRing (tTicket 4 0 0 0 0)) 0
    let call : State := { ring with jobs := { ring.jobs with calls := [(15, 0)] } }
    (q.seq.cur = none ∧ q.pllUp 68 = true ∧ q.cstore.ready = [] ∧ q.refusal (fm8 0 0 0x008) = none ∧
      q.on pgCOMPOSITOR COMP_SEQ_CTRL_ENABLE = true ∧ q.seq.stopped = false) ∧
    (w.seq.sticksOpen = false ∧ SMap.get 0 w.cstore.words 0x8000 = 5 * 2 ^ 159) ∧
    goes (exec (.customerRoutine 0) w) (fun t => t.seq.cur == none && t.seq.fc == 1) = true ∧
    (m.migrating = true ∧ m.inExecution = false ∧ m.comp.phase ≠ 3 ∧ m.comp.after = 0) ∧
    (r.copyTicket 15 = some (0, tTicket 2 0 (2 ^ 63 + 0x40) (2 ^ 63 + 0x80) 8, 0) ∧ tkSrc (tTicket 2 0 (2 ^ 63 + 0x40) 0 8) = 2 ^ 63 + 0x40) ∧
    goes (exec (.ticketCopy 15 512 (some (List.replicate 8 9))) r) (fun t => t.out == [.hostRead 0x40 8, .hostWrite 0x80 (List.replicate 8 9)]) =
      true ∧
    (call.accepts 0 pgJOBS 0x084 = true ∧ call.jobs.held = [] ∧ call.inExecution = false) ∧
    goes (exec (.callDoneWrite 0 0) call) (fun t => (endOf t).isSome) = true := by decide +kernel

theorem test_device_effects :
    let s := free (tPower 51) 1
    let line : State := { tEvt with evt := { tEvt.evt with lines := [(15, { EvtLine.reset with settled := true })] } }
    let stop := dom tPower 51 0 { DomainSt.reset with entering := some (2, 2) }
    (s.accepts 1 pgPOWER 0x044 = true ∧ s.domUp 51 = true ∧ s.domState 51 = 0) ∧
    goes (exec (.powerEntryStep 51 5) stop) (fun t => (t.domain 51).entering == some (2, 3) && t.domState 51 == 1) = true ∧
    goes (exec (.domainWakeComplete 51 5) (dom s 51 1)) (fun t => t.domState 51 == 0) = true ∧
    goes (exec (.evtStackUpset 0) tEvt) (fun t => t.on pgEVT (EVT_PX_STATUS_STACK_ERROR.at 0)) = true ∧
    (tEvt.asleep 1 = false ∧ ∀ j, j < 512 → tEvt.srcCopy j 0 = tEvt.srcCopy j 1) ∧
    goes (exec (.evtLineChange 15 true 5) line) (fun t => (t.line 15).sync && (t.line 15).timing) = true ∧
    ((tMail 1 0x22).imgAccepted tProgram = true ∧ mbLen ((tMail 1 0x22).mbHeader 1) ≤ 1044480) := by decide +kernel

/-! ## The whole block -/

/-- A command that changes something runs from the front of the queue; an empty queue idles. -/
theorem test_step_front :
    let s : State := { State.reset with pending := [.holdL1Timeout 5, .stoneScrubDue 5] }
    goes (step s) (fun t => t.pending == [.stoneScrubDue 5] && t.mono == 5) = true ∧
    goes (step State.reset) (fun t => t.pending == [] && t.mono == 0) = true := by decide +kernel

theorem test_reset_values :
    (State.reset.memWf = true ∧ (pageBlock pgSTONE).isSome = true) ∧
    State.reset.get pgSTONE PAGE_ID_VERSION = 0xB0 ∧ State.reset.get pgEVTCFG (EVT_SRC_CFG_COUNT.at 511) = 1 := by decide +kernel

/-- A command of the queue is a step. -/
theorem test_steps_meets : ∃ t, Steps { State.reset with pending := [.reelRefresh 3] } t :=
  ⟨State.reset, rfl⟩

/-- A counter one below its maximum, at it, and its neighbour (R29). -/
theorem test_counter_saturates :
    let f := STONE_CORRECTED
    let s := State.reset.put pgSTONE f (2 ^ f.width - 2)
    (0x040 ≤ f.off ∧ f.off < 0x1000 ∧ f.lo ≤ f.hi ∧ f.hi < 32 ∧ pgSTONE < 0x4000) ∧
    (s.count pgSTONE f 5).get pgSTONE f = 2 ^ f.width - 1 ∧
    ((s.count pgSTONE f 1).count pgSTONE f 1).reg pgSTONE f.off = (s.count pgSTONE f 1).reg pgSTONE f.off := by decide +kernel

end Sys2Proof.Tests
end

/-!
SUPPORT AND PROOFS. A counter field at its maximum (R29).
-/
namespace Sys2Proof.Machine

/-- A field set to what it holds leaves the number as it was. -/
theorem setBits_bits (v hi lo : Nat) : setBits v hi lo (bits v hi lo) = v := by
  rw [setBits_eq, Nat.mod_eq_of_lt (bits_lt v hi lo), ← split_field]

/-- A field written with what it holds leaves its whole register as it was. -/
theorem State.reg_put_get (s : State) (p : Nat) (f : Fld) (i : Nat) :
    (s.put p f (s.get p f i) i).reg p f.off i = s.reg p f.off i := by
  rw [State.put, State.reg_setReg, State.get, setBits_bits, BitVec.ofNat_toNat, BitVec.setWidth_eq]

/-- At its maximum a counter takes no further count: the field is written with the maximum it holds, and no event is
raised (R29). -/
theorem State.count_of_get_eq_max (s : State) {p : Nat} {f : Fld} {n i : Nat} (h : s.get p f i = 2 ^ f.width - 1) :
    s.count p f n i = s.put p f (s.get p f i) i := by
  have hmin : min (2 ^ f.width - 1 + n) (2 ^ f.width - 1) = 2 ^ f.width - 1 := Nat.min_eq_right (Nat.le_add_right _ _)
  simp only [State.count, h, hmin, lt_irrefl, false_and, if_false]

end Sys2Proof.Machine

namespace Sys2Proof.Claims
open Sys2Proof.Machine

/-- Settles O35: the field by `State.get_count`; at the maximum the count rewrites the value held; the other registers by
`State.reg_count`, since their keys differ. -/
theorem saturatingCounters : Obligations.SaturatingCounters := by
  unfold Obligations.SaturatingCounters
  intro s p n i f hlow hhigh hlo hhi hp
  refine ⟨s.get_count p f n i hlo hhi hlow hhigh, fun hmax => ?_, fun o j hlow' hhigh' hne => ?_⟩
  · rw [s.count_of_get_eq_max hmax, s.reg_put_get]
  · have hkey : rkey p o j ≠ rkey p f.off i := fun heq => by
      obtain ⟨-, hoff, hidx⟩ := rkey_inj hp hp hhigh' hhigh heq
      exact hne (Prod.ext hoff hidx)
    exact s.reg_count hkey hlow' hhigh'

end Sys2Proof.Claims

/-!
SUPPORT AND PROOFS. The integer instructions of a Quire complex (R442 to R444, R454, R455): an instruction whose body
completes in one core retires in every core of a complex in lockstep, and the words that the integer operations form.
-/
namespace Sys2Proof.Machine

/-! ## Words and integers -/

/-- The signed value of a word's number is the word's own. -/
theorem signed_toNat {n : Nat} (x : BitVec (n + 1)) : signed (n + 1) x.toNat = x.toInt := by
  have hlt := x.isLt
  rw [BitVec.toInt_eq_toNat_cond, signed, Nat.mod_eq_of_lt hlt, Nat.add_sub_cancel]
  split <;> split <;> omega

/-- A word cut out of an integer's low bits is the word of the integer. -/
theorem ofNat_wrap {m n : Nat} (h : n ≤ m) (z : Int) : BitVec.ofNat n (wrap m z) = BitVec.ofInt n z := by
  have hm : (0 : Int) ≤ z % (2 ^ m : Nat) := Int.emod_nonneg _ (by positivity)
  have hd : ((2 ^ n : Nat) : Int) ∣ (2 ^ m : Nat) := Int.natCast_dvd_natCast.mpr (Nat.pow_dvd_pow 2 h)
  apply BitVec.eq_of_toNat_eq
  rw [BitVec.toNat_ofNat, BitVec.toNat_ofInt, wrap]
  apply Int.natCast_inj.mp
  rw [Int.natCast_emod, Int.toNat_of_nonneg hm, Int.emod_emod_of_dvd _ hd,
    Int.toNat_of_nonneg (Int.emod_nonneg _ (by positivity))]

/-- The low word of the signed product (R442). -/
theorem ofNat_mulS (a b : W32) : BitVec.ofNat 32 (mulS a b) = BitVec.ofInt 32 (a.toInt * b.toInt) := by
  rw [mulS, signed_toNat, signed_toNat, ofNat_wrap (by decide)]

/-- The high word of the signed product (R442). -/
theorem ofNat_mulS_high (a b : W32) :
    BitVec.ofNat 32 (mulS a b / 2 ^ 32) = BitVec.ofInt 32 (a.toInt * b.toInt / 2 ^ 32) := by
  rw [mulS, signed_toNat, signed_toNat]
  generalize a.toInt * b.toInt = z
  apply BitVec.eq_of_toNat_eq
  simp only [BitVec.toNat_ofNat, BitVec.toNat_ofInt, wrap]
  omega

/-- A 16-bit immediate, sign-extended. -/
theorem sextW_qImm16 (w : Nat) : sextW 16 (qImm16 w) = (BitVec.ofNat 16 w).signExtend 32 := by
  have hw : qImm16 w = (BitVec.ofNat 16 w).toNat := by simp [qImm16, bits]
  rw [hw, sextW, signed_toNat, ofNat_wrap le_rfl, BitVec.signExtend]

/-- A 16-bit immediate, zero-extended. -/
theorem ofNat_qImm16 (w : Nat) : BitVec.ofNat 32 (qImm16 w) = (BitVec.ofNat 16 w).zeroExtend 32 := by
  apply BitVec.eq_of_toNat_eq
  simp [qImm16, bits]

/-- A 16-bit immediate as the high half of a word. -/
theorem ofNat_qImm16_high (w : Nat) : BitVec.ofNat 32 (qImm16 w * 2 ^ 16) = (BitVec.ofNat 16 w).zeroExtend 32 <<< 16 := by
  rw [← ofNat_qImm16]
  apply BitVec.eq_of_toNat_eq
  simp only [BitVec.toNat_shiftLeft, BitVec.toNat_ofNat, Nat.shiftLeft_eq, Nat.mod_mul_mod]

/-- Bit 0 of a word, as a word. -/
theorem ofNat_carryIn (c : W32) : BitVec.ofNat 32 (carryIn c) = c &&& 1 := by
  apply BitVec.eq_of_toNat_eq
  have hone : (c &&& 1).toNat = c.toNat % 2 := Nat.and_one_is_mod _
  rw [hone, carryIn, BitVec.toNat_ofNat]
  omega

/-- Two bit vectors side by side: the number of the whole. -/
theorem toNat_append_eq_add {m n : Nat} (x : BitVec m) (y : BitVec n) : (x ++ y).toNat = x.toNat * 2 ^ n + y.toNat := by
  rw [BitVec.toNat_append, ← Nat.shiftLeft_add_eq_or_of_lt y.isLt, Nat.shiftLeft_eq]

/-- The bytes of a word in reverse order (R442). -/
theorem ofNat_ofLE_bytesBE (a : W32) : BitVec.ofNat 32 (ofLE (bytesBE 4 a.toNat)) =
    (a.extractLsb' 0 8 ++ a.extractLsb' 8 8 ++ a.extractLsb' 16 8 ++ a.extractLsb' 24 8 : BitVec 32) := by
  have hbytes : ofLE (bytesBE 4 a.toNat) = a.toNat / 2 ^ 24 % 2 ^ 8 +
      2 ^ 8 * (a.toNat / 2 ^ 16 % 2 ^ 8 + 2 ^ 8 * (a.toNat / 2 ^ 8 % 2 ^ 8 + 2 ^ 8 * (a.toNat % 2 ^ 8))) := by
    simp [bytesBE, bytesLE, ofLE, Nat.div_div_eq_div_mul]
  apply BitVec.eq_of_toNat_eq
  simp only [hbytes, toNat_append_eq_add, BitVec.extractLsb'_toNat, BitVec.toNat_ofNat, Nat.shiftRight_eq_div_pow,
    Nat.reducePow, Nat.div_one]
  omega

/-- A pc whose two low bits are 0 keeps them 0 at the next instruction. -/
theorem alignPc_add_four {v : W32} (h : v = alignPc v) : v + 4 = alignPc (v + 4) := by
  have hmask (u : W32) : alignPc u = u >>> 2 <<< 2 := by
    rw [BitVec.shiftLeft_ushiftRight]
    rfl
  rw [hmask] at h ⊢
  bv_omega

/-! ## Registers of a core -/

@[simp] theorem CoreSt.setG_pc (c : CoreSt) (r : Nat) (v : W32) : (c.setG r v).pc = c.pc := by
  unfold CoreSt.setG
  split
  · rfl
  · split <;> rfl

/-- An exception with EXL = 0 and FAST = 0 enters its handler (R462). -/
theorem CoreSt.except_of_clear {c : CoreSt} (p cause : Nat) (epc eaddr : W32) (he : c.exl = false) (hf : c.fast = false) :
    c.except p cause epc eaddr 0 = (Claims.entered p c cause epc eaddr, none) := by
  simp only [CoreSt.except, he, hf]
  rfl

/-! ## An instruction of a complex in lockstep -/

/-- The command i runs, on a complex, the instruction of encoding key, whose body is f. -/
structure RunsBody (i : Nat → Instr) (key : Nat × Nat) (f : QBody) : Prop where
  exec_eq : ∀ k s, exec (i k) s = .next (s.quire (k % 2) (some key) 0)
  body_eq : qBodyOf key = some f

/-- A command whose instruction the cores of a complex in lockstep meet: every core becomes what one core makes of it, the
requests are served once, a halt is reported. -/
theorem RunsBody.exec_of_coreStep {i : Nat → Instr} {key : Nat × Nat} {f : QBody} (hr : RunsBody i key f) {k : Nat}
    {s : State} {c : CoreSt} {o : CoreOut} (hL : Claims.Lockstep s (k % 2) c) (ho : s.coreStep (k % 2) 0 c = o)
    (hkey : o.key = some key) (hstall : o.stalled = false) :
    exec (i k) s = .next (((Claims.allCores s (k % 2) o.core).serveReqs (k % 2) o.reqs).reportHalt (k % 2) o.halt) := by
  obtain ⟨hne, hall, hhalt, hwait, hload, -, hend, hfast, hnormal⟩ := hL
  have hissues : c.issues = true := by simp [CoreSt.issues, hhalt, hwait]
  have hending : (k % 2 == 0 && c.ending) = false := by
    cases hj : k % 2 == 0 with
    | true => simpa using hend (by simpa using hj)
    | false => rfl
  rw [hr.exec_eq, quire_of_lockstep hne hall hissues hload hending hfast hnormal ho]
  simp [hkey, hstall, hr.body_eq, Claims.allCores]

/-- An instruction whose body completes in one core retires in every core of a complex in lockstep. -/
theorem RunsBody.exec_of_done {i : Nat → Instr} {key : Nat × Nat} {f : QBody} (hr : RunsBody i key f) {k w n : Nat}
    {s : State} {c c1 c2 : CoreSt} {fs : List Nat} (hL : Claims.Lockstep s (k % 2) c)
    (hF : Claims.Fetches s (k % 2) c w c1 fs) (hw : qKey w = key) (hd : f s (k % 2) w 0 c1 = .done c2 n)
    (hpc : c2.pc = c.pc) :
    exec (i k) s = .next (Claims.fetched s (k % 2) (Claims.retire (s.periodFc (k % 2)) c2 (c.pc + 4) n) fs) := by
  have ⟨_, _, _, _, _, halign, _⟩ := hL
  obtain ⟨a, h, rq, hcheck, hlines, hword, hpend, hc1, hfs⟩ := hF
  have hstep := coreStep_of_fetch (x := 0) hcheck hlines hword hpend
  simp only [← hc1, ← hfs] at hstep
  have hnext : c2.nextPc = c.pc + 4 := congrArg (· + 4) hpc
  simp only [hw, hr.body_eq, hd, QEff.done, hnext, ← alignPc_add_four halign, if_true] at hstep
  exact hr.exec_of_coreStep hL hstep rfl rfl

/-- An instruction whose body is ILLEGAL enters its handler in every core of a complex in lockstep, EXL and FAST being 0. -/
theorem RunsBody.exec_of_illegal {i : Nat → Instr} {key : Nat × Nat} {f : QBody} (hr : RunsBody i key f) {k w : Nat}
    {s : State} {c c1 : CoreSt} {fs : List Nat} (hL : Claims.Lockstep s (k % 2) c)
    (hF : Claims.Fetches s (k % 2) c w c1 fs) (hw : qKey w = key) (hd : f s (k % 2) w 0 c1 = .illegal)
    (hexl : c.exl = false) (hfast : c.fast = false) :
    exec (i k) s = .next (Claims.fetched s (k % 2) (Claims.entered (s.periodFc (k % 2)) c1 1 c.pc 0) fs) := by
  obtain ⟨a, h, rq, hcheck, hlines, hword, hpend, hc1, hfs⟩ := hF
  have hstep := coreStep_of_fetch (x := 0) hcheck hlines hword hpend
  simp only [← hc1, ← hfs] at hstep
  have hexc := CoreSt.except_of_clear (c := c1) (s.periodFc (k % 2)) 1 c.pc 0 (by rwa [hc1]) (by rwa [hc1])
  simp only [hw, hr.body_eq, hd, QEff.illegal, Bool.false_eq_true, if_false, hexc] at hstep
  exact hr.exec_of_coreStep hL hstep rfl rfl

/-- A fetch leaves the general registers, the pc and the constant-time mode of the core. -/
theorem fetches_regs {s : State} {j w : Nat} {c c1 : CoreSt} {fs : List Nat} (hF : Claims.Fetches s j c w c1 fs) :
    (∀ r, c1.getG r = c.getG r) ∧ c1.pc = c.pc ∧ c1.ct = c.ct := by
  obtain ⟨a, h, rq, -, -, -, -, rfl, -⟩ := hF
  exact ⟨fun _ => rfl, rfl, rfl⟩

/-! ## The bodies of the integer instructions -/

/-- One result in rd, from ra, rb, rc and the number in the rb field (R442, R443). -/
def intBody (g : W32 → W32 → W32 → Nat → W32) : QBody := fun _ _ w _ c =>
  .done (c.setG (qRd w) (g (c.getG (qRa w)) (c.getG (qRb w)) (c.getG (qRc w)) (qRb w)))

/-- One result in rd, from ra and the immediate (R444). -/
def immBody (g : W32 → BitVec 16 → W32) : QBody := fun _ _ w _ c =>
  .done (c.setG (qRd w) (g (c.getG (qRa w)) (BitVec.ofNat 16 w)))

/-- One result in rd, from ra and rb, in the time of a divide (R442, R454). -/
def divBody (sgn : Bool) (g : W32 → W32 → W32) : QBody := fun _ _ w _ c =>
  .done (c.setG (qRd w) (g (c.getG (qRa w)) (c.getG (qRb w)))) (Claims.divTime c (c.getG (qRa w)) sgn)

/-- Two results in rd and rd + 1, from ra and rb (R442). -/
def pairBody (lo hi : W32 → W32 → W32) (time : CoreSt → W32 → Nat) : QBody := fun _ _ w _ c =>
  let a := c.getG (qRa w)
  let b := c.getG (qRb w)
  qPairOp (lo a b) (hi a b) (time c a) w c

theorem qInt_eq_intBody {f : W32 → W32 → W32 → W32} {g : W32 → W32 → W32 → Nat → W32}
    (h : ∀ a b c n, f a b c = g a b c n) : qInt f = intBody g := by
  funext s j w x c
  simp only [qInt, intBody, h _ _ _ (qRb w)]

theorem qImm_eq_immBody {f : W32 → Nat → W32} {g : W32 → BitVec 16 → W32}
    (h : ∀ a w, f a (qImm16 w) = g a (BitVec.ofNat 16 w)) : qImm f = immBody g := by
  funext s j w x c
  simp only [qImm, immBody, h]

/-- Signed division is the quotient and remainder of R455. -/
theorem divS_eq (a b : W32) : divS a b = (Claims.quotS a b, Claims.remS a b) := by
  simp only [divS, Claims.quotS, Claims.remS, signed_toNat, ofNat_wrap le_rfl]
  split <;> rfl

/-- Unsigned division is the quotient and remainder of R455. -/
theorem divU_eq (a b : W32) : divU a b = (Claims.quotU a b, Claims.remU a b) := by
  simp only [divU, Claims.quotU, Claims.remU]
  split <;> rfl

/-- A divide takes the time of R454. -/
theorem divCost_eq_divTime (c : CoreSt) (a : W32) (sgn : Bool) : divCost c a sgn = Claims.divTime c a sgn := by
  rw [divCost, Claims.divTime, signed_toNat]

theorem qDivide_eq_divBody {sgn : Bool} {pick : W32 × W32 → W32} {g : W32 → W32 → W32}
    (h : ∀ a b, pick (if sgn then divS a b else divU a b) = g a b) : qDivide sgn pick = divBody sgn g := by
  funext s j w x c
  simp only [qDivide, divBody, h, divCost_eq_divTime]

theorem qDividePair_eq_pairBody {sgn : Bool} {lo hi : W32 → W32 → W32}
    (h : ∀ a b, (if sgn then divS a b else divU a b) = (lo a b, hi a b)) :
    qDividePair sgn = pairBody lo hi fun c a => Claims.divTime c a sgn := by
  funext s j w x c
  simp only [qDividePair, pairBody, h, divCost_eq_divTime]

/-- A pair operation with an even rd completes. -/
theorem qPairOp_of_even {lo hi : W32} {cost w : Nat} {c : CoreSt} (h : qRd w % 2 = 0) :
    qPairOp lo hi cost w c = .done ((c.setG (qRd w) lo).setG (qRd w + 1) hi) cost := by
  rw [qPairOp, if_neg (by omega)]

/-- A pair operation with an odd rd is ILLEGAL. -/
theorem qPairOp_of_odd {lo hi : W32} {cost w : Nat} {c : CoreSt} (h : qRd w % 2 = 1) :
    qPairOp lo hi cost w c = .illegal := if_pos h

/-- Trailing zeros counted on the number and on the word. -/
theorem firstBelow_bit_toNat (a : W32) (n : Nat) :
    firstBelow n (fun k => bit a.toNat k) = (List.range n).find? fun i => a.getLsbD i := by
  have hbit : (fun k => bit a.toNat k) = fun k => a.getLsbD k := by
    funext k
    rw [bit, BitVec.getLsbD, Nat.testBit_eq_decide_div_mod_eq]
    rfl
  rw [firstBelow, hbit]

/-! ## Bodies whose result the tables word in another way -/

theorem qSel_eq : qSel = intBody fun a b c _ => if c ≠ 0 then a else b :=
  qInt_eq_intBody fun _ _ _ _ => (ite_not ..).symm

theorem qAddx_eq : qAddx = intBody fun a b c _ => a + b + (c &&& 1) :=
  qInt_eq_intBody fun a b c _ => by
    rw [BitVec.ofNat_add, BitVec.ofNat_add, ofNat_carryIn, BitVec.ofNat_toNat, BitVec.ofNat_toNat, BitVec.setWidth_eq,
      BitVec.setWidth_eq]

theorem qSubx_eq : qSubx = intBody fun a b c _ => a - b - (c &&& 1) :=
  qInt_eq_intBody fun a b c _ => by rw [ofNat_carryIn]

theorem qMulh_eq : qMulh = intBody fun a b _ _ => BitVec.ofInt 32 (a.toInt * b.toInt / 2 ^ 32) :=
  qInt_eq_intBody fun a b _ _ => ofNat_mulS_high a b

theorem qCtz_eq : qCtz =
    intBody fun a _ _ _ => BitVec.ofNat 32 (((List.range 32).find? fun i => a.getLsbD i).getD 32) :=
  qInt_eq_intBody fun a _ _ _ => by rw [firstBelow_bit_toNat]

theorem qBswap_eq : qBswap = intBody fun a _ _ _ =>
    (a.extractLsb' 0 8 ++ a.extractLsb' 8 8 ++ a.extractLsb' 16 8 ++ a.extractLsb' 24 8 : BitVec 32) :=
  qInt_eq_intBody fun a _ _ _ => ofNat_ofLE_bytesBE a

theorem qAddi_eq : qAddi = immBody fun a i => a + i.signExtend 32 :=
  qImm_eq_immBody fun a w => by rw [sextW_qImm16]

theorem qAndi_eq : qAndi = immBody fun a i => a &&& i.zeroExtend 32 :=
  qImm_eq_immBody fun a w => by rw [ofNat_qImm16]

theorem qOri_eq : qOri = immBody fun a i => a ||| i.zeroExtend 32 :=
  qImm_eq_immBody fun a w => by rw [ofNat_qImm16]

theorem qXori_eq : qXori = immBody fun a i => a ^^^ i.zeroExtend 32 :=
  qImm_eq_immBody fun a w => by rw [ofNat_qImm16]

theorem qLdhi_eq : qLdhi = immBody fun _ i => (i.zeroExtend 32) <<< 16 :=
  qImm_eq_immBody fun _ w => ofNat_qImm16_high w

theorem qCmpeqi_eq : qCmpeqi = immBody fun a i => Claims.flagWord (decide (a = i.signExtend 32)) :=
  qImm_eq_immBody fun a w => by
    rw [sextW_qImm16]
    rfl

theorem qCmplti_eq : qCmplti = immBody fun a i => Claims.flagWord (decide (a.toInt < (i.signExtend 32).toInt)) :=
  qImm_eq_immBody fun a w => by
    rw [sextW_qImm16]
    rfl

theorem qCmpltui_eq : qCmpltui = immBody fun a i => Claims.flagWord (decide (a.toNat < (i.signExtend 32).toNat)) :=
  qImm_eq_immBody fun a w => by
    rw [sextW_qImm16]
    rfl

theorem qMulw_eq : qMulw = pairBody (fun a b => BitVec.ofInt 32 (a.toInt * b.toInt))
    (fun a b => BitVec.ofInt 32 (a.toInt * b.toInt / 2 ^ 32)) (fun _ _ => 1) := by
  funext s j w x c
  simp only [qMulw, pairBody, ofNat_mulS, ofNat_mulS_high]

theorem qMulwu_eq : qMulwu = pairBody (fun a b => a * b) (fun a b => BitVec.ofNat 32 (a.toNat * b.toNat / 2 ^ 32))
    (fun _ _ => 1) := by
  funext s j w x c
  simp only [qMulwu, pairBody, BitVec.ofNat_mul, BitVec.ofNat_toNat, BitVec.setWidth_eq]

end Sys2Proof.Machine

namespace Sys2Proof.Claims
open Sys2Proof.Machine

/-! ## The tables of R442 to R444 and the bodies of the model -/

/-- Each integer operation of the table runs a body that puts its result in rd. -/
theorem intOp_runsBody : ∀ x, IntOp x → RunsBody x.1 (0x01, x.2.1) (intBody x.2.2) := by
  simp only [IntOp, List.forall_mem_cons]
  refine ⟨?add, ?sub, ?and, ?or, ?xor, ?andn, ?sll, ?srl, ?sra, ?slli, ?srli, ?srai, ?cmpeq, ?cmplt, ?cmpltu, ?sel, ?addx,
    ?carx, ?subx, ?borx, ?mul, ?mulh, ?mulhu, ?clz, ?ctz, ?popc, ?bswap, List.forall_mem_nil _⟩
  case sel => exact ⟨fun _ _ => rfl, congrArg some qSel_eq⟩
  case addx => exact ⟨fun _ _ => rfl, congrArg some qAddx_eq⟩
  case subx => exact ⟨fun _ _ => rfl, congrArg some qSubx_eq⟩
  case mulh => exact ⟨fun _ _ => rfl, congrArg some qMulh_eq⟩
  case ctz => exact ⟨fun _ _ => rfl, congrArg some qCtz_eq⟩
  case bswap => exact ⟨fun _ _ => rfl, congrArg some qBswap_eq⟩
  -- The body of every other operation is the table's result as it stands.
  all_goals exact ⟨fun _ _ => rfl, rfl⟩

/-- Each immediate of the table runs a body that puts its result in rd. -/
theorem immOp_runsBody : ∀ x, ImmOp x → RunsBody x.1 (x.2.1, 0) (immBody x.2.2) := by
  simp only [ImmOp, List.forall_mem_cons]
  exact ⟨⟨fun _ _ => rfl, congrArg some qAddi_eq⟩, ⟨fun _ _ => rfl, congrArg some qAndi_eq⟩,
    ⟨fun _ _ => rfl, congrArg some qOri_eq⟩, ⟨fun _ _ => rfl, congrArg some qXori_eq⟩,
    ⟨fun _ _ => rfl, congrArg some qLdhi_eq⟩, ⟨fun _ _ => rfl, congrArg some qCmpeqi_eq⟩,
    ⟨fun _ _ => rfl, congrArg some qCmplti_eq⟩, ⟨fun _ _ => rfl, congrArg some qCmpltui_eq⟩, List.forall_mem_nil _⟩

/-- Each divide into one register runs a body of R454 and R455. -/
theorem divOp_runsBody : ∀ x, DivOp x → RunsBody x.1 (0x01, x.2.1) (divBody x.2.2.1 x.2.2.2) := by
  simp only [DivOp, List.forall_mem_cons]
  refine ⟨?div, ?divu, ?rem, ?remu, List.forall_mem_nil _⟩
  case div => exact ⟨fun _ _ => rfl, congrArg some (qDivide_eq_divBody fun a b => congrArg Prod.fst (divS_eq a b))⟩
  case divu => exact ⟨fun _ _ => rfl, congrArg some (qDivide_eq_divBody fun a b => congrArg Prod.fst (divU_eq a b))⟩
  case rem => exact ⟨fun _ _ => rfl, congrArg some (qDivide_eq_divBody fun a b => congrArg Prod.snd (divS_eq a b))⟩
  case remu => exact ⟨fun _ _ => rfl, congrArg some (qDivide_eq_divBody fun a b => congrArg Prod.snd (divU_eq a b))⟩

/-- Each pair operation runs a body that puts its results in rd and rd + 1. -/
theorem pairOp_runsBody : ∀ x, PairOp x → RunsBody x.1 (0x01, x.2.1) (pairBody x.2.2.1 x.2.2.2.1 x.2.2.2.2) := by
  simp only [PairOp, List.forall_mem_cons]
  refine ⟨?mulw, ?mulwu, ?divw, ?divwu, List.forall_mem_nil _⟩
  case mulw => exact ⟨fun _ _ => rfl, congrArg some qMulw_eq⟩
  case mulwu => exact ⟨fun _ _ => rfl, congrArg some qMulwu_eq⟩
  case divw => exact ⟨fun _ _ => rfl, congrArg some (qDividePair_eq_pairBody divS_eq)⟩
  case divwu => exact ⟨fun _ _ => rfl, congrArg some (qDividePair_eq_pairBody divU_eq)⟩

/-- A major opcode of an immediate has no function code. -/
theorem qKey_of_immOp {x : (Nat → Instr) × Nat × (W32 → BitVec 16 → W32)} (hx : ImmOp x) {w : Nat}
    (hw : qMajor w = x.2.1) : qKey w = (x.2.1, 0) := by
  have hmajor : 0x02 ≤ x.2.1 ∧ x.2.1 ≤ 0x09 := by
    revert x
    simp [ImmOp]
  rw [qKey, hw]
  simp only [Prod.mk.injEq, true_and]
  rw [if_neg (by omega), if_neg (by omega), if_neg (by omega)]

/-- Settles O1: each operation's body completes in one core with its result in rd (`intOp_runsBody`, `immOp_runsBody`), so
every core of the complex retires it (`RunsBody.exec_of_done`). -/
theorem quireIntegerResults : Obligations.QuireIntegerResults := by
  unfold Obligations.QuireIntegerResults
  constructor
  · intro x hx k w s c c1 fs hL hF hw
    obtain ⟨hreg, hpc, -⟩ := fetches_regs hF
    refine (intOp_runsBody x hx).exec_of_done hL hF hw ?_ ((CoreSt.setG_pc ..).trans hpc)
    simp only [intBody, hreg]
  · intro x hx k w s c c1 fs hL hF hw
    obtain ⟨hreg, hpc, -⟩ := fetches_regs hF
    refine (immOp_runsBody x hx).exec_of_done hL hF (qKey_of_immOp hx hw) ?_ ((CoreSt.setG_pc ..).trans hpc)
    simp only [immBody, hreg]

/-- The time of a divide does not depend on what a fetch changes. -/
theorem divTime_of_fetches {s : State} {j w : Nat} {c c1 : CoreSt} {fs : List Nat} (hF : Fetches s j c w c1 fs) :
    divTime c1 = divTime c := by
  obtain ⟨-, -, hct⟩ := fetches_regs hF
  funext a sgn
  simp only [divTime, hct]

/-- Each pair operation's time does not depend on what a fetch changes. -/
theorem pairOp_time_of_fetches {s : State} {j w : Nat} {c c1 : CoreSt} {fs : List Nat} (hF : Fetches s j c w c1 fs) :
    ∀ x, PairOp x → x.2.2.2.2 c1 = x.2.2.2.2 c := by
  have htime := divTime_of_fetches hF
  simp only [PairOp, List.forall_mem_cons, true_and]
  exact ⟨congrArg (fun time a => time a true) htime, congrArg (fun time a => time a false) htime, List.forall_mem_nil _⟩

/-- Settles O2: a divide and a pair operation complete in one core with the results of R455 and the time of R454
(`divOp_runsBody`, `pairOp_runsBody`), a pair operation with an odd rd is ILLEGAL there, and every core of the complex does
the same (`RunsBody.exec_of_done`, `RunsBody.exec_of_illegal`). -/
theorem quireDividesAndPairs : Obligations.QuireDividesAndPairs := by
  unfold Obligations.QuireDividesAndPairs
  constructor
  · intro x hx k w s c c1 fs hL hF hw
    obtain ⟨hreg, hpc, -⟩ := fetches_regs hF
    refine (divOp_runsBody x hx).exec_of_done hL hF hw ?_ ((CoreSt.setG_pc ..).trans hpc)
    simp only [divBody, hreg, divTime_of_fetches hF]
  · intro x hx k w s c c1 fs hL hF hw a b
    obtain ⟨hreg, hpc, -⟩ := fetches_regs hF
    have hruns := pairOp_runsBody x hx
    constructor
    · intro heven
      refine hruns.exec_of_done hL hF hw ?_ (by simp only [CoreSt.setG_pc, hpc])
      simp only [pairBody, qPairOp_of_even heven, hreg, pairOp_time_of_fetches hF x hx, a, b]
    · intro hodd hexl hfast
      exact hruns.exec_of_illegal hL hF hw (qPairOp_of_odd hodd) hexl hfast

end Sys2Proof.Claims
